-- ==== Sys2Proof/Word.lean ====
section
/-!
DEFINITION. Sys2Proof/Word.lean: the word types (00_scope.md R9, R10: little-endian, bit 0 least significant) and
their plainest arithmetic.
-/
namespace Sys2Proof

/-- Eight bits, the unit of device addresses (11_memory_tiers.md R282). -/
abbrev Byte := BitVec 8
/-- A register or slot word (00_scope.md R10). -/
abbrev Word := BitVec 32
/-- A 64-bit value: register pairs, messages, keys, positions. -/
abbrev DWord := BitVec 64
/-- One 512-byte tile-memory row (02_tile.md R68). Byte n is bits 8n+7 : 8n. -/
abbrev Row := BitVec 4096
/-- One bundle of program memory (02_tile.md R47). -/
abbrev Bundle := BitVec 128
/-- A 256-byte link flit (12_links_and_cadence.md R314). Byte n is bits 8n+7 : 8n. -/
abbrev Flit := BitVec 2048
/-- A 13-bit tile ID (00_scope.md R5). -/
abbrev TileId := BitVec 13
/-- A region, equal to its VF number (01_fabric_and_frame.md R29). -/
abbrev RegionId := BitVec 6
/-- A link port; 0 to 11 exist (12_links_and_cadence.md R311). -/
abbrev PortId := BitVec 4
/-- A virtual lane of a port. -/
abbrev Lane := BitVec 3

namespace Word

/-- The `n` bits from bit `lo` upward, as a number. -/
def bits {w : Nat} (x : BitVec w) (lo n : Nat) : Nat := (x.toNat >>> lo) % 2 ^ n

/-- Bit `i`. -/
def bit {w : Nat} (x : BitVec w) (i : Nat) : Bool := x.getLsbD i

/-- The number `n` as `w` bits, wrapping. -/
def ofNat (w n : Nat) : BitVec w := BitVec.ofNat w n

/-- `x` with the `n` bits from bit `lo` upward replaced by the low `n` bits of `v`. -/
def put {w : Nat} (x : BitVec w) (lo n v : Nat) : BitVec w :=
  let keep := x.toNat - (((x.toNat >>> lo) % 2 ^ n) <<< lo)
  BitVec.ofNat w (keep + ((v % 2 ^ n) <<< lo))

/-- Saturating increment of a 32-bit counter by `k`. -/
def satAdd (x : Word) (k : Nat) : Word :=
  BitVec.ofNat 32 (min (x.toNat + k) 0xFFFFFFFF)

end Word
end Sys2Proof
end

