-- ==== Sys2Proof/Syntax.lean ====
section
/-!
DEFINITION. Sys2Proof/Syntax.lean: the commands of the block, one constructor of `Instr` for each row of
spec/opcode_table.json, and the types of their operands.
-/
namespace Sys2Proof

/-- The 32-bit word of one slot of a bundle (02_tile.md R47, R48). -/
abbrev SlotWord := BitVec 32

/-- The four slots, in the order of fault records (02_tile.md R47, 03_timing_contract.md R107). -/
inductive Slot where
  | s | m | v | x
deriving DecidableEq, Repr

/-- A PCIe function: the physical function or the virtual function of a region (17_host_interface.md R419). -/
inductive Fn where
  | pf
  | vf (n : RegionId)
deriving DecidableEq, Repr

/-- A bit upset of a word of tile memory: what the error-correction codes find (02_tile.md R62, R72). It is an input:
no command of the table stores one otherwise. -/
structure TmUpset where
  row : BitVec 10
  word : BitVec 6
  double : Bool
deriving DecidableEq, Repr

/-- A bit upset of a half-bundle of program memory. -/
structure PmUpset where
  bundle : BitVec 11
  high : Bool
  double : Bool
deriving DecidableEq, Repr

/-- The access a page walk serves (11_memory_tiers.md R293, R296): a DMA of a tile, named by its number, or an
access of a region that no tile made. -/
inductive WalkReq where
  | tileDma (t : TileId) (id : Nat)
  | engine (r : RegionId) (va : BitVec 48) (kind : BitVec 2)
deriving DecidableEq, Repr

/-- What a memory read finds (11_memory_tiers.md R307, R308): nothing, a single-bit error, or one it cannot correct. -/
inductive ReadErr where
  | clean | corrected | uncorrectable
deriving DecidableEq, Repr

/-- An HBM stack or an LPDDR package (11_memory_tiers.md R283). -/
inductive MemUnit where
  | stack (n : BitVec 3)
  | package (n : BitVec 4)
deriving DecidableEq, Repr

/-- What the sensors give in one power window (18_reset_clocks_power.md R457, R460): mean power in W, the hottest
sensor of Q0 to Q3 and the hub in 1/16 degrees C before the user offsets, VCORE0 to VCORE3 in mV. -/
structure PowerSample where
  watts : BitVec 12
  q0 : BitVec 16
  q1 : BitVec 16
  q2 : BitVec 16
  q3 : BitVec 16
  hub : BitVec 16
  v0 : BitVec 12
  v1 : BitVec 12
  v2 : BitVec 12
  v3 : BitVec 12
deriving DecidableEq, Repr

/-- A bit that flipped in a configuration register since it was last written (17_host_interface.md R435, R436): the owning
region, if any, the tile or the port of the register, and the location word. It is an input, as an upset is. -/
structure ParityHit where
  region : Option RegionId
  tile : Option TileId
  port : Option PortId
  loc : BitVec 32
deriving DecidableEq, Repr

/-- A supply rail, by what it feeds (19_pins_and_package.md R477). -/
inductive Rail where
  | vcore (n : BitVec 2)
  | vsram | vhub | hbm | lpddr | serdes | vio | vbkup
deriving DecidableEq, Repr

/-- The mandatory instructions of IEEE 1149.1 and IDCODE (19_pins_and_package.md R476). -/
inductive JtagIr where
  | bypass | sample | preload | extest | idcode
deriving DecidableEq, Repr

/-- What a transaction of the SMBus host begins with (19_pins_and_package.md R474): the target address, the command code, and
the packet error code: on a write the byte sent, if one is; on a read any value asks for one. -/
structure SmbusCall where
  addr : BitVec 7
  code : Byte
  pec : Option Byte
deriving DecidableEq, Repr

/-- A transaction with command code `code` at the lowest address of the target, with no packet error code. -/
def SmbusCall.ofCode (code : Byte) : SmbusCall := { addr := 0x60, code := code, pec := none }

/-- The argument block of a mailbox command, 64 bytes, byte n in bits 8n+7 : 8n (17_host_interface.md R423). -/
abbrev ArgBlock := BitVec 512

/-- The commands. Slot operations carry the tile and the whole slot word; mailbox commands carry the function,
REGION, TAG and argument block of the doorbell; events carry what they are about and what they bring in. An operand with a default
may be left out: a pin's pulse is then long enough to count, a transaction goes to the target's lowest address, a retried read was
uncorrectable. -/
inductive Instr where
  -- S slot (02_tile.md R52)
  | nop (t : TileId) (slot : Slot) (w : SlotWord)
  | alu (t : TileId) (w : SlotWord)
  | addi (t : TileId) (w : SlotWord)
  | andi (t : TileId) (w : SlotWord)
  | ori (t : TileId) (w : SlotWord)
  | xori (t : TileId) (w : SlotWord)
  | shi (t : TileId) (w : SlotWord)
  | lui (t : TileId) (w : SlotWord)
  | setp (t : TileId) (w : SlotWord)
  | plog (t : TileId) (w : SlotWord)
  | br (t : TileId) (w : SlotWord)
  | call (t : TileId) (w : SlotWord)
  | jr (t : TileId) (w : SlotWord)
  | loopi (t : TileId) (w : SlotWord)
  | loopr (t : TileId) (w : SlotWord)
  | fop (t : TileId) (w : SlotWord)
  | dop (t : TileId) (w : SlotWord)
  | fsetp (t : TileId) (w : SlotWord)
  | mfc (t : TileId) (w : SlotWord)
  | mtc (t : TileId) (w : SlotWord)
  | rowld (t : TileId) (w : SlotWord)
  | rowst (t : TileId) (w : SlotWord)
  | ldw (t : TileId) (w : SlotWord)
  | stw (t : TileId) (w : SlotWord)
  | cqrd (t : TileId) (w : SlotWord)
  | endOp (t : TileId) (w : SlotWord)
  -- sync operations (10_sync_and_channels.md R255)
  | ssig (t : TileId) (w : SlotWord)
  | ssigr (t : TileId) (w : SlotWord)
  | swait (t : TileId) (w : SlotWord)
  | sread (t : TileId) (w : SlotWord)
  | sbar (t : TileId) (w : SlotWord)
  | sarr (t : TileId) (w : SlotWord)
  | sbwait (t : TileId) (w : SlotWord)
  | scfg (t : TileId) (w : SlotWord)
  -- M slot (05_matrix_array.md R144)
  | mpass (t : TileId) (w : SlotWord)
  | mdrain (t : TileId) (w : SlotWord)
  | mdld (t : TileId) (w : SlotWord)
  -- V slot (07_vector_engine.md R189)
  | vdld (t : TileId) (w : SlotWord)
  | vjld (t : TileId) (w : SlotWord)
  | vpld (t : TileId) (w : SlotWord)
  | vrun (t : TileId) (w : SlotWord)
  | vruna (t : TileId) (w : SlotWord)
  | vmode (t : TileId) (w : SlotWord)
  -- X slot (09_exchange.md R230, 11_memory_tiers.md R297, 10_sync_and_channels.md R273)
  | xrld (t : TileId) (w : SlotWord)
  | xvld (t : TileId) (w : SlotWord)
  | xsend (t : TileId) (w : SlotWord)
  | xrecv (t : TileId) (w : SlotWord)
  | xdue (t : TileId) (w : SlotWord)
  | xsel (t : TileId) (w : SlotWord)
  | clreq (t : TileId) (w : SlotWord)
  | xmov (t : TileId) (w : SlotWord)
  | dmld (t : TileId) (w : SlotWord)
  | dmard (t : TileId) (w : SlotWord)
  | dmawr (t : TileId) (w : SlotWord)
  | dmaacc (t : TileId) (w : SlotWord)
  | dmazf (t : TileId) (w : SlotWord)
  | dmaxr (t : TileId) (w : SlotWord)
  | chopen (t : TileId) (w : SlotWord)
  | chsend (t : TileId) (w : SlotWord)
  | chclose (t : TileId) (w : SlotWord)
  | cqrow (t : TileId) (w : SlotWord)
  -- events of tiles and regions
  | haltEngage (r : RegionId)
  | stallResume (t : TileId)
  | scoreboardClear (t : TileId) (e : BitVec 4)
  | scrubWindow (t : TileId) (tm : List TmUpset) (pm : List PmUpset)
  | scrubPassStart
  | matrixPassComplete (t : TileId)
  | drainComplete (t : TileId)
  | vectorJobEnd (t : TileId)
  | asyncJobComplete (t : TileId) (k : BitVec 1)
  | syncOpArrival (r : RegionId) (obj : BitVec 16)
  | releaseWake (r : RegionId) (obj : BitVec 16)
  | waiterWake (t : TileId)
  | exchangeWindowOpen (r : RegionId)
  | exchangeWindowEnd (r : RegionId)
  | compiledRowArrival (t : TileId)
  | armedReceiveMissed (t : TileId)
  | lateItemRowWrite (t : TileId) (item : BitVec 16)
  | brakeFreeze (r : RegionId)
  | brakeThaw (r : RegionId)
  | brakeTimeout (r : RegionId)
  | codeLoadBlock (r : RegionId) (slot : BitVec 6) (t : TileId)
  | entryHoldRelease (r : RegionId)
  | chanOpenRequest (t : TileId) (ch : BitVec 2)
  | chanMessageDelivery (t : TileId) (ch : BitVec 2)
  | chanCreditReturn (t : TileId) (ch : BitVec 2)
  | chanCloseMarker (t : TileId) (port : BitVec 3)
  -- events of the memory tiers
  | pageWalk (req : WalkReq)
  | dmaComplete (t : TileId) (id : Nat)
  | memReadRetry (addr : BitVec 40) (ok : Bool) (t : Option TileId) (found : ReadErr := .uncorrectable)
  | patrolScrub (addr : BitVec 40) (found : ReadErr)
  | zeroSweep (page : BitVec 19)
  | memTempOver (u : MemUnit)
  | memTempRecover (u : MemUnit)
  | unitReturn (cls : BitVec 8) (idx : BitVec 16) (owner : RegionId := 0) (epoch : BitVec 32 := 0)
  | unitReload (cls : BitVec 8) (idx : BitVec 16)
  -- link ports
  | frameSlotSend (p : PortId) (frac : BitVec 10)
  | dataFlit (p : PortId) (f : Flit) (errs : List (BitVec 10))
  | idleFlit (p : PortId) (f : Flit) (errs : List (BitVec 10))
  | holdFlit (p : PortId) (f : Flit) (errs : List (BitVec 10))
  | ctrlFlit (p : PortId) (f : Flit) (errs : List (BitVec 10)) (frac : BitVec 10)
  | replayTimeout (p : PortId)
  | laneSignalLoss (p : PortId) (lane : BitVec 2)
  | laneUeThreshold (p : PortId) (lane : BitVec 2)
  | linkTrainingDone (p : PortId) (bad : BitVec 4)
  | trainingTimeout (p : PortId)
  | helloTimeout (p : PortId)
  -- received transactions: the oldest waiting on lane v of port p
  | rowWr (p : PortId) (v : Lane)
  | memWr (p : PortId) (v : Lane)
  | memAcc (p : PortId) (v : Lane)
  | sig (p : PortId) (v : Lane)
  | barArr (p : PortId) (v : Lane)
  | barRel (p : PortId) (v : Lane)
  | barAbort (p : PortId) (v : Lane)
  | memRej (p : PortId) (v : Lane)
  | drlMove (p : PortId) (v : Lane)
  | drlMoveDone (p : PortId) (v : Lane)
  | drlRoundTimeout (r : RegionId)
  | fwMirrorData (p : PortId) (v : Lane)
  | fwMirrorDone (p : PortId) (v : Lane)
  | fwMirrorAck (p : PortId) (v : Lane)
  | fwRestoreRequest (p : PortId) (v : Lane)
  | fwRestoreData (p : PortId) (v : Lane)
  | fwRestoreDone (p : PortId) (v : Lane)
  | fwRestoreRefuse (p : PortId) (v : Lane)
  | restoreTimeout (r : RegionId)
  -- freewheel, export, update units
  | fwMirrorStart (r : RegionId)
  | fwRemirrorStart (r : RegionId)
  | fwStall (r : RegionId)
  | exportStart (r : RegionId)
  | exportRecord (r : RegionId)
  | exportComplete (r : RegionId)
  | updStepStart (r : RegionId)
  | updStepEnd (r : RegionId)
  | syncSetApply (fn : Fn)
  | syncSetTimeout (fn : Fn)
  -- cadence, clock, power
  | cadenceLoadBeat
  | cadenceLoss
  | cadenceRecover (err : BitVec 48)
  | powerWindow (sample : PowerSample)
  | limitBrakeEnd (r : RegionId)
  | clockStepChange
  | clockCeilEvent
  | paritySweep (hits : List ParityHit)
  | thermalTrip
  | vrFault (reg : BitVec 3)
  | vrAlert
  -- pins and resets
  | pwrgoodRise (vbkupLost : Bool) (straps : BitVec 4)
  | pwrgoodFall
  | coldRstN (ns : Nat)
  | warmRstN (ns : Nat)
  | perstN (ns : Nat := 1000)
  | hubWatchdog
  | resetReleaseStep (waited : Bool) (fuseOk : BitVec 8)
  | resetCommandStart
  | flr (fn : Fn)
  -- mailbox commands (17_host_interface.md R427) and their ends
  | loadFrame (fn : Fn) (rg : RegionId) (tag : BitVec 16) (a : ArgBlock)
  | loadRegionFrame (fn : Fn) (rg : RegionId) (tag : BitVec 16) (a : ArgBlock)
  | frameLoadComplete (image : List Byte)
  | retireColumn (fn : Fn) (rg : RegionId) (tag : BitVec 16) (a : ArgBlock)
  | retireFusePulseEnd (readback : Bool)
  | revokeKey (fn : Fn) (rg : RegionId) (tag : BitVec 16) (a : ArgBlock)
  | setIdentity (fn : Fn) (rg : RegionId) (tag : BitVec 16) (a : ArgBlock)
  | linkRetrain (fn : Fn) (rg : RegionId) (tag : BitVec 16) (a : ArgBlock)
  | cadenceSet (fn : Fn) (rg : RegionId) (tag : BitVec 16) (a : ArgBlock)
  | regionGrant (fn : Fn) (rg : RegionId) (tag : BitVec 16) (a : ArgBlock)
  | grantComplete (r : RegionId)
  | regionRevoke (fn : Fn) (rg : RegionId) (tag : BitVec 16) (a : ArgBlock)
  | revokeComplete (r : RegionId)
  | mmuRoot (fn : Fn) (rg : RegionId) (tag : BitVec 16) (a : ArgBlock)
  | mmuInval (fn : Fn) (rg : RegionId) (tag : BitVec 16) (a : ArgBlock)
  | bufReg (fn : Fn) (rg : RegionId) (tag : BitVec 16) (a : ArgBlock)
  | bufFree (fn : Fn) (rg : RegionId) (tag : BitVec 16) (a : ArgBlock)
  | syncSet (fn : Fn) (rg : RegionId) (tag : BitVec 16) (a : ArgBlock)
  | syncDump (fn : Fn) (rg : RegionId) (tag : BitVec 16) (a : ArgBlock)
  | syncDumpComplete (fn : Fn)
  | loadProgram (fn : Fn) (rg : RegionId) (tag : BitVec 16) (a : ArgBlock)
  | programLoadComplete (r : RegionId)
  | loadDesc (fn : Fn) (rg : RegionId) (tag : BitVec 16) (a : ArgBlock)
  | updList (fn : Fn) (rg : RegionId) (tag : BitVec 16) (a : ArgBlock)
  | updSetStep (fn : Fn) (rg : RegionId) (tag : BitVec 16) (a : ArgBlock)
  | updDisarm (fn : Fn) (rg : RegionId) (tag : BitVec 16) (a : ArgBlock)
  | updEmit (fn : Fn) (rg : RegionId) (tag : BitVec 16) (a : ArgBlock)
  | drlRun (fn : Fn) (rg : RegionId) (tag : BitVec 16) (a : ArgBlock)
  | fwConfig (fn : Fn) (rg : RegionId) (tag : BitVec 16) (a : ArgBlock)
  | fwExport (fn : Fn) (rg : RegionId) (tag : BitVec 16) (a : ArgBlock)
  | rollback (fn : Fn) (rg : RegionId) (tag : BitVec 16) (a : ArgBlock)
  | adopt (fn : Fn) (rg : RegionId) (tag : BitVec 16) (a : ArgBlock)
  | setClock (fn : Fn) (rg : RegionId) (tag : BitVec 16) (a : ArgBlock)
  | setPowerCap (fn : Fn) (rg : RegionId) (tag : BitVec 16) (a : ArgBlock)
  | setCal (fn : Fn) (rg : RegionId) (tag : BitVec 16) (a : ArgBlock)
  | resetWarm (fn : Fn) (rg : RegionId) (tag : BitVec 16) (a : ArgBlock)
  | resetCold (fn : Fn) (rg : RegionId) (tag : BitVec 16) (a : ArgBlock)
  | resetHubCpu (fn : Fn) (rg : RegionId) (tag : BitVec 16) (a : ArgBlock)
  | resetPcieEp (fn : Fn) (rg : RegionId) (tag : BitVec 16) (a : ArgBlock)
  | resetFuseCtl (fn : Fn) (rg : RegionId) (tag : BitVec 16) (a : ArgBlock)
  | resetCadence (fn : Fn) (rg : RegionId) (tag : BitVec 16) (a : ArgBlock)
  -- register accesses
  | eventAck (fn : Fn) (off : BitVec 24) (seq : BitVec 16)
  | latchingRead (fn : Fn) (off : BitVec 24)
  | syncVsel (fn : Fn) (rg : RegionId) (v : Word)
  | xwinWrite (fn : Fn) (rg : RegionId) (win : BitVec 8) (v : Word)
  | expTailWrite (fn : Fn) (rg : RegionId) (v : Word)
  | blkRstTileColumn (idx : BitVec 12) (idle : Bool)
  | blkRstLinkPort (idx : BitVec 12) (idle : Bool)
  | blkRstHbmChannel (idx : BitVec 12) (idle : Bool)
  | blkRstLpddrChannel (idx : BitVec 12) (idle : Bool)
  | blkRstUpdateUnit (idx : BitVec 12) (idle : Bool)
  | hubFwGo
  | hubFwLoadDone (image : Option (List Byte))
  | registerWrite (fn : Fn) (off : BitVec 24) (v : Word)
  | smbusSetPointer (bytes : List Byte) (m : SmbusCall := .ofCode 1)
  | smbusBlockRead (m : SmbusCall := .ofCode 2)
  | smbusVersionRead (m : SmbusCall := .ofCode 3)
  | jtagInstruction (ir : JtagIr) (trst : Nat := 0)
  | beatBoundary
  | vrFaultClear (reg : BitVec 3)
  | vrAlertRelease
  | thermHoldRelease
  | vbkupLoss
  | railOutOfTolerance (rail : Rail)
  | revokeFusePulseEnd
  | hazTailWrite (fn : Fn) (rg : RegionId) (v : Word)
deriving DecidableEq, Repr

end Sys2Proof
end

