-- ==== Sys2Proof/Decode.lean ====
section
/-!
DEFINITION. Sys2Proof/Decode.lean: the command a word of the opcode table spells (no row of spec/opcode_table.json gives
bits, so none), and the slot operation a slot word of program memory spells by its OP (02_tile.md R48, R52; 05 R144; 07
R189; 09 R230; 10 R255, R273; 11 R297).
-/
namespace Sys2Proof

/-- The command spelled by a word of `nbits` bits: none, whatever the word. -/
def decodeTableWord (_nbits _w : Nat) : Option Instr := none

/-- The operations of the S slot by OP. -/
def decodeS (op : Nat) : Option (TileId → SlotWord → Instr) :=
  match op with
  | 0x01 => some .alu | 0x02 => some .addi | 0x03 => some .andi | 0x04 => some .ori | 0x05 => some .xori
  | 0x06 => some .shi | 0x07 => some .lui | 0x08 => some .setp | 0x09 => some .plog | 0x0A => some .br
  | 0x0B => some .call | 0x0C => some .jr | 0x0D => some .loopi | 0x0E => some .loopr | 0x10 => some .fop
  | 0x11 => some .dop | 0x12 => some .fsetp | 0x18 => some .mfc | 0x19 => some .mtc | 0x1A => some .rowld
  | 0x1B => some .rowst | 0x1C => some .ldw | 0x1D => some .stw | 0x1E => some .cqrd | 0x1F => some .endOp
  | 0x28 => some .ssig | 0x29 => some .ssigr | 0x2A => some .swait | 0x2B => some .sread | 0x2C => some .sbar
  | 0x2D => some .sarr | 0x2E => some .sbwait | 0x2F => some .scfg
  | _ => none

/-- The operations of the M slot by OP. -/
def decodeM (op : Nat) : Option (TileId → SlotWord → Instr) :=
  match op with
  | 0x01 => some .mpass | 0x02 => some .mdrain | 0x03 => some .mdld
  | _ => none

/-- The operations of the V slot by OP. -/
def decodeV (op : Nat) : Option (TileId → SlotWord → Instr) :=
  match op with
  | 0x01 => some .vdld | 0x02 => some .vjld | 0x03 => some .vpld | 0x04 => some .vrun | 0x05 => some .vruna
  | 0x06 => some .vmode
  | _ => none

/-- The operations of the X slot by OP. -/
def decodeX (op : Nat) : Option (TileId → SlotWord → Instr) :=
  match op with
  | 0x01 => some .xrld | 0x02 => some .xvld | 0x03 => some .xsend | 0x04 => some .xrecv | 0x05 => some .xdue
  | 0x06 => some .xsel | 0x07 => some .clreq | 0x08 => some .xmov | 0x10 => some .dmld | 0x11 => some .dmard
  | 0x12 => some .dmawr | 0x13 => some .dmaacc | 0x14 => some .dmazf | 0x15 => some .dmaxr | 0x20 => some .chopen
  | 0x21 => some .chsend | 0x22 => some .chclose | 0x23 => some .cqrow
  | _ => none

/-- The operation an OP names in a slot, NOP and reserved codes aside. -/
def decodeOp (slot : Slot) (op : Nat) : Option (TileId → SlotWord → Instr) :=
  match slot with
  | .s => decodeS op
  | .m => decodeM op
  | .v => decodeV op
  | .x => decodeX op

/-- The command that issues word `w` in a slot of tile `t`. A reserved OP is given as NOP, which faults it (R50). -/
def decodeSlot (slot : Slot) (t : TileId) (w : SlotWord) : Instr :=
  match decodeOp slot (w.toNat >>> 26) with
  | some f => f t w
  | none => .nop t slot w

end Sys2Proof
end

