-- ==== Sys2Proof/Config.lean ====
section
/-!
DEFINITION. Sys2Proof/Config.lean: what one part fixes for its life (fuses, factory calibration) and the free values.
What differs from part to part has no body: no proof can see such a value, so a statement holds whatever the part and whatever
the value. What the spec says of every part (the columns a grade keeps, the range and the order of the setpoints) is defined from it.
-/
namespace Sys2Proof.Config

/-- A free value of `w` bits: the `n`-th one the machine drew (log entry 6). -/
opaque free (w : Nat) (n : Nat) : BitVec w

/-- The grade fused at factory test, SIZE_GRADE (01_fabric_and_frame.md R15). Log entry 4. -/
opaque grade : Fin 3

/-- The physical columns of die `d` found defective at factory test (01_fabric_and_frame.md R14, R15). Log entry 4. -/
opaque defects (d : Nat) : BitVec 34

/-- Columns each die keeps: 32 on B6144, 30 on B5760, 28 on B5376 (01_fabric_and_frame.md R15). -/
def keptPerDie : Nat := 32 - 2 * grade.val

/-- The columns of a die in the order in which they are kept: good ones from the left, then, on a die with too few good ones, of
which no part is made, the others. -/
def keepOrder (d : Nat) : List Nat :=
  (List.range 34).filter (fun k => !(defects d).getLsbD k) ++ (List.range 34).filter (fun k => (defects d).getLsbD k)

/-- The physical columns of die `d` kept at factory test: every defective one is fused off, then good ones from the right until
exactly the grade's count remains (01_fabric_and_frame.md R15). -/
def factoryColumns (d : Nat) : BitVec 34 :=
  ((keepOrder d).take keptPerDie).foldl (fun m k => m ||| (1#34 <<< k)) 0

/-- SHA-384 hash of the provider key of key slot `k` (01_fabric_and_frame.md R31). Log entry 4. -/
opaque keyHash (k : Nat) : BitVec 384

/-- SHA-384 hash of the firmware key (18_reset_clocks_power.md R452). Log entry 4. -/
opaque firmwareKeyHash : BitVec 384

/-- Factory calibration value of an INDEX of SET_CAL, signed (18_reset_clocks_power.md R461). Log entry 4. -/
opaque factoryCal (index : Nat) : BitVec 32

/-- By how much the factory VCORE setpoint of die `d` at step `k` lies above that of the next slower step, in mV, and for step 3
above 650 mV (18_reset_clocks_power.md R482). Log entry 4. -/
opaque setpointStep (d k : Nat) : Nat

/-- Factory VCORE setpoint of die `d` at step `k`, in mV: from 650 to 850, no lower at a faster step than at a slower one
(18_reset_clocks_power.md R482). -/
def factorySetpoint (d k : Nat) : BitVec 12 :=
  BitVec.ofNat 12 (min 850 (650 + (((List.range 4).filter (fun j => decide (k ≤ j))).map (setpointStep d)).sum))

/-- The working value a function stage gives where 07_vector_engine.md R212 bounds it and does not fix it:
`f` is the stage operation, `wide` the FP64 working format, `x` the operand. Log entry 9. -/
opaque stageValue (f : Nat) (wide : Bool) (x : BitVec 64) : BitVec 64

/-- Whether a decode into the working format whose exact value lies beyond it saturates or gives an infinity:
04_number_formats.md R127 names both outcomes and a stream decode carries no OVF. Log entry 9. -/
opaque decodeSaturates : Bool

end Sys2Proof.Config
end

