-- ==== Sys2Proof/Machine/State.lean ====
section
/-!
DEFINITION. Sys2Proof/Machine/State.lean: the state of the block as plain data, the reasons a step can stop, and the
state after reset. INVENTORY.md lists every field with the rule that names it.
-/
namespace Sys2Proof.Machine

/-- Sparse storage of `w`-bit cells: addresses strictly rising, no cell equal to zero; an unlisted address reads 0. -/
abbrev Cells (w : Nat) := List (Nat × BitVec w)

/-- A table of things numbered by Nat, numbers strictly rising; each reader names what an absent number stands for. -/
abbrev Tab (α : Type) := List (Nat × α)

/-! ### Control core (02_tile.md R44 to R60) -/

/-- A write of a general register in flight: readable from region cycle `ready` (R45, R49). -/
structure RegWrite where
  reg : BitVec 5
  val : Word
  ready : Nat
  issue : Nat
deriving DecidableEq, Repr

/-- A write of a predicate in flight. -/
structure PredWrite where
  pred : BitVec 3
  val : Bool
  ready : Nat
  issue : Nat
deriving DecidableEq, Repr

/-- A write of the scalar row buffer in flight (R52): a word (STW) or the whole row (ROWLD). -/
structure SrbWrite where
  word : Option (BitVec 7)
  val : Row
  ready : Nat
deriving DecidableEq, Repr

/-- What an X-slot operation waits for with the tile gated (10 R274, R275): a credit or the open of a channel for a
message, or the close of a channel for an open. -/
inductive Gate where
  | send (ch : BitVec 2) (msg : DWord)
  | reopen (ch : BitVec 2) (dst : TileId) (port : BitVec 3) (pc : BitVec 11)
deriving DecidableEq, Repr

/-- Where the bundle being issued stands: its slots take effect, or one faulted, or one is blocked (02 R77; 03 R105). -/
inductive BundleMode where
  | live | void | blocked
deriving DecidableEq, Repr

/-- The bundle being issued: its region cycle, the number of the next record when it began, the slots issued so far, its
mode. -/
structure OpenBundle where
  at_ : Nat
  order : Nat
  slots : List Slot
  mode : BundleMode
deriving DecidableEq, Repr

/-- An active hardware loop: counter, first bundle of the body, END (R58). -/
structure Loop where
  lc : BitVec 2
  start : BitVec 11
  stop : BitVec 11
deriving DecidableEq, Repr

/-- What a blocked bundle waits for (02 R77, R78; 06 R167; 11 R299): rows with their use (true: to write), free entries,
fewer than four zero-fills in flight, no asynchronous job, none with summaries, fewer than two. -/
structure Need where
  rows : List (Nat × Bool)
  entries : Nat
  zeroFills : Bool
  asyncs : Bool
  sumAsyncs : Bool
  twoAsyncs : Bool
deriving DecidableEq, Repr

/-- Whether and why a tile issues (R59, R60, R77, R78, R80; 10 R259, R261, R274, R275; 03 R105). -/
inductive Run where
  | entryHold
  | running
  /-- Blocked by the scoreboard: what it needs, and the region cycle it may issue in once nothing blocks. -/
  | stalled (need : Need) (resumeAt : Option Nat)
  | waitObj (obj : Nat)
  | waitBar (obj : Nat)
  /-- Served by its object; issues next in cycle `wake`; `bar`: after a barrier wait (10 R252, R262). -/
  | waking (wake : Nat) (bar : Bool)
  /-- Released from a barrier; issues next in cycle `wake` or when the window opens (10 R261; 03 R87). -/
  | released (wake : Nat)
  | waitPort (q : BitVec 2) (rd : BitVec 5)
  | ended
  | stopped
deriving DecidableEq, Repr

/-- The control core of a tile. -/
structure Ctl where
  g : Cells 32
  gw : List RegWrite
  p : BitVec 8
  pw : List PredWrite
  lc : Cells 32
  loops : List Loop
  pc : BitVec 11
  branch : Option (BitVec 11)
  overflow : Bool
  srb : Row
  srbw : List SrbWrite
  fsr : BitVec 7
  ff : List (Nat × BitVec 5)
  cycHi : Word
  run : Run
  gate : Option Gate
  bundle : Option OpenBundle
  next : Nat
  /-- The region cycle in which the tile left entry hold: CYC counts from it (R46). -/
  origin : Nat
  retain : BitVec 24
  retainLost : BitVec 24
deriving DecidableEq, Repr

/-- A scoreboard entry (R76): rows `first` to `last`, `write` for KIND W, and the number of the operation that holds it. -/
structure SbEntry where
  first : Nat
  last : Nat
  write : Bool
  op : Nat
deriving DecidableEq, Repr

/-! ### Matrix array (05_matrix_array.md) -/

/-- A matrix pass in flight (R145, R148, R150). `first` is O, `cycles` is P; `got` holds the rows the feed has read,
keyed by 4,096 times the stream (0 A scales, 1 B scales, 2 A data, 3 B data, 4 A shadow, 5 B shadow) plus the index. -/
structure Pass where
  md : BitVec 128
  bank : Bool
  init : Bool
  first : Nat
  cycles : Nat
  pc : BitVec 11
  passNo : Word
  got : Tab Row
  issue : Nat
  junk : Bool
deriving DecidableEq, Repr

/-- A value a conversion counts (06_narrow_safeguards.md R165). -/
structure Events where
  clip : Nat
  uflow : Nat
  nan : Nat
  subflush : Nat
deriving DecidableEq, Repr

/-- One group of a static job (07_vector_engine.md R198): its start cycle, its length, the element ordinals and
the rows it reads, each with its stream and region cycle. -/
structure VGroup where
  start : Nat
  len : Nat
  index : Nat
  base : Nat
  reads : List (Nat × Nat × Nat)
deriving DecidableEq, Repr

/-- What a job was issued with: the job register, the descriptors it names, its element program, the registers its
stages read, and the draw and scale context (07 R190, R193; 08 R218; 06 R171). -/
structure JobSetup where
  vj : BitVec 512
  in0 : BitVec 256
  in1 : BitVec 256
  out : BitVec 256
  sh : BitVec 256
  bcast : Tab (BitVec 256)
  prog : List Word
  regs : Tab Word
  strict : Bool
  gear : BitVec 2
  tile : TileId
  key : DWord
  tsid : BitVec 9
  pos : DWord
  seed : DWord
  hmax : Option Word
  num : Nat
  pc : BitVec 11
deriving DecidableEq, Repr

/-- A static vector job in flight. `got` holds the last row each stream read, keyed by 1,024 times the stream plus the
row; `res` the presented values by ordinal; `writes` the rows still to write, each with its region cycle and what it
is (0 data, 1 scale, 2 shadow). -/
structure Job where
  setup : JobSetup
  groups : List VGroup
  got : Tab Row
  res : Tab DWord
  writes : List (Nat × Nat × Nat)
  ends : Nat
  events : Events
  flags : BitVec 5
  issue : Nat
  junk : Bool
  /-- It ran in free bank cycles: its events and its record take effect with its end (06 R167; 07 R203). -/
  async : Bool
deriving DecidableEq, Repr

/-- An asynchronous vector job (07 R203, R204): its scoreboard operation number, the VCQ messages it needs and has, what it
was issued with. -/
structure AsyncJob where
  op : Nat
  need : Nat
  vcq : List DWord
  setup : JobSetup
deriving DecidableEq, Repr

/-- A drain in flight (05 R163): issue cycle, bank, mode, its chain as a job, the accumulator rows it took from the
bank, and whether it takes an audit sample (06 R178). -/
structure Drain where
  job : Job
  at_ : Nat
  bank : Bool
  mode : BitVec 2
  rows : Tab (List Word)
  audit : Bool
  /-- j* of the bank when the drain was issued (06 R174). -/
  col : Nat
  /-- Its last write is complete and its end is noted (R163). -/
  noted : Bool
deriving DecidableEq, Repr

/-- The matrix array of a tile. Banks are keyed by 32 i + j. -/
structure MatSt where
  acc0 : Cells 32
  acc1 : Cells 32
  aud0 : Cells 32
  aud1 : Cells 32
  valid : BitVec 2
  /-- j* of the last INIT pass into each bank (06 R174). -/
  init0 : Word
  init1 : Word
  md : Cells 128
  passNo : Word
  lastOp : Option Nat
  passes : List Pass
  drains : List Drain
  lastDrain : Option Nat
deriving DecidableEq, Repr

/-- A scale slot (06 R170): its ring, HEAD and COUNT. -/
structure ScaleSlot where
  ring : Cells 32
  head : Nat
  count : Nat
deriving DecidableEq, Repr

/-- Headroom counters, scale slots, audit column and thresholds of a tile (06 R165 to R181). -/
structure Guards where
  clip : Word
  uflow : Word
  nan : Word
  subflush : Word
  slots : Tab ScaleSlot
  sel : BitVec 12
  seed : DWord
  audMax : Word
  audSum : Word
  audN : Word
  audLast : Word
  audNf : Word
  audCol : BitVec 5
  thClip : Word
  thUflow : Word
  thNan : Word
  thSubflush : Word
  thAudMax : Word
  thAudMean : Word
deriving DecidableEq, Repr

/-- The vector engine of a tile (07 R184 to R214) and its spoke context (08 R223). -/
structure VecSt where
  vd : Cells 256
  vj : Cells 512
  /-- Element programs of each store, each with the region cycle it is usable from (07 R189), the latest first. -/
  progs : Tab (List (Nat × List Word))
  sum : Cells 32
  vfsr : BitVec 5
  mode : Option Bool
  pending : Option Bool
  jobs : List Job
  asyncs : List AsyncJob
  /-- Jobs and drain chains that end in this region cycle (06 R171; 07 R208). -/
  ended : List Job
  /-- Jobs and drain chains whose amax is recorded in the next region cycle (06 R171). -/
  recording : List Job
  key : DWord
  pos : DWord
  tsid : BitVec 9
  posHi : Word
deriving DecidableEq, Repr

/-! ### Exchange, DMA, channels -/

/-- An armed compiled receive (09 R235): issue cycle Q, receive register, rows N, first row, rows completed, the rows of
the send before its first one once that is known, and the bundle. `key` is SPK_KEY at issue (R246). -/
structure Armed where
  at_ : Nat
  xv : BitVec 128
  n : Nat
  row : Nat
  done : Nat
  base : Option Nat
  key : DWord
  pc : BitVec 11
  scale : Option Row
  got : Tab Row
  junk : Bool
deriving DecidableEq, Repr

/-- A late-item declaration (09 R240; 11 R301). -/
structure Decl where
  id : Nat
  pc : BitVec 11
  junk : Bool
  item : BitVec 16
  n : Nat
  row : Nat
  xv : BitVec 128
  dma : Bool
  written : List Nat
  key : DWord
  /-- The link port its rows came by (12 R322). -/
  port : Option PortId
  /-- The row of block scales, read before the item's first row (09 R245). -/
  scale : Option Row
  events : Events
deriving DecidableEq, Repr

/-- An off-device send in progress (09 R243) or a copy (09 R237): next read index and cycle. -/
structure Mover where
  at_ : Nat
  n : Nat
  row : Nat
  dst : Nat
  xr : BitVec 128
  got : Tab Row
  pc : BitVec 11
  junk : Bool
deriving DecidableEq, Repr

/-- The exchange unit of a tile. -/
structure Exch where
  xr : Cells 128
  xv : Cells 128
  win : BitVec 8
  nextWin : BitVec 8
  sendFree : Nat
  gates : List Mover
  moves : List Mover
  armed : List Armed
  decls : List Decl
  reserved : Cells 16
  leads : List (Nat × Nat × Nat × Nat)
deriving DecidableEq, Repr

/-- The DMA operations (11 R297). -/
inductive DmaOp where
  | rd | wr | acc | zf | xr
deriving DecidableEq, Repr

/-- A DMA in flight: its number, rows, register, translated device addresses, and the rows it has read. -/
structure Dma where
  id : Nat
  op : DmaOp
  n : Nat
  row : Nat
  dr : BitVec 128
  pas : Option (List Nat)
  data : Option (List Row)
  pc : BitVec 11
deriving DecidableEq, Repr

/-- Send channel states (10 R280). -/
inductive ChState where
  | closed | opening | open_ | closing
deriving DecidableEq, Repr

/-- A send channel (10 R272 to R276): destination tile and port, credits, messages in flight (oldest first), a close
marker in flight, credits on their way back. -/
structure Chan where
  st : ChState
  credits : Nat
  dst : TileId
  port : BitVec 3
  flight : List DWord
  marker : Bool
  back : Nat
  pc : BitVec 11
deriving DecidableEq, Repr

/-- A receive port (10 R272): sender tile and channel, buffered messages. -/
structure RxPort where
  bound : Option (TileId × BitVec 2)
  buf : List DWord
deriving DecidableEq, Repr

/-- A CQROW in progress (10 R277). -/
structure CqRow where
  q : BitVec 2
  n : Nat
  row : Nat
  op : Nat
  got : List DWord
deriving DecidableEq, Repr

/-- Who waits for free bank cycles (02 R70): a DMA, row `k` of a late item, a channel row, an asynchronous job. -/
inductive FreeWho where
  | dma (id : Nat)
  | late (item : BitVec 16) (k : Nat) (decl : Option Nat)
  | cqrow (op : Nat)
  | async (op : Nat)
deriving DecidableEq, Repr

/-- What it takes next (02 R70; 07 R203): a bank cycle for a row, the entry of group `g` into stage 1 once `vals` VCQ
messages are there, a bank cycle for a row that the result of group `g` completes. -/
inductive FreeStep where
  | use (row : Nat)
  | stage (g vals : Nat)
  | put (row g : Nat)
deriving DecidableEq, Repr

/-- A request for free bank cycles: the steps left, in order, and the region cycle each group entered stage 1 in. -/
structure FreeReq where
  who : FreeWho
  steps : List FreeStep
  enters : Tab Nat
deriving DecidableEq, Repr

/-- A use of a tile-memory bank in the present region cycle (02 R69), by the schedule. -/
structure BankUse where
  row : Nat
  write : Bool
  site : Option (Slot × BitVec 11)
deriving DecidableEq, Repr

/-- A tile. -/
structure Tile where
  ctl : Ctl
  tm : Cells 4096
  upsets : List (Nat × Nat × Bool)
  poison : List (Nat × Nat)
  written : List Nat
  uses : List BankUse
  /-- Requests for free bank cycles, the oldest first (02 R70). -/
  reqs : List FreeReq
  /-- Rows that static operations issued so far will still write: row, region cycle of the write, issue cycle and bundle
  of the operation (03 R103). -/
  expect : List (Nat × Nat × Nat × BitVec 11)
  pm : Cells 128
  pmUpsets : List (Nat × Bool × Bool)
  sb : Tab SbEntry
  matrix : MatSt
  guards : Guards
  vec : VecSt
  exch : Exch
  dr : Cells 128
  dmas : List Dma
  chans : Tab Chan
  ports : Tab RxPort
  cqrows : List CqRow
  split : Option (BitVec 16 × Option Bool × Nat)
  mark : List (Word × DWord × DWord × BitVec 9 × Nat)
  markDone : Word × DWord × DWord × BitVec 9
  ops : Nat
deriving DecidableEq, Repr

/-- What of a tile no grant touches (02 R61, R72 to R75): error counts and the scrubber. -/
structure TileHw where
  tmCe : Word
  pmCe : Word
  tmUe : Word
  late : BitVec 16
  wb : Option Nat
  pass : Nat
  /-- Windows of pass `pass` in which a bank had no scrubber cycle, by bank (R75). -/
  behind : Tab Nat
  /-- The window `had` tells of: the banks that have had their scrubber cycle in it (R70, R74). -/
  window : Nat
  had : BitVec 4
deriving DecidableEq, Repr

/-! ### Sync objects (10_sync_and_channels.md) -/

/-- A waiter: tile, or none for the update controller (13 R350), and count (0 at a barrier). -/
structure Waiter where
  tile : Option TileId
  count : Nat
deriving DecidableEq, Repr

/-- A recorded child of a barrier (R265). -/
structure Child where
  port : PortId
  dev : BitVec 16
  obj : BitVec 16
deriving DecidableEq, Repr

/-- A sync object (R250 to R269). -/
structure SyncObj where
  bar : Bool
  xch : Bool
  sense : Bool
  up : Bool
  value : BitVec 16
  pcount : BitVec 16
  gen : BitVec 16
  waiters : List Waiter
  last : Word
  lbeat : DWord
  parEn : Bool
  parentPort : BitVec 4
  parentDev : BitVec 16
  parentObj : BitVec 16
  children : List Child
deriving DecidableEq, Repr

/-- Who sent something to an object: a tile operation (with its bundle), a signal of a tile, an engine of the
region, another device (R267). -/
inductive SigSrc where
  | op (t : TileId) (pc : BitVec 11)
  | tileSignal (t : TileId)
  | engine
  | remote (dev : BitVec 16) (port : PortId)
deriving DecidableEq, Repr

/-- What reaches an object (R254, R255, R481). -/
inductive SyncKind where
  | ssig (n : Nat)
  | swait (n : Nat)
  | sread (rd : BitVec 5)
  | sbar (win : BitVec 8)
  | sarr
  | sbwait
  | scfg (v : Word)
  | signal
  | loadArrive
  | updWait (n : Nat)
deriving DecidableEq, Repr

/-- A sync operation or signal in flight, due at its object in region cycle `due`. -/
structure SyncFlight where
  due : Nat
  obj : BitVec 16
  src : SigSrc
  kind : SyncKind
deriving DecidableEq, Repr

/-! ### Region -/

/-- The REGION section and tile map of the frame (01_fabric_and_frame.md R29, R30), with the bytes as loaded. -/
structure RegionCfg where
  col0 : Nat
  ncols : Nat
  row0 : Nat
  nrows : Nat
  floor : Nat
  debug : Bool
  tag : Word
  sync : BitVec 256
  hbm : BitVec 256
  lpddr : BitVec 64
  poolBase : Nat
  poolSize : Nat
  vlane : List Byte
  tileMap : List (BitVec 4)
  raw : List Byte
deriving DecidableEq, Repr

/-- REGION_STATE.STATE (16_regions_and_tenancy.md R402). -/
inductive RState where
  | unconfigured | configured | granting | granted | revoking
deriving DecidableEq, Repr

/-- An event register: SQ bits and EVT_SEQ (17_host_interface.md R432). -/
structure EvtReg where
  bits : BitVec 16
  seq : BitVec 16
deriving DecidableEq, Repr

/-- A fault or hazard record with its sort keys (03_timing_contract.md R106, R107). -/
structure FaultRec where
  cyc : Nat
  tile : Option TileId
  slot : Option Slot
  order : Nat
  code : Byte
  region : RegionId
  pc : BitVec 11
  lap : BitVec 16
  tcyc : DWord
  beat : BitVec 48
  seq : BitVec 16
  detail : DWord
deriving DecidableEq, Repr

/-- What a due mark waits for (09 R241). -/
inductive DueKind where
  | item (id : Nat)
  | code (d : BitVec 6)
  | gate (port : PortId) (rows : Nat)
deriving DecidableEq, Repr

/-- A due mark that was executed and whose item is not yet present (03 R93, R94). -/
structure DueMark where
  tile : TileId
  kind : DueKind
  item : BitVec 16
  cyc : Nat
deriving DecidableEq, Repr

/-- A load descriptor slot (17 R428). -/
structure LoadDesc where
  src : BitVec 48
  col : Nat
  nc : Nat
  row : Nat
  nr : Nat
  block0 : Nat
  nblk : Nat
  obj : BitVec 16
  start : Bool
deriving DecidableEq, Repr

/-- A running load descriptor: the deliveries left, (block, tile) in order, and whether a start is held. -/
structure Loading where
  desc : LoadDesc
  left : List (Nat × TileId)
  again : Bool
deriving DecidableEq, Repr

/-- One row of a compiled send on the mesh (09 R233, 03 R92): sender, row index k, its source row, the data once read,
the destinations still reached, each with the links of its path and their cycles, and the signal. -/
structure Packet where
  src : TileId
  issue : Nat
  k : Nat
  n : Nat
  srcRow : Nat
  readAt : Nat
  data : Option Row
  dests : List (TileId × Nat × List (Nat × Nat × Nat))
  sig : Option (BitVec 16)
  pc : BitVec 11
  junk : Bool
deriving DecidableEq, Repr

/-- A row of a late item that has arrived for a tile and is not yet written (09 R240, 12 R327). -/
structure InRow where
  tile : TileId
  item : BitVec 16
  k : Nat
  data : Row
  sig : Option (BitVec 16)
  decl : Option Nat
  port : PortId
  dev : BitVec 16
deriving DecidableEq, Repr

/-- The exchange window of a region (03 R87 to R89). -/
structure Window where
  open_ : Bool
  e0 : Nat
  xlen : Nat
  /-- The release waiting to open a window: region cycle of the last arrival, window. -/
  next : Option (Nat × BitVec 8)
  /-- A beat boundary at or after L + 48 has passed (CROSS). -/
  beat : Bool
  /-- The windows the arrivals of the exchange barrier name: tile, window, pc of the SBAR. -/
  names : List (TileId × BitVec 8 × BitVec 11)
deriving DecidableEq, Repr

/-- Brake and halt of a region (03 R94 to R106; 18 R458). -/
structure Brake where
  marks : List DueMark
  missing : Bool
  /-- Changes of the missing mark not yet distributed: wall cycle, new value (R94). -/
  flips : List (Nat × Bool)
  frozen : Bool
  /-- Limit-braked (18 R458), and its changes not yet distributed. -/
  braked : Bool
  limitFlips : List (Nat × Bool)
  limited : Bool
  /-- Braked by its duty in this window; braked for whole windows by a boundary over its limit (18 R458, R460). -/
  dutyOn : Bool
  wholeWindow : Bool
  haltAt : Option Nat
  haltFrozen : Bool
  halted : Bool
  limit : BitVec 24
  run : Nat
  count : Word
  beats : Word
  duty : Nat
  overAge : Nat
deriving DecidableEq, Repr

/-- The fault records and the hazard ring of a region (03 R104 to R107; 17 R442). -/
structure Faults where
  recs : List FaultRec
  lost : Word
  seq : BitVec 16
  ring : Tab FaultRec
  hazCount : Word
  head : BitVec 10
  tail : BitVec 10
  /-- Lower-level errors of this cycle, not yet in the ring: they go into it in order when the cycle ends (R104). -/
  fresh : List FaultRec
deriving DecidableEq, Repr

/-- A leaf of the translation cache: virtual page number, address of the leaf entry, and the entry (11 R295). -/
structure TlbEntry where
  vpn : Nat
  at_ : Nat
  leaf : DWord
deriving DecidableEq, Repr

/-- Memory registers of the region window (11 R310; 12 R343). -/
structure MemRegs where
  root : BitVec 40
  walkVa : BitVec 48
  armed : Bool
  ce : Word
  retry : Word
  subflush : Word
  nf : Word
  miss : Word
  rej : Word
  tlb : List TlbEntry
deriving DecidableEq, Repr

/-- The external memories (11 R282 to R309): bytes by device address, pages whose zero mark is clear, poisoned lines,
and the provider's counter of corrected words (R307). A veil is a range whose contents became undefined: first address,
address after the last, and the number of the free value that masks it (log entry 6). -/
structure Mem where
  bytes : Cells 8
  veils : List (Nat × Nat × Nat)
  unmarked : List Nat
  poison : List Nat
  provCe : Word
deriving DecidableEq, Repr

/-- Where the update controller stands (13 R350). -/
inductive UpdPhase where
  | idle | waitStart | running | cut
deriving DecidableEq, Repr

/-- The update units of a region (13 R347 to R359, R367). `blocks` are the 128-byte shard blocks as armed. -/
structure Upd where
  armed : Bool
  blocks : List (BitVec 1024)
  listVa : BitVec 48
  startObj : BitVec 16
  startCount : BitVec 16
  doneObj : BitVec 16
  step : DWord
  phase : UpdPhase
  startMet : Bool
  disarm : Bool
  doneBlocks : Nat
  /-- The external memories as START_OBJ was met: what lands in a gradient buffer later is not for this step (13 R351; 14 R372). -/
  seen : Option Mem
  nf : Word
  clip : Word
  uflow : Word
  nan : Word
  subflush : Word
deriving DecidableEq, Repr

/-- DRL_STATUS.STATE (13 R367). -/
inductive DrlState where
  | idle | running | done | failed
deriving DecidableEq, Repr

/-- The derailleur of a region (13 R361 to R367): the entries of its table, the scratch window, the DONEs that
arrived by (port, round), and whether the round's barrier arrival was made. -/
structure Drl where
  st : DrlState
  round : Nat
  rounds : Nat
  tid : BitVec 16
  obj : BitVec 16
  scrBase : Nat
  scrSize : Nat
  entries : List (BitVec 256)
  dones : List (Nat × Nat)
  arrived : Bool
  /-- The round's barrier was released: the next round begins. -/
  released : Bool
  /-- Beat count at which the round began (R365). -/
  since : Nat
  drop : Word
  fn : Option Fn
deriving DecidableEq, Repr

/-- FW_STATUS.STATE (15 R401). -/
inductive FwState where
  | unconfigured | idle | mirroring | awaiting | remirroring | restoring
deriving DecidableEq, Repr

/-- A rollback or adoption in progress (15 R396, R397, R400): channels not restored, those no reply move has landed for,
those whose DONE has landed, bytes of each still to land, and the beat count at the requests. -/
structure Restore where
  fn : Fn
  target : DWord
  remirror : Bool
  adopt : Bool
  wait : List Nat
  silent : List Nat
  done : List Nat
  left : Tab Nat
  since : Nat
deriving DecidableEq, Repr

/-- The freewheel of a region (15 R381 to R401). `acked` keeps, by 2 channel + bank, the STEP16 of the last mirror
acknowledged for the tandem; `heard` the mirror DONEs that landed: 65,536 (2 channel + bank) + STEP16, and the port. -/
structure Fw where
  conf : Bool
  tandem : BitVec 16
  ports : BitVec 16
  obj : BitVec 16
  share : Nat
  ctxChan : BitVec 6
  ctxOff : Nat
  limit : Nat
  st : FwState
  commitValid : Bool
  mirrorAcked : Bool
  remirror : Bool
  commitStep : DWord
  commitBeat : BitVec 48
  commitLap : BitVec 16
  mirrorEnd : Tab Nat
  mirrorStep : DWord
  wait : List Nat
  startBeat : Option Nat
  stalled : Bool
  acked : Tab Nat
  heard : List (Nat × PortId)
  restore : Option Restore
  /-- Step COMMIT_STEP exists once, until a re-mirror is acknowledged (R400). -/
  sole : Bool
  drop : Word
deriving DecidableEq, Repr

/-- Export to the host (15 R391 to R393, R401). -/
structure Exp where
  fn : Fn
  slot : Nat
  /-- GEN of the handle that holds the ring (17 R430). -/
  gen : BitVec 16
  base : Nat
  size : Nat
  every : Nat
  share : Nat
  mapVa : BitVec 48
  running : Bool
  /-- Committed steps whose exports have not begun, the first first, each with the time of its commit. -/
  want : List (DWord × DWord)
  cur : DWord
  curBeat : DWord
  left : List (Nat × Nat)
  map : List (BitVec 1024)
  step : DWord
  head : Word
  tail : Word
deriving DecidableEq, Repr

/-- A snapshot of an object through one window (10 R270): the record and 32 waiter words. -/
structure VSnap where
  obj : BitVec 16
  rec_ : List Word
  wl : List Word
deriving DecidableEq, Repr

/-- A program load in progress (16 R411, R412): IMAGE_VA, and the image as it was checked, of which the header, the rank table
and the section table are kept. -/
structure ProgLoad where
  fn : Fn
  va : Nat
  image : List Byte
  /-- The region was halted when the load was accepted (R413). -/
  halted : Bool
deriving DecidableEq, Repr

/-- A region. -/
structure Region where
  cfg : Option RegionCfg
  st : RState
  by_ : Option Fn
  epoch : Word
  digest : BitVec 384
  progDigest : BitVec 384
  prog : Bool
  loading : Option ProgLoad
  ranks : List (BitVec 16)
  complete : Bool
  evtVf : EvtReg
  evtPf : EvtReg
  fwVf : EvtReg
  fwPf : EvtReg
  cycle : Nat
  brake : Brake
  faults : Faults
  xwin : Tab Word
  window : Window
  flights : List SyncFlight
  packets : List Packet
  links : Tab Nat
  descs : Tab LoadDesc
  running : Tab Loading
  /-- Starts of load descriptors by CLREQ, one cycle under way: region cycle, tile, slot (09 R230). -/
  starts : List (Nat × TileId × BitVec 6)
  /-- Credits this cycle's bundles return: tile whose bundle it is, sender, channel (10 R275). -/
  credits : List (TileId × TileId × Nat)
  loaded : List Nat
  /-- Region cycle in which a START descriptor ended; its release is under way (02 R80). -/
  startRel : Option Nat
  gateOut : Tab (List (BitVec 128 × Row))
  inRows : List InRow
  mem : MemRegs
  upd : Upd
  drl : Drl
  fw : Fw
  exp : Exp
  vselVf : VSnap
  vselPf : VSnap
  /-- Objects that something has reached in this region cycle, with the wall cycle (10 R254, R257). -/
  touched : List (Nat × Nat)
  /-- Barrier releases whose broadcast is under way: object, region cycle L, tiles (10 R261). -/
  releases : List (BitVec 16 × Nat × List TileId)
deriving DecidableEq, Repr

/-! ### Link ports (12_links_and_cadence.md) -/

/-- Port states (R321). -/
inductive PState where
  | down | training | up | hold | peerWarm | failed
deriving DecidableEq, Repr

/-- A transaction: its 16-byte header and its data bytes (R329). -/
structure Txn where
  hdr : BitVec 128
  data : List Byte
deriving DecidableEq, Repr

/-- Who sends a transaction that waits on a lane: the freewheel or another unit (15 R383). -/
inductive TxnKind where
  | unit | fw
deriving DecidableEq, Repr

/-- One virtual lane of a port: transactions waiting to leave, bytes of the one partly
sent, bytes received, transactions received, 16-byte units sent, freed here, and freed by the peer (R316, R328). -/
structure LaneSt where
  out : List (TxnKind × Txn)
  part : List Byte
  /-- The transaction partly sent is a row of the region's tiles (03 R98). -/
  row : Bool
  rxBytes : List Byte
  rxq : List Txn
  sent : Nat
  freed : BitVec 16
  peerFreed : Nat
  lastCredit : BitVec 16
  turn : Nat
deriving DecidableEq, Repr

/-- A link port. -/
structure Port where
  st : PState
  lanesOk : BitVec 4
  nbrBad : Bool
  evt : EvtReg
  nbrDev : BitVec 16
  nbrX : BitVec 4
  nbrY : BitVec 5
  nbrZ : BitVec 5
  nbrTag : Word
  /-- IDENT of the last hello (R323). -/
  nbrIdent : Bool
  replays : Word
  fecCe : Word
  fecUe : Word
  drop : Word
  slot : Nat
  txSeq : BitVec 12
  rxSeq : BitVec 12
  nak : Bool
  buf : List (BitVec 12 × Flit)
  resend : List (BitVec 12 × Flit)
  nakSeq : Option (BitVec 12)
  nakCount : Nat
  lanes : Tab LaneSt
  lastHello : Nat
  helloDue : Bool
  trainAt : Nat
  replayAt : Option Nat
  /-- The peer's last TX_STAMP, and when it was received on the count of beats, which no load changes, in 1/1,024 bt (R317). -/
  peer : Option (DWord × Nat)
  delays : List Nat
  sentFlit : Flit
  full : Bool
  /-- Flits of the codeword pair being sent, and the symbols of the last pair on each active lane (R312). -/
  txPair : List Flit
  wire : List (List (BitVec 10))
  /-- Place of the next received flit in its codeword pair, and which codewords of the pair are uncorrectable (R312, R313). -/
  rxPos : Nat
  cwBad : BitVec 2
  /-- Uncorrectable codewords of the last 1,024 beats: the beat, and the lanes that took part (R320). -/
  ueLog : List (Nat × BitVec 4)
deriving DecidableEq, Repr

/-! ### Device -/

/-- A retirement entry (01 R19, R20): die, physical column, whether its read-back matched. -/
structure Retired where
  die : Nat
  col : Nat
  ok : Bool
deriving DecidableEq, Repr

/-- The fuse controller (01 R15 to R22, R31, R32). -/
structure Fuses where
  entries : List Retired
  inEffect : Nat
  revoked : BitVec 4
  used : Tab (BitVec 34)
  columns : Nat
  parked : List Nat
  pulse : Option (Fn × Nat)
  revokePulse : Option (Fn × BitVec 2)
deriving DecidableEq, Repr

/-- The loaded whole frame (01 R26, R28, R36, R38). -/
structure FrameSt where
  loaded : Bool
  id : DWord
  tag : Word
  epoch : Word
  portEnable : BitVec 12
  source : BitVec 2
  sourcePort : PortId
  vlShare : List Nat
  store : List (Byte × RegionId × List Byte)
  loading : Option (Fn × Bool × Nat)
deriving DecidableEq, Repr

/-- The mailbox of a function (17 R423, R440) and the command in flight. -/
structure Mailbox where
  args : ArgBlock
  res : BitVec 128
  busy : Bool
  dropped : Bool
  code : Byte
  tag : BitVec 16
  curOp : Byte
  curTag : BitVec 16
  curRegion : RegionId
  curArgs : ArgBlock
  since : Nat
  /-- Wall cycle of the acceptance (10 R257). -/
  wall : Nat
deriving DecidableEq, Repr

/-- A host buffer slot (17 R429). -/
structure Buffer where
  used : Bool
  gen : BitVec 16
  iova : DWord
  len : DWord
deriving DecidableEq, Repr

/-- Latched high halves of one reader (17 R438). -/
structure Latches where
  beatHi : BitVec 16
  lap : BitVec 16
  updHi : Tab Word
  commitHi : Tab Word
  commitBeat : Tab DWord
  expHi : Tab Word
deriving DecidableEq, Repr

/-- The hub: mailboxes, buffers, events, latches, firmware, SR-IOV, outputs. Functions are numbered 0 for the PF,
1 + n for VF n, 65 for the SMBus. -/
structure Hub where
  mail : Tab Mailbox
  bufs : Tab (Tab Buffer)
  evt : EvtReg
  parityLoc : Word
  msix : List (Nat × Nat)
  latches : Tab Latches
  readData : Word
  /-- The last access completed as an unsupported request (17 R421, R422). -/
  ur : Bool
  hostOut : Cells 8
  vfEnable : Bool
  numVfs : Nat
  fwAddr : DWord
  fwLen : BitVec 23
  fwState : BitVec 2
  fwResult : Byte
  smbPtr : BitVec 24
  smbOut : List Byte
  /-- The last SMBus transaction was acknowledged (19 R474). -/
  smbAck : Bool
  jtag : JtagIr
  overAge : Nat
deriving DecidableEq, Repr

/-- Identity of the device (12 R324, R342). -/
structure Identity where
  dev : BitVec 16
  ident : Bool
  x : BitVec 4
  y : BitVec 5
  z : BitVec 5
  xd : BitVec 4
  yd : BitVec 5
  zd : BitVec 5
deriving DecidableEq, Repr

/-- The cadence unit (12 R334 to R342). -/
structure Cadence where
  beat : BitVec 48
  lap : BitVec 16
  locked : Bool
  holdover : Bool
  hops : Byte
  phase : BitVec 16
  evt : EvtReg
  /-- Values set and not loaded, the last one last, each with the beat count at its acceptance (19 R469). -/
  pending : List (BitVec 48 × BitVec 16 × Nat)
  good : Nat
  edges : Nat
  silent : Nat
deriving DecidableEq, Repr

/-- The clock step and the power manager (18 R454 to R464). -/
structure Power where
  cur : BitVec 2
  ceil : BitVec 2
  pend : Option (BitVec 2 × BitVec 48 × BitVec 16)
  change : Option (BitVec 2)
  window : Nat
  skip : Bool
  cap : BitVec 12
  capNext : Option (BitVec 12)
  now : BitVec 12
  temps : List (BitVec 16)
  vcore : List (BitVec 12)
  /-- The setpoints sent to the VCORE regulators, in mV (18 R456, R482). -/
  vset : List (BitVec 12)
  skewVolt : BitVec 3
  skewTemp : BitVec 3
  user : Cells 32
  userNext : Cells 32
  calSel : BitVec 16
  vrBad : BitVec 5
  vrAlert : Bool
  throttled : List Nat
deriving DecidableEq, Repr

/-- The reset sources (18 R443), by cause code. -/
inductive Source where
  | powerOn | coldPin | warmPin | perst | watchdog | cmdCold | cmdWarm | thermal
deriving DecidableEq, Repr

/-- The reset controller (18 R443 to R451, R464; 19 R467). -/
structure Resets where
  pwrgood : Bool
  ready : Bool
  /-- Release steps still to take; the first is the one in progress (R447). -/
  plan : List Nat
  dies : Nat
  warm : Bool
  thermHold : Bool
  thermCool : Bool
  thermPulsed : Bool
  thermtrip : Bool
  source : Option Source
  count : Word
  cause : BitVec 4
  vbkupLost : Bool
  history : Byte
  backupOk : Bool
  /-- Resets commanded by RESET, with the beat count at completion (R451). -/
  cmd : List (Source × Nat)
  /-- Resets and function-level resets that arrived during a fuse pulse (R446). -/
  held : List Source
  heldFlr : List Fn
  blkResult : BitVec 2
  /-- A block reset under way: class, index, whether the unit falls idle in time, beat count at the write (R450). -/
  blk : Option (Nat × Nat × Bool × Nat)
  straps : BitVec 4
deriving DecidableEq, Repr

/-- A unit record (01 R40): owning region and epoch it was configured under, and quarantine. -/
structure UnitRec where
  owner : Option RegionId
  epoch : Word
  quarantined : Bool
deriving DecidableEq, Repr

/-- The machine. -/
structure State where
  pending : List Instr
  wall : Nat
  beats : Nat
  /-- The wall cycle in which the present beat began (00 R8). -/
  beatAt : Nat
  free : Nat
  order : Nat
  tiles : Tab Tile
  undo : Tab Tile
  hw : Tab TileHw
  scrubPass : Nat
  /-- The wall cycle in which step 8 of the reset order released the tiles (02 R74; 18 R447). -/
  tilesAt : Option Nat
  objs : Tab SyncObj
  regions : Tab Region
  ports : Tab Port
  fuses : Fuses
  frame : FrameSt
  units : Tab UnitRec
  hub : Hub
  ident : Identity
  cad : Cadence
  power : Power
  resets : Resets
  mem : Mem
  /-- Where the hidden parity of a configuration register no longer agrees with its contents (17 R435). -/
  parity : List ParityHit
  /-- Locations whose device-scope unit has stopped (17 R436). -/
  stopped : List Word
deriving DecidableEq, Repr

/-! ### Reasons a step can stop -/

/-- Raised by no command of this model: the part's own faults are records in State (03 R105). The constructor stands
for a step the model cannot take; safe. -/
inductive Fault where
  /-- Raised by nobody. Safe. -/
  | none_
deriving DecidableEq, Repr

/-- Refusals. -/
inductive Refusal where
  /-- An arm of exec whose meaning is not written yet raises it, with the row's mnemonic. Safe: the run stops. -/
  | notModelled (mnemonic : String)
deriving DecidableEq, Repr

/-! ### Reset values -/

/-- The core in entry hold (02 R80). -/
def Ctl.reset : Ctl :=
  { g := [], gw := [], p := 0, pw := [], lc := [], loops := [], pc := 0, branch := none, overflow := false, srb := 0,
    srbw := [], fsr := 0, ff := [], cycHi := 0, run := .entryHold, gate := none, bundle := none, next := 0, origin := 0, retain := 0,
    retainLost := 0 }

/-- The array after grant (05 R153; registers without a stated value: log entry 7). -/
def MatSt.reset : MatSt :=
  { acc0 := [], acc1 := [], aud0 := [], aud1 := [], valid := 0, init0 := 0, init1 := 0, md := [], passNo := 0,
    lastOp := none, passes := [], drains := [], lastDrain := none }

/-- 06 R172, R181. -/
def ScaleSlot.reset : ScaleSlot := { ring := [], head := 0, count := 0 }

/-- 06 R181. -/
def Guards.reset : Guards :=
  { clip := 0, uflow := 0, nan := 0, subflush := 0, slots := [], sel := 0, seed := 0, audMax := 0, audSum := 0,
    audN := 0, audLast := 0, audNf := 0, audCol := 0, thClip := 0xFFFFFFFF, thUflow := 0xFFFFFFFF,
    thNan := 0xFFFFFFFF, thSubflush := 0xFFFFFFFF, thAudMax := 0x7F800000, thAudMean := 0x7F800000 }

/-- 07 R214, 08 R222. -/
def VecSt.reset : VecSt :=
  { vd := [], vj := [], progs := [], sum := [], vfsr := 0, mode := none, pending := none, jobs := [], asyncs := [],
    ended := [], recording := [], key := 0, pos := 0, tsid := 0, posHi := 0 }

/-- 09 R248, R249. -/
def Exch.reset : Exch :=
  { xr := [], xv := [], win := 0, nextWin := 0, sendFree := 0, gates := [], moves := [], armed := [], decls := [],
    reserved := [], leads := [] }

/-- 10 R280, R281. -/
def Chan.reset : Chan :=
  { st := .closed, credits := 0, dst := 0, port := 0, flight := [], marker := false, back := 0, pc := 0 }

/-- 10 R281. -/
def RxPort.reset : RxPort := { bound := none, buf := [] }

/-- A tile in entry hold after a grant. -/
def Tile.reset : Tile :=
  { ctl := .reset, tm := [], upsets := [], poison := [], written := [], uses := [], reqs := [], expect := [], pm := [], pmUpsets := [], sb := [],
    matrix := .reset, guards := .reset, vec := .reset, exch := .reset, dr := [], dmas := [], chans := [], ports := [],
    cqrows := [], split := none, mark := [], markDone := (0, 0, 0, 0), ops := 0 }

/-- 02 R61. -/
def TileHw.reset : TileHw :=
  { tmCe := 0, pmCe := 0, tmUe := 0, late := 0, wb := none, pass := 0, behind := [], window := 0, had := 0 }

/-- 10 R268. -/
def SyncObj.reset : SyncObj :=
  { bar := false, xch := false, sense := false, up := false, value := 0, pcount := 0, gen := 0, waiters := [],
    last := 0, lbeat := 0, parEn := false, parentPort := 0, parentDev := 0, parentObj := 0,
    children := [] }

/-- 17 R432. -/
def EvtReg.reset : EvtReg := { bits := 0, seq := 0 }

/-- 03 R100: BRAKE_LIMIT is 125,000 beats. -/
def Brake.reset : Brake :=
  { marks := [], missing := false, flips := [], frozen := false, braked := false, limitFlips := [], limited := false,
    dutyOn := false, wholeWindow := false, haltAt := none, haltFrozen := false, halted := false, limit := 0x01E848, run := 0, count := 0,
    beats := 0, duty := 0, overAge := 1024 }

/-- 17 R442. -/
def Faults.reset : Faults :=
  { recs := [], lost := 0, seq := 0, ring := [], hazCount := 0, head := 0, tail := 0, fresh := [] }

/-- 11 R310, 12 R343. -/
def MemRegs.reset : MemRegs :=
  { root := 0, walkVa := 0, armed := true, ce := 0, retry := 0, subflush := 0, nf := 0, miss := 0, rej := 0, tlb := [] }

/-- 13 R367. -/
def Upd.reset : Upd :=
  { armed := false, blocks := [], listVa := 0, startObj := 0, startCount := 0, doneObj := 0, step := 0, phase := .idle,
    startMet := false, disarm := false, doneBlocks := 0, seen := none, nf := 0, clip := 0, uflow := 0, nan := 0, subflush := 0 }

/-- 13 R367. -/
def Drl.reset : Drl :=
  { st := .idle, round := 0, rounds := 0, tid := 0, obj := 0, scrBase := 0, scrSize := 0, entries := [], dones := [],
    arrived := false, released := false, since := 0, drop := 0, fn := none }

/-- 15 R401. -/
def Fw.reset : Fw :=
  { conf := false, tandem := 0, ports := 0, obj := 0, share := 0, ctxChan := 0, ctxOff := 0, limit := 0,
    st := .unconfigured, commitValid := false, mirrorAcked := false, remirror := false, commitStep := 0,
    commitBeat := 0, commitLap := 0, mirrorEnd := [], mirrorStep := 0, wait := [], startBeat := none, stalled := false,
    acked := [], heard := [], restore := none, sole := false, drop := 0 }

/-- 15 R401. -/
def Exp.reset : Exp :=
  { fn := .pf, slot := 0, gen := 0, base := 0, size := 0, every := 0, share := 0, mapVa := 0, running := false, want := [],
    cur := 0, curBeat := 0, left := [], map := [], step := 0, head := 0, tail := 0 }

/-- 10 R270. -/
def VSnap.reset : VSnap := { obj := 0, rec_ := [], wl := [] }

/-- 03 R88. -/
def Window.reset : Window := { open_ := false, e0 := 0, xlen := 0, next := none, beat := false, names := [] }

/-- An unconfigured region (16 R402, R418). -/
def Region.reset : Region :=
  { cfg := none, st := .unconfigured, by_ := none, epoch := 0, digest := 0, progDigest := 0, prog := false,
    loading := none, ranks := [], complete := false, evtVf := .reset, evtPf := .reset, fwVf := .reset, fwPf := .reset,
    cycle := 0, brake := .reset, faults := .reset, xwin := [], window := .reset, flights := [],
    packets := [], links := [], descs := [], running := [], starts := [], credits := [], loaded := [], startRel := none, gateOut := [], inRows := [], mem := .reset,
    upd := .reset, drl := .reset, fw := .reset, exp := .reset, vselVf := .reset, vselPf := .reset, touched := [], releases := [] }

/-- 12 R328, R341. -/
def LaneSt.reset : LaneSt :=
  { out := [], part := [], row := false, rxBytes := [], rxq := [], sent := 0, freed := 0, peerFreed := 0, lastCredit := 0, turn := 0 }

/-- 12 R321, R341. -/
def Port.reset : Port :=
  { st := .down, lanesOk := 0, nbrBad := false, evt := .reset, nbrDev := 0xFFFF, nbrX := 0, nbrY := 0, nbrZ := 0,
    nbrTag := 0, nbrIdent := false, replays := 0, fecCe := 0, fecUe := 0, drop := 0, slot := 0, txSeq := 0, rxSeq := 0, nak := false,
    buf := [], resend := [], nakSeq := none, nakCount := 0, lanes := [], lastHello := 0, helloDue := false,
    trainAt := 0, replayAt := none, peer := none, delays := [], sentFlit := 0, full := false, txPair := [], wire := [],
    rxPos := 0, cwBad := 0, ueLog := [] }

/-- The columns of die `d` in use at a power-up: kept at factory test and not retired (01 R16, R18). -/
def Fuses.usedOf (entries : List Retired) (d : Nat) : BitVec 34 :=
  entries.foldl (fun m e => if e.ok && e.die == d then m &&& ~~~(1#34 <<< e.col) else m) (Config.factoryColumns d)

/-- Ones in the low `n` bits of `x`. -/
def popCount (x : Nat) : Nat → Nat
  | 0 => 0
  | n + 1 => popCount x n + (x >>> n) % 2

/-- The fuse registers as the part leaves factory: nothing retired, nothing revoked (01 R18, R22). -/
def Fuses.reset : Fuses :=
  { entries := [], inEffect := 0, revoked := 0,
    used := [(0, Config.factoryColumns 0), (1, Config.factoryColumns 1), (2, Config.factoryColumns 2),
             (3, Config.factoryColumns 3)],
    columns := popCount (Config.factoryColumns 0).toNat 34 + popCount (Config.factoryColumns 1).toNat 34
      + popCount (Config.factoryColumns 2).toNat 34 + popCount (Config.factoryColumns 3).toNat 34,
    parked := [], pulse := none, revokePulse := none }

/-- 17 R440. -/
def FrameSt.reset : FrameSt :=
  { loaded := false, id := 0, tag := 0, epoch := 0, portEnable := 0, source := 0, sourcePort := 0, vlShare := [],
    store := [], loading := none }

/-- 17 R440. -/
def Mailbox.reset : Mailbox :=
  { args := 0, res := 0, busy := false, dropped := false, code := 0, tag := 0, curOp := 0, curTag := 0, curRegion := 0,
    curArgs := 0, since := 0, wall := 0 }

/-- 17 R429; the first generation is log entry 7. -/
def Buffer.reset : Buffer := { used := false, gen := 0, iova := 0, len := 0 }

/-- 17 R438. -/
def Latches.reset : Latches :=
  { beatHi := 0, lap := 0, updHi := [], commitHi := [], commitBeat := [], expHi := [] }

/-- 17 R440, 18 R464; log entry 7 for what has no stated value. The host's SR-IOV settings are log entry 16. -/
def Hub.reset : Hub :=
  { mail := [], bufs := [], evt := .reset, parityLoc := 0, msix := [], latches := [], readData := 0, ur := false, hostOut := [],
    vfEnable := true, numVfs := 64, fwAddr := 0, fwLen := 0, fwState := 0, fwResult := 0, smbPtr := 0, smbOut := [], smbAck := false,
    jtag := .idcode, overAge := 1024 }

/-- 12 R324, R342. -/
def Identity.reset : Identity :=
  { dev := 0xFFFF, ident := false, x := 0, y := 0, z := 0, xd := 0, yd := 0, zd := 0 }

/-- 12 R342. -/
def Cadence.reset : Cadence :=
  { beat := 0, lap := 0, locked := false, holdover := false, hops := 0, phase := 0, evt := .reset, pending := [],
    good := 0, edges := 0, silent := 0 }

/-- 18 R464. -/
def Power.reset : Power :=
  { cur := 0, ceil := 0, pend := none, change := none, window := 0, skip := false, cap := 1900, capNext := none,
    now := 0, temps := [0, 0, 0, 0, 0], vcore := [0, 0, 0, 0], vset := [750, 750, 750, 750], skewVolt := 0, skewTemp := 0, user := [],
    userNext := [], calSel := 0, vrBad := 0, vrAlert := false, throttled := [] }

/-- 18 R464: the part before PWRGOOD rises (log entry 3). -/
def Resets.reset : Resets :=
  { pwrgood := false, ready := false, plan := [], dies := 0, warm := false, thermHold := false,
    thermCool := false, thermPulsed := false, thermtrip := false, source := none, count := 0, cause := 0, vbkupLost := false, history := 0,
    backupOk := false, cmd := [], held := [], heldFlr := [], blkResult := 0, blk := none, straps := 0 }

/-- Every page marked, nothing poisoned (11 R306). -/
def Mem.reset : Mem := { bytes := [], veils := [], unmarked := [], poison := [], provCe := 0 }

/-- 01 R40. -/
def UnitRec.reset : UnitRec := { owner := none, epoch := 0, quarantined := false }

/-- The machine right after reset: every register at the value of its table's Reset column, the supplies not yet good,
no command waiting (log entry 3). -/
def State.reset : State :=
  { pending := [], wall := 0, beats := 0, beatAt := 0, free := 0, order := 0, tiles := [], undo := [], hw := [], scrubPass := 0, tilesAt := none, objs := [],
    regions := [], ports := [], fuses := .reset, frame := .reset, units := [], hub := .reset, ident := .reset,
    cad := .reset, power := .reset, resets := .reset, mem := .reset, parity := [], stopped := [] }

end Sys2Proof.Machine
end

