-- ==== Sys2Proof/Machine/Table.lean ====
section
/-!
DEFINITION. Sys2Proof/Machine/Table.lean: the two kinds of storage: `Cells` (bit vectors by number, 0 where nothing is
listed) and `Tab` (anything by number), their reads, writes and well-formedness; and sets of numbers as rising lists.
-/
namespace Sys2Proof.Machine

/-- Entries rise strictly from `lo` on and none is zero. -/
def Cells.risingFrom {w : Nat} : Nat → Cells w → Bool
  | _, [] => true
  | lo, (k, v) :: r => decide (lo ≤ k) && decide (v ≠ 0) && Cells.risingFrom (k + 1) r

/-- The canonical form: numbers strictly rising, no zero listed. -/
def Cells.wf {w : Nat} (m : Cells w) : Bool := Cells.risingFrom 0 m

/-- The cell numbered `k`. -/
def Cells.get {w : Nat} : Cells w → Nat → BitVec w
  | [], _ => 0
  | (a, b) :: r, k => if k < a then 0 else if k = a then b else Cells.get r k

/-- `m` with cell `k` holding `v`; writing zero removes the entry. -/
def Cells.put {w : Nat} (m : Cells w) (k : Nat) (v : BitVec w) : Cells w :=
  match m with
  | [] => if v = 0 then [] else [(k, v)]
  | (a, b) :: r =>
    if k < a then (if v = 0 then (a, b) :: r else (k, v) :: (a, b) :: r)
    else if k = a then (if v = 0 then r else (k, v) :: r)
    else (a, b) :: Cells.put r k v

/-- Write the cells `k`, `k + 1`, … in order. -/
def Cells.putList {w : Nat} (m : Cells w) (k : Nat) : List (BitVec w) → Cells w
  | [] => m
  | v :: r => Cells.putList (Cells.put m k v) (k + 1) r

/-- The `n` cells from `k` on. -/
def Cells.getList {w : Nat} (m : Cells w) (k : Nat) : Nat → List (BitVec w)
  | 0 => []
  | n + 1 => Cells.get m k :: Cells.getList m (k + 1) n

/-- Clear every cell whose number satisfies `p`. -/
def Cells.clear {w : Nat} (m : Cells w) (p : Nat → Bool) : Cells w := m.filter (fun c => !p c.1)

/-- What number `k` stands for, `d` where nothing is listed. -/
def Tab.get {α : Type} (d : α) : Tab α → Nat → α
  | [], _ => d
  | (a, b) :: r, k => if k < a then d else if k = a then b else Tab.get d r k

/-- What is listed under `k`, if anything is. -/
def Tab.find {α : Type} : Tab α → Nat → Option α
  | [], _ => none
  | (a, b) :: r, k => if k < a then none else if k = a then some b else Tab.find r k

/-- `m` with `v` under `k`. -/
def Tab.put {α : Type} (m : Tab α) (k : Nat) (v : α) : Tab α :=
  match m with
  | [] => [(k, v)]
  | (a, b) :: r =>
    if k < a then (k, v) :: (a, b) :: r
    else if k = a then (k, v) :: r
    else (a, b) :: Tab.put r k v

/-- `m` without the numbers that satisfy `p`. -/
def Tab.drop {α : Type} (m : Tab α) (p : Nat → Bool) : Tab α := m.filter (fun c => !p c.1)

/-- `m` with `f` applied to every listed value. -/
def Tab.mapVals {α β : Type} (f : Nat → α → β) (m : Tab α) : Tab β := m.map (fun c => (c.1, f c.1 c.2))

/-- `k` added to a set held as a strictly rising list. -/
def addNat (k : Nat) : List Nat → List Nat
  | [] => [k]
  | a :: r => if k < a then k :: a :: r else if k = a then a :: r else a :: addNat k r

/-- The list rises strictly from `lo` on. -/
def risesFrom : Nat → List Nat → Bool
  | _, [] => true
  | lo, k :: r => decide (lo ≤ k) && risesFrom (k + 1) r

/-- Bytes as one number, the first byte lowest. -/
def leNat : List Byte → Nat
  | [] => 0
  | b :: r => b.toNat + 256 * leNat r

/-- The low `n` bytes of a number, the lowest first. -/
def leBytes : Nat → Nat → List Byte
  | 0, _ => []
  | n + 1, x => BitVec.ofNat 8 x :: leBytes n (x / 256)

/-- `n` bytes of a byte string from offset `o`, as a number; bytes beyond its end read 0. -/
def leAt (b : List Byte) (o n : Nat) : Nat := leNat ((b.drop o).take n)

end Sys2Proof.Machine
end

