-- ==== Sys2Proof/Machine/Crypto.lean ====
section
/-!
DEFINITION. Sys2Proof/Machine/Crypto.lean: the checks of images and flits: CRC-32C (12_links_and_cadence.md R315), SHA-384
and ECDSA P-384 (01_fabric_and_frame.md R31), which the spec names by their standards (FIPS 180-4, FIPS 186; log entry 10).
-/
namespace Sys2Proof.Machine
open Sys2Proof

/-! ### CRC-32C -/

/-- `n` bits of the reflected polynomial 0x1EDC_6F41. -/
def crcBits : Nat → Nat → Nat
  | 0, c => c
  | n + 1, c => crcBits n (if c % 2 = 1 then (c >>> 1) ^^^ 0x82F63B78 else c >>> 1)

/-- The CRC of a byte string (R315). -/
def crc32c (b : List Byte) : Nat := (b.foldl (fun c x => crcBits 8 (c ^^^ x.toNat)) 0xFFFFFFFF) ^^^ 0xFFFFFFFF

/-! ### SHA-384 -/

/-- Round constants 0 to 15. -/
def shaK0 : List Nat :=
  [0x428A2F98D728AE22, 0x7137449123EF65CD, 0xB5C0FBCFEC4D3B2F, 0xE9B5DBA58189DBBC,
   0x3956C25BF348B538, 0x59F111F1B605D019, 0x923F82A4AF194F9B, 0xAB1C5ED5DA6D8118,
   0xD807AA98A3030242, 0x12835B0145706FBE, 0x243185BE4EE4B28C, 0x550C7DC3D5FFB4E2,
   0x72BE5D74F27B896F, 0x80DEB1FE3B1696B1, 0x9BDC06A725C71235, 0xC19BF174CF692694]

/-- Round constants 16 to 31. -/
def shaK1 : List Nat :=
  [0xE49B69C19EF14AD2, 0xEFBE4786384F25E3, 0x0FC19DC68B8CD5B5, 0x240CA1CC77AC9C65,
   0x2DE92C6F592B0275, 0x4A7484AA6EA6E483, 0x5CB0A9DCBD41FBD4, 0x76F988DA831153B5,
   0x983E5152EE66DFAB, 0xA831C66D2DB43210, 0xB00327C898FB213F, 0xBF597FC7BEEF0EE4,
   0xC6E00BF33DA88FC2, 0xD5A79147930AA725, 0x06CA6351E003826F, 0x142929670A0E6E70]

/-- Round constants 32 to 47. -/
def shaK2 : List Nat :=
  [0x27B70A8546D22FFC, 0x2E1B21385C26C926, 0x4D2C6DFC5AC42AED, 0x53380D139D95B3DF,
   0x650A73548BAF63DE, 0x766A0ABB3C77B2A8, 0x81C2C92E47EDAEE6, 0x92722C851482353B,
   0xA2BFE8A14CF10364, 0xA81A664BBC423001, 0xC24B8B70D0F89791, 0xC76C51A30654BE30,
   0xD192E819D6EF5218, 0xD69906245565A910, 0xF40E35855771202A, 0x106AA07032BBD1B8]

/-- Round constants 48 to 63. -/
def shaK3 : List Nat :=
  [0x19A4C116B8D2D0C8, 0x1E376C085141AB53, 0x2748774CDF8EEB99, 0x34B0BCB5E19B48A8,
   0x391C0CB3C5C95A63, 0x4ED8AA4AE3418ACB, 0x5B9CCA4F7763E373, 0x682E6FF3D6B2B8A3,
   0x748F82EE5DEFB2FC, 0x78A5636F43172F60, 0x84C87814A1F0AB72, 0x8CC702081A6439EC,
   0x90BEFFFA23631E28, 0xA4506CEBDE82BDE9, 0xBEF9A3F7B2C67915, 0xC67178F2E372532B]

/-- Round constants 64 to 79. -/
def shaK4 : List Nat :=
  [0xCA273ECEEA26619C, 0xD186B8C721C0C207, 0xEADA7DD6CDE0EB1E, 0xF57D4F7FEE6ED178,
   0x06F067AA72176FBA, 0x0A637DC5A2C898A6, 0x113F9804BEF90DAE, 0x1B710B35131C471B,
   0x28DB77F523047D84, 0x32CAAB7B40C72493, 0x3C9EBE0A15C9BEBC, 0x431D67C49C100D4C,
   0x4CC5D4BECB3E42B6, 0x597F299CFC657E2A, 0x5FCB6FAB3AD6FAEC, 0x6C44198C4A475817]

/-- Initial hash value of SHA-384. -/
def shaInit : List Nat :=
  [0xCBBB9D5DC1059ED8, 0x629A292A367CD507, 0x9159015A3070DD17, 0x152FECD8F70E5939,
   0x67332667FFC00B31, 0x8EB44A8768581511, 0xDB0C2E0D64F98FA7, 0x47B5481DBEFA4FA4]

/-- The 80 round constants. -/
def shaK : List Nat := shaK0 ++ shaK1 ++ shaK2 ++ shaK3 ++ shaK4

/-- A 64-bit word rotated right. -/
def rotr64 (x n : Nat) : Nat := (x >>> n) ||| ((x <<< (64 - n)) % 2 ^ 64)

/-- Bytes as one number, the first byte highest. -/
def beNat (b : List Byte) : Nat := b.foldl (fun a x => a * 256 + x.toNat) 0

/-- The message words behind the last 16, `n` of them; the list holds the latest first. -/
def shaExpand : Nat → List Nat → List Nat
  | 0, w => w
  | n + 1, w =>
    let a := w.getD 14 0
    let b := w.getD 1 0
    let s0 := (rotr64 a 1 ^^^ rotr64 a 8) ^^^ (a >>> 7)
    let s1 := (rotr64 b 19 ^^^ rotr64 b 61) ^^^ (b >>> 6)
    shaExpand n ((w.getD 15 0 + s0 + w.getD 6 0 + s1) % 2 ^ 64 :: w)

/-- One round: the eight working variables, a first. -/
def shaRound (v : List Nat) (kw : Nat) : List Nat :=
  let a := v.getD 0 0
  let b := v.getD 1 0
  let c := v.getD 2 0
  let e := v.getD 4 0
  let f := v.getD 5 0
  let g := v.getD 6 0
  let t1 := v.getD 7 0 + ((rotr64 e 14 ^^^ rotr64 e 18) ^^^ rotr64 e 41) + ((e &&& f) ^^^ ((e ^^^ (2 ^ 64 - 1)) &&& g)) + kw
  let t2 := ((rotr64 a 28 ^^^ rotr64 a 34) ^^^ rotr64 a 39) + (((a &&& b) ^^^ (a &&& c)) ^^^ (b &&& c))
  [(t1 + t2) % 2 ^ 64, a, b, c, (v.getD 3 0 + t1) % 2 ^ 64, e, f, g]

/-- One block of 128 bytes. -/
def shaBlock (h : List Nat) (b : List Byte) : List Nat :=
  let first := (List.range 16).map (fun k => beNat ((b.drop (8 * k)).take 8))
  let w := (shaExpand 64 first.reverse).reverse
  let v := (shaK.zip w).foldl (fun v q => shaRound v (q.1 + q.2)) h
  (h.zip v).map (fun q => (q.1 + q.2) % 2 ^ 64)

/-- `n` blocks. -/
def shaBlocks : Nat → List Nat → List Byte → List Nat
  | 0, h, _ => h
  | n + 1, h, b => shaBlocks n (shaBlock h (b.take 128)) (b.drop 128)

/-- The message with its padding. -/
def shaPad (b : List Byte) : List Byte :=
  let z := (111 + 128 - b.length % 128) % 128
  b ++ [0x80] ++ List.replicate (z + 8) 0 ++ (leBytes 8 (8 * b.length)).reverse

/-- SHA-384, 48 bytes. -/
def sha384 (b : List Byte) : List Byte :=
  let p := shaPad b
  ((shaBlocks (p.length / 128) shaInit p).take 6).flatMap (fun w => (leBytes 8 w).reverse)

/-! ### ECDSA P-384 -/

/-- The field prime. -/
def pPrime : Nat := 2 ^ 384 - 2 ^ 128 - 2 ^ 96 + 2 ^ 32 - 1
/-- The order of the base point. -/
def pOrder : Nat :=
  0xFFFFFFFFFFFFFFFFFFFFFFFFFFFFFFFFFFFFFFFFFFFFFFFFC7634D81F4372DDF581A0DB248B0A77AECEC196ACCC52973
/-- The coefficient b; a is -3. -/
def pB : Nat :=
  0xB3312FA7E23EE7E4988E056BE3F82D19181D9C6EFE8141120314088F5013875AC656398D8A2ED19D2A85C8EDD3EC2AEF
/-- The base point. -/
def pGx : Nat :=
  0xAA87CA22BE8B05378EB1C71EF320AD746E1D3B628BA79B9859F741E082542A385502F25DBF55296C3A545E3872760AB7
/-- The base point. -/
def pGy : Nat :=
  0x3617DE4A96262C6F5D9E98BF9292DC29F8F41DBD289A147CE9DA3113B5F0B8C00A60B1CE1D7E819D7A431D7C90EA0E5F

/-- A power modulo `m`, bit by bit from bit `n - 1` of `e`. -/
def powMod (b e m : Nat) : Nat → Nat → Nat
  | 0, acc => acc
  | n + 1, acc => powMod b e m n (if (e >>> n) % 2 = 1 then acc * acc % m * b % m else acc * acc % m)

/-- The inverse modulo a prime below 2^384. -/
def invMod (x m : Nat) : Nat := powMod (x % m) (m - 2) m 384 1

/-- A difference modulo the field prime of two reduced values. -/
def fsub (a b : Nat) : Nat := (a + pPrime - b) % pPrime

/-- A point in Jacobian coordinates; z = 0 is the point at infinity. -/
abbrev Jac := Nat × Nat × Nat

/-- Twice a point. -/
def jdouble (q : Jac) : Jac :=
  let p := pPrime
  let x := q.1
  let y := q.2.1
  let z := q.2.2
  let zz := z * z % p
  let yy := y * y % p
  let m := 3 * (fsub x zz * ((x + zz) % p) % p) % p
  let sv := 4 * (x * yy % p) % p
  let x3 := fsub (m * m % p) (2 * sv % p)
  (x3, fsub (m * fsub sv x3 % p) (8 * (yy * yy % p) % p), 2 * (y * z % p) % p)

/-- The sum of two points. -/
def jadd (a b : Jac) : Jac :=
  let p := pPrime
  if a.2.2 = 0 then b
  else if b.2.2 = 0 then a
  else
    let za := a.2.2 * a.2.2 % p
    let zb := b.2.2 * b.2.2 % p
    let u1 := a.1 * zb % p
    let u2 := b.1 * za % p
    let s1 := a.2.1 * (zb * b.2.2 % p) % p
    let s2 := b.2.1 * (za * a.2.2 % p) % p
    if u1 = u2 then (if s1 = s2 then jdouble a else (1, 1, 0))
    else
      let h := fsub u2 u1
      let r := fsub s2 s1
      let hh := h * h % p
      let hhh := hh * h % p
      let v := u1 * hh % p
      let x3 := fsub (fsub (r * r % p) hhh) (2 * v % p)
      (x3, fsub (r * fsub v x3 % p) (s1 * hhh % p), h * (a.2.2 * b.2.2 % p) % p)

/-- `u1` times the base point plus `u2` times `q`, bit by bit from bit `n - 1`. -/
def jmul2 (u1 u2 : Nat) (q : Jac) : Nat → Jac → Jac
  | 0, acc => acc
  | n + 1, acc =>
    let acc := jdouble acc
    let acc := if (u1 >>> n) % 2 = 1 then jadd acc (pGx, pGy, 1) else acc
    jmul2 u1 u2 q n (if (u2 >>> n) % 2 = 1 then jadd acc q else acc)

/-- The signature (r, s) verifies over the hash `z` under the public key (x, y). -/
def ecdsaVerify (x y r s z : Nat) : Bool :=
  let p := pPrime
  let n := pOrder
  if x ≥ p ∨ y ≥ p ∨ (y * y) % p ≠ (x * x % p * x + (p - 3) * x + pB) % p ∨ r = 0 ∨ s = 0 ∨ r ≥ n ∨ s ≥ n then false
  else
    let w := invMod s n
    let q := jmul2 (z * w % n) (r * w % n) (x, y, 1) 384 (1, 1, 0)
    if q.2.2 = 0 then false
    else
      let zi := invMod q.2.2 p
      (q.1 * (zi * zi % p) % p) % n == r

/-- Signature block (R31): key X and Y, then r and s, 48 bytes each, the highest byte first; and the hash of the key. -/
def signedBy (image : List Byte) (keyHash : BitVec 384) : Bool :=
  let body := image.take (image.length - 192)
  let sig := image.drop (image.length - 192)
  let at_ (k : Nat) : Nat := beNat ((sig.drop (48 * k)).take 48)
  leNat (sha384 (sig.take 96)) == keyHash.toNat
  && ecdsaVerify (at_ 0) (at_ 1) (at_ 2) (at_ 3) (beNat (sha384 body))

end Sys2Proof.Machine
end

