-- ==== Sys2Proof/Machine/Numbers.lean ====
section
/-!
DEFINITION. Sys2Proof/Machine/Numbers.lean: exact binary arithmetic and rounding, the formats of
04_number_formats.md R110 to R113, and their decoding and encoding.
-/
namespace Sys2Proof.Machine

/-- The eight element formats (R110). -/
inductive Format where
  | fp64 | fp32 | bf16 | fp16 | e4m3 | e5m2 | e2m1 | t2
deriving DecidableEq, Repr

namespace Format

/-- The format a 4-bit code names; E8M0 and the reserved codes name none (R110). -/
def ofCode : Nat → Option Format
  | 0 => some fp64
  | 1 => some fp32
  | 2 => some bf16
  | 3 => some fp16
  | 4 => some e4m3
  | 5 => some e5m2
  | 6 => some e2m1
  | 7 => some t2
  | _ => none

/-- Bits of an element (R110). -/
def width : Format → Nat
  | fp64 => 64 | fp32 => 32 | bf16 => 16 | fp16 => 16 | e4m3 => 8 | e5m2 => 8 | e2m1 => 4 | t2 => 2

/-- Exponent bits (R111). -/
def ebits : Format → Nat
  | fp64 => 11 | fp32 => 8 | bf16 => 8 | fp16 => 5 | e4m3 => 4 | e5m2 => 5 | e2m1 => 2 | t2 => 0

/-- Mantissa bits (R111). -/
def mbits : Format → Nat
  | fp64 => 52 | fp32 => 23 | bf16 => 7 | fp16 => 10 | e4m3 => 3 | e5m2 => 2 | e2m1 => 1 | t2 => 0

/-- Bias (R111). T2 spaces its values by 1. -/
def bias : Format → Nat
  | fp64 => 1023 | fp32 => 127 | bf16 => 127 | fp16 => 15 | e4m3 => 7 | e5m2 => 15 | e2m1 => 1 | t2 => 1

/-- Largest exponent, as R111 and R121 give it. -/
def emax : Format → Int
  | fp64 => 1023 | fp32 => 127 | bf16 => 127 | fp16 => 15 | e4m3 => 8 | e5m2 => 15 | e2m1 => 2 | t2 => 0

/-- The format has infinities (R111). -/
def hasInf : Format → Bool
  | e4m3 => false | e2m1 => false | t2 => false | _ => true

/-- The format has NaN (R111). -/
def hasNan : Format → Bool
  | e2m1 => false | t2 => false | _ => true

/-- Scaled formats (R123). -/
def scaled : Format → Bool
  | e4m3 => true | e5m2 => true | e2m1 => true | t2 => true | _ => false

/-- Exponent of the smallest normal number. -/
def eminN (f : Format) : Int := 1 - (f.bias : Int)

/-- Exponent of the smallest spacing. -/
def qmin (f : Format) : Int := f.eminN - (f.mbits : Int)

/-- Mantissa and exponent of the largest finite magnitude (R111). -/
def maxfin : Format → Nat × Int
  | fp64 => (2 ^ 53 - 1, 971)
  | fp32 => (2 ^ 24 - 1, 104)
  | bf16 => (2 ^ 8 - 1, 120)
  | fp16 => (2 ^ 11 - 1, 5)
  | e4m3 => (7, 6)
  | e5m2 => (7, 13)
  | e2m1 => (3, 1)
  | t2 => (1, 0)

end Format

/-- A decoded number: NaN, an infinity, or the exact value ± m 2^e (m = 0: a signed zero). -/
inductive Num where
  | nan
  | inf (neg : Bool)
  | fin (neg : Bool) (m : Nat) (e : Int)
deriving DecidableEq, Repr

/-- Number of bits of `m`: 0 for 0. -/
def bitLen (m : Nat) : Nat := if m = 0 then 0 else Nat.log2 m + 1

/-- Is m1 2^e1 at most m2 2^e2? -/
def magLe (m1 : Nat) (e1 : Int) (m2 : Nat) (e2 : Int) : Bool :=
  if e1 ≤ e2 then decide (m1 ≤ m2 <<< (e2 - e1).toNat) else decide (m1 <<< (e1 - e2).toNat ≤ m2)

/-- An exact signed sum term: the value n 2^e. -/
structure Dy where
  n : Int
  e : Int
deriving DecidableEq, Repr

namespace Dy

/-- Exact zero. -/
def zero : Dy := { n := 0, e := 0 }

/-- Exact sum. -/
def add (a b : Dy) : Dy :=
  if a.n = 0 then b else if b.n = 0 then a
  else if a.e ≤ b.e then { n := a.n + b.n * ((2 ^ (b.e - a.e).toNat : Nat) : Int), e := a.e }
  else { n := a.n * ((2 ^ (a.e - b.e).toNat : Nat) : Int) + b.n, e := b.e }

/-- Negation. -/
def neg (a : Dy) : Dy := { n := -a.n, e := a.e }

/-- Exact product. -/
def mul (a b : Dy) : Dy := { n := a.n * b.n, e := a.e + b.e }

/-- The exact value of a finite number. -/
def ofFin (neg : Bool) (m : Nat) (e : Int) : Dy := { n := if neg then -(m : Int) else (m : Int), e := e }

/-- As a number; an exact zero is +0. -/
def toNum (a : Dy) : Num := .fin (decide (a.n < 0)) a.n.natAbs a.e

/-- a < b. -/
def lt (a b : Dy) : Bool := decide ((a.add b.neg).n < 0)

end Dy

/-- The finite value of a number, if it has one. -/
def Num.dy? : Num → Option Dy
  | .fin s m e => some (Dy.ofFin s m e)
  | _ => none

/-- Rounding directions of a magnitude. -/
inductive Dir where
  | nearest | toZero | away | stoch (r : Nat)
deriving DecidableEq, Repr

/-- The magnitude m 2^e rounded to `p` bits with spacing no finer than 2^q: the multiple, its exponent, and whether it
differs (R125, R126). -/
def roundMag (p : Nat) (q : Option Int) (d : Dir) (m : Nat) (e : Int) : Nat × Int × Bool :=
  let u0 : Int := e + (bitLen m : Int) - (p : Int)
  let u : Int := match q with
    | none => u0
    | some qm => if u0 < qm then qm else u0
  if u ≤ e then (m <<< (e - u).toNat, u, false)
  else
    let s := (u - e).toNat
    let n := m >>> s
    let rem := m % 2 ^ s
    let up : Nat := match d with
      | .nearest => if 2 * rem > 2 ^ s then 1 else if 2 * rem = 2 ^ s then n % 2 else 0
      | .toZero => 0
      | .away => if rem = 0 then 0 else 1
      | .stoch r => (((rem <<< 16) >>> s) + r) >>> 16
    (n + up, u, rem != 0)

/-- Decode an element (R111, R113, R114). The T2 clip marker decodes as zero. -/
def decode (f : Format) (x : Nat) : Num :=
  match f with
  | .t2 => if x % 4 = 1 then .fin false 1 0 else if x % 4 = 3 then .fin true 1 0 else .fin false 0 0
  | f =>
    let man := x % 2 ^ f.mbits
    let ex := (x >>> f.mbits) % 2 ^ f.ebits
    let neg := (x >>> (f.mbits + f.ebits)) % 2 == 1
    let special : Option Num :=
      match f with
      | .e2m1 => none
      | .e4m3 => if ex = 15 ∧ man = 7 then some .nan else none
      | f => if ex = 2 ^ f.ebits - 1 then (if man = 0 then some (.inf neg) else some .nan) else none
    match special with
    | some v => v
    | none =>
      if ex = 0 then .fin neg man f.qmin
      else .fin neg (2 ^ f.mbits + man) (((ex - 1 : Nat) : Int) + f.qmin)

/-- The bit of the sign. -/
def signBit (f : Format) (neg : Bool) : Nat := if neg then 2 ^ (f.width - 1) else 0

/-- Code of an infinity. -/
def encInf (f : Format) (neg : Bool) : Nat := signBit f neg + ((2 ^ f.ebits - 1) <<< f.mbits)

/-- Code of the canonical quiet NaN, +0 where the format has none (R128). -/
def encNan : Format → Nat
  | .fp64 => 0x7FF8000000000000
  | .fp32 => 0x7FC00000
  | .bf16 => 0x7FC0
  | .fp16 => 0x7E00
  | .e4m3 => 0x7F
  | .e5m2 => 0x7F
  | .e2m1 => 0
  | .t2 => 0

/-- Code of the representable magnitude n 2^u with its sign. -/
def encFin (f : Format) (neg : Bool) (n : Nat) (u : Int) : Nat :=
  match f with
  | .t2 => if n = 0 then 0 else if neg then 3 else 1
  | f =>
    if n = 0 then signBit f neg
    else
      let len := bitLen n
      let ex : Int := u + (len : Int) - 1
      if ex < f.eminN then signBit f neg + (n <<< (u - f.qmin).toNat)
      else
        let man := if len ≤ f.mbits + 1 then n <<< (f.mbits + 1 - len) else n >>> (len - (f.mbits + 1))
        signBit f neg + ((ex + (f.bias : Int)).toNat <<< f.mbits) + (man - 2 ^ f.mbits)

/-- Code of the largest finite magnitude with its sign. -/
def encMax (f : Format) (neg : Bool) : Nat :=
  match f with
  | .t2 => if neg then 3 else 1
  | f => encFin f neg f.maxfin.1 f.maxfin.2

/-- A quotient of magnitudes, exact up to a sticky last bit. -/
def divMag (m1 : Nat) (e1 : Int) (m2 : Nat) (e2 : Int) : Nat × Int :=
  let k := bitLen m2 + 128
  let q := (m1 <<< k) / m2
  let st := if (m1 <<< k) % m2 = 0 then 0 else 1
  (2 * q + st, e1 - e2 - (k : Int) - 1)

/-- Integer square root by bits: `b` bits left to decide, `r` decided. -/
def isqrtBits (n : Nat) : Nat → Nat → Nat
  | 0, r => r
  | b + 1, r => isqrtBits n b (if (r + 2 ^ b) * (r + 2 ^ b) ≤ n then r + 2 ^ b else r)

/-- Integer square root. -/
def isqrt (n : Nat) : Nat := isqrtBits n (bitLen n / 2 + 1) 0

/-- A square root of a magnitude, exact up to a sticky last bit. -/
def sqrtMag (m : Nat) (e : Int) : Nat × Int :=
  let odd : Nat := (e % 2).toNat
  let n := m <<< (256 + odd)
  let r := isqrt n
  let st := if r * r = n then 0 else 1
  (2 * r + st, (e - (256 : Int) - (odd : Int)) / 2 - 1)

end Sys2Proof.Machine
end

