-- ==== Sys2Proof/Machine/Formats.lean ====
section
/-!
DEFINITION. Sys2Proof/Machine/Formats.lean: scales, conversion, rounding and the arithmetic of the tensor path and of
IEEE 754 (04_number_formats.md R114 to R134).
-/
namespace Sys2Proof.Machine

/-- No event. -/
def Events.none_ : Events := { clip := 0, uflow := 0, nan := 0, subflush := 0 }
/-- Sum of events. -/
def Events.add (a b : Events) : Events :=
  { clip := a.clip + b.clip, uflow := a.uflow + b.uflow, nan := a.nan + b.nan, subflush := a.subflush + b.subflush }
/-- One clip. -/
def Events.clip1 : Events := { Events.none_ with clip := 1 }
/-- One underflow. -/
def Events.uflow1 : Events := { Events.none_ with uflow := 1 }
/-- One NaN. -/
def Events.nan1 : Events := { Events.none_ with nan := 1 }
/-- One subflush. -/
def Events.sub1 : Events := { Events.none_ with subflush := 1 }
/-- `n` NaNs. -/
def Events.nans (n : Nat) : Events := { Events.none_ with nan := n }

/-- A scale applied to an element (R115, R117, R120): none, a power of two, a per-tensor value m 2^e, or one that
makes every element NaN. -/
inductive Scale where
  | none_
  | pow (s : Int)
  | tensor (m : Nat) (e : Int)
  | bad
deriving DecidableEq, Repr

/-- The scale an E8M0 code stands for (R115, R120). -/
def Scale.ofE8M0 (c : Nat) : Scale := if c = 255 then .bad else .pow ((c : Int) - 127)

/-- The scale an FP32 per-tensor value stands for: it must be positive, finite and normal (R120). -/
def Scale.ofTensor (x : Nat) : Scale :=
  match decode .fp32 x with
  | .fin false m e => if (x >>> 23) % 256 = 0 then .bad else .tensor m e
  | _ => .bad

/-- A decoded value under a scale, exact (R119). -/
def Scale.apply (s : Scale) (x : Num) : Num :=
  match s, x with
  | .bad, _ => .nan
  | .pow k, .fin n m e => .fin n m (e + k)
  | .tensor sm se, .fin n m e => .fin n (m * sm) (e + se)
  | _, x => x

/-- The element is a nonzero subnormal of FP32 or FP64 (R129). -/
def isSub (f : Format) (x : Num) : Bool :=
  match f, x with
  | .fp32, .fin _ m e => m != 0 && decide (e + (bitLen m : Int) - 1 < Format.fp32.eminN)
  | .fp64, .fin _ m e => m != 0 && decide (e + (bitLen m : Int) - 1 < Format.fp64.eminN)
  | _, _ => false

/-- Overflow treatment of a CVT (R122). -/
inductive Ovf where
  | sat | ieee | mark
deriving DecidableEq, Repr

/-- The conversion procedure of R124. `src` is the source's format, `x` its decoded and scaled value. -/
def cvt (src : Format) (x : Num) (d : Format) (ovf : Ovf) (dir : Dir) (s : Scale) : Nat × Events :=
  let x := match s with | .bad => Num.nan | _ => x
  match x with
  | .nan => (encNan d, .nan1)
  | .inf n =>
    if d.hasInf then (encInf d n, .none_)
    else ((if ovf = .mark then 2 else encMax d n), .clip1)
  | .fin n m e =>
    if isSub src (.fin n m e) then (0, .sub1)
    else if m = 0 then (0, .none_)
    else
      let (qm, qe) : Nat × Int := match s with
        | .pow k => (m, e - k)
        | .tensor sm se => divMag m e sm se
        | _ => (m, e)
      let wide := d = .fp32 ∨ d = .fp64
      let (rn, ru, _) := roundMag (d.mbits + 1) (if wide then none else some d.qmin) dir qm qe
      if !magLe qm qe d.maxfin.1 d.maxfin.2 then
        if ovf = .ieee ∧ !magLe rn ru d.maxfin.1 d.maxfin.2 then (encInf d n, .clip1)
        else if ovf = .mark then (2, .clip1)
        else (encMax d n, .clip1)
      else if wide ∧ rn ≠ 0 ∧ ru + (bitLen rn : Int) - 1 < d.eminN then (0, .sub1)
      else if rn = 0 then (0, .uflow1)
      else (encFin d n rn ru, .none_)

/-- Scale exponent of a block (R121): `none` is the NaN scale. `amax` is a magnitude or a NaN or an infinity. -/
def scaleExp (amax : Num) (d : Format) (margin : Nat) : Option Int :=
  match amax with
  | .nan => none
  | .inf _ => none
  | .fin _ m e =>
    if m = 0 then some (-127)
    else
      let s : Int := e + (bitLen m : Int) - 1 - (d.emax - (margin : Int))
      some (if s < -127 then -127 else if s > 127 then 127 else s)

/-- The E8M0 code of a scale exponent. -/
def scaleCode : Option Int → Nat
  | none => 255
  | some s => (s + 127).toNat

/-- The larger of two magnitudes; NaN and infinity win (R121). -/
def amaxOf (a b : Num) : Num :=
  match a, b with
  | .nan, _ => .nan
  | _, .nan => .nan
  | .inf n, _ => .inf n
  | _, .inf n => .inf n
  | .fin _ m1 e1, .fin _ m2 e2 => if magLe m1 e1 m2 e2 then .fin false m2 e2 else .fin false m1 e1

/-- A read of an element: its exact value under its scale and what the decode counts (R114, R120). -/
def decodeScaled (f : Format) (code : Nat) (s : Scale) : Num × Events :=
  match s with
  | .bad => (.nan, .nan1)
  | s =>
    (s.apply (decode f code), if f = .t2 ∧ code % 4 = 2 then .clip1 else .none_)

/-- What rounding to an IEEE 754 format gives: the code and the flags invalid, divide-by-zero, overflow, underflow,
inexact in bits 0 to 4. -/
structure Flagged where
  code : Nat
  flags : BitVec 5
deriving DecidableEq, Repr

/-- Direction of a magnitude under a rounding mode: 0 nearest even, 1 toward zero, 2 up, 3 down (02_tile.md R61). -/
def dirOf (rm : Nat) (neg : Bool) : Dir :=
  match rm with
  | 0 => .nearest
  | 1 => .toZero
  | 2 => if neg then .toZero else .away
  | _ => if neg then .away else .toZero

/-- Round ± m 2^e (m not 0) to an IEEE 754 format; tininess after rounding (02_tile.md R56). -/
def ieeeRound (f : Format) (rm : Nat) (neg : Bool) (m : Nat) (e : Int) : Flagged :=
  let dir := dirOf rm neg
  let (rn, ru, nx) := roundMag (f.mbits + 1) (some f.qmin) dir m e
  if !magLe rn ru f.maxfin.1 f.maxfin.2 then
    let toInf := match dir with
      | .toZero => false
      | _ => true
    { code := if toInf then encInf f neg else encMax f neg, flags := 0b10100 }
  else
    let (un, uu, _) := roundMag (f.mbits + 1) none dir m e
    let tiny := un ≠ 0 ∧ uu + (bitLen un : Int) - 1 < f.eminN
    { code := encFin f neg rn ru,
      flags := (if nx then 0b10000 else 0) ||| (if tiny ∧ nx then 0b01000 else 0) }

/-- An exact result as an IEEE 754 code; zero keeps its sign. -/
def ieeeNum (f : Format) (rm : Nat) (x : Num) : Flagged :=
  match x with
  | .nan => { code := encNan f, flags := 0 }
  | .inf n => { code := encInf f n, flags := 0 }
  | .fin n m e => if m = 0 then { code := signBit f n, flags := 0 } else ieeeRound f rm n m e

/-- An exact result on the tensor path: one rounding to nearest, flush below min normal, no −0, overflow to an
infinity uncounted (05_matrix_array.md R155, 07_vector_engine.md R195). -/
def tensorNum (f : Format) (x : Num) : Nat × Events :=
  match x with
  | .nan => (encNan f, .none_)
  | .inf n => (encInf f n, .none_)
  | .fin n m e =>
    if m = 0 then (0, .none_)
    else
      let (rn, ru, _) := roundMag (f.mbits + 1) none .nearest m e
      if !magLe rn ru f.maxfin.1 f.maxfin.2 then (encInf f n, .none_)
      else if ru + (bitLen rn : Int) - 1 < f.eminN then (0, .sub1)
      else (encFin f n rn ru, .none_)

namespace Num

/-- Is it a zero? -/
def isZero : Num → Bool
  | .fin _ m _ => m == 0
  | _ => false

/-- −x. -/
def negate : Num → Num
  | .nan => .nan
  | .inf n => .inf !n
  | .fin n m e => .fin (!n) m e

/-- |x|. -/
def absolute : Num → Num
  | .nan => .nan
  | .inf _ => .inf false
  | .fin _ m e => .fin false m e

/-- x + y, exact; `down` is rounding toward −∞, which signs a cancelled zero (IEEE 754). -/
def add (down : Bool) (x y : Num) : Num :=
  match x, y with
  | .nan, _ => .nan
  | _, .nan => .nan
  | .inf a, .inf b => if a = b then .inf a else .nan
  | .inf a, _ => .inf a
  | _, .inf b => .inf b
  | .fin a m1 e1, .fin b m2 e2 =>
    if m1 = 0 ∧ m2 = 0 then .fin (if a = b then a else down) 0 0
    else
      let s := (Dy.ofFin a m1 e1).add (Dy.ofFin b m2 e2)
      if s.n = 0 then .fin down 0 0 else s.toNum

/-- x × y, exact. -/
def mul (x y : Num) : Num :=
  match x, y with
  | .nan, _ => .nan
  | _, .nan => .nan
  | .inf a, .inf b => .inf (a != b)
  | .inf a, .fin b m _ => if m = 0 then .nan else .inf (a != b)
  | .fin a m _, .inf b => if m = 0 then .nan else .inf (a != b)
  | .fin a m1 e1, .fin b m2 e2 => .fin (a != b) (m1 * m2) (e1 + e2)

/-- x / y up to a sticky bit. -/
def div (x y : Num) : Num :=
  match x, y with
  | .nan, _ => .nan
  | _, .nan => .nan
  | .inf _, .inf _ => .nan
  | .inf a, .fin b _ _ => .inf (a != b)
  | .fin a _ _, .inf b => .fin (a != b) 0 0
  | .fin a m1 e1, .fin b m2 e2 =>
    if m2 = 0 then (if m1 = 0 then .nan else .inf (a != b))
    else if m1 = 0 then .fin (a != b) 0 0
    else let q := divMag m1 e1 m2 e2
         .fin (a != b) q.1 q.2

/-- √x up to a sticky bit. -/
def sqrt : Num → Num
  | .nan => .nan
  | .inf n => if n then .nan else .inf false
  | .fin n m e => if m = 0 then .fin n 0 0 else if n then .nan else
      let q := sqrtMag m e
      .fin false q.1 q.2

/-- x < y, false with NaN. -/
def lt (x y : Num) : Bool :=
  match x, y with
  | .nan, _ => false
  | _, .nan => false
  | .inf a, .inf b => a && !b
  | .inf a, _ => a
  | _, .inf b => !b
  | .fin a m1 e1, .fin b m2 e2 => (Dy.ofFin a m1 e1).lt (Dy.ofFin b m2 e2)

/-- x = y, false with NaN; zeros are equal. -/
def eq (x y : Num) : Bool :=
  match x, y with
  | .nan, _ => false
  | _, .nan => false
  | x, y => !(lt x y) && !(lt y x)

/-- IEEE 754 minimumNumber; −0 is below +0. -/
def minNum (x y : Num) : Num :=
  match x, y with
  | .nan, y => y
  | x, .nan => x
  | x, y =>
    if lt x y then x else if lt y x then y
    else match x with
      | .fin true _ _ => x
      | _ => y

/-- IEEE 754 maximumNumber. -/
def maxNum (x y : Num) : Num :=
  match x, y with
  | .nan, y => y
  | x, .nan => x
  | x, y =>
    if lt x y then y else if lt y x then x
    else match x with
      | .fin false _ _ => x
      | _ => y

end Num

/-- Exact sum of finite values, rounded once on the tensor path (07 R194, R207). -/
def exactSum (xs : List Num) : Num :=
  if xs.any (fun x => x == .nan) then .nan
  else if xs.any (fun x => x == .inf false) ∧ xs.any (fun x => x == .inf true) then .nan
  else if xs.any (fun x => x == .inf false) then .inf false
  else if xs.any (fun x => x == .inf true) then .inf true
  else ((xs.filterMap Num.dy?).foldl Dy.add Dy.zero).toNum

/-- The legality of a CVT for a pair of formats (R123); `strict` is the vector engine's strict mode. -/
def cvtLegal (c : Nat) (src d : Format) (strict : Bool) : Bool :=
  let rnd := c % 4
  let ovf := (c >>> 2) % 4
  let sc := (c >>> 4) % 4
  decide (rnd < 2) && decide (ovf < 3) && decide (sc < 3)
  && !(ovf == 1 && (d == .e4m3 || d == .e2m1 || d == .t2))
  && !(ovf == 2 && d != .t2)
  && !(sc != 1 && (src == .e2m1 || src == .t2 || d == .e2m1 || d == .t2))
  && !(sc != 0 && !src.scaled && !d.scaled)
  && !(rnd == 1 && (d == .fp32 || d == .fp64) && strict)

/-- The OVF field of a CVT (R122). -/
def ovfOf (c : Nat) : Ovf :=
  match (c >>> 2) % 4 with
  | 1 => .ieee
  | 2 => .mark
  | _ => .sat

/-- The rounding of a CVT with its 16-bit draw (R122, R126). -/
def dirOfCvt (c : Nat) (r : Nat) : Dir := if c % 4 = 1 then .stoch r else .nearest

end Sys2Proof.Machine
end

