-- ==== Sys2Proof/Machine/Ops.lean ====
section
/-!
DEFINITION. Sys2Proof/Machine/Ops.lean: the operations every meaning is built from: reading and replacing a region or
a tile, events, faults and hazards with location, register reads and writes, tile memory, and the scoreboard.
-/
namespace Sys2Proof.Machine
open Sys2Proof

/-! ### Regions and tiles -/

/-- Region `r`. -/
def State.region (s : State) (r : RegionId) : Region := Tab.get Region.reset s.regions r.toNat
/-- `s` with region `r` replaced. -/
def State.setRegion (s : State) (r : RegionId) (x : Region) : State := { s with regions := s.regions.put r.toNat x }
/-- `s` with `f` applied to region `r`. -/
def State.modRegion (s : State) (r : RegionId) (f : Region → Region) : State := s.setRegion r (f (s.region r))
/-- Tile `t`. -/
def State.tile (s : State) (t : TileId) : Tile := Tab.get Tile.reset s.tiles t.toNat
/-- `s` with tile `t` replaced. -/
def State.setTile (s : State) (t : TileId) (x : Tile) : State := { s with tiles := s.tiles.put t.toNat x }
/-- `s` with `f` applied to tile `t`. -/
def State.modTile (s : State) (t : TileId) (f : Tile → Tile) : State := s.setTile t (f (s.tile t))
/-- What of tile `t` no grant touches. -/
def State.tileHw (s : State) (t : TileId) : TileHw := Tab.get TileHw.reset s.hw t.toNat
/-- `s` with `f` applied to it. -/
def State.modHw (s : State) (t : TileId) (f : TileHw → TileHw) : State :=
  { s with hw := s.hw.put t.toNat (f (s.tileHw t)) }
/-- Sync object `o`. -/
def State.obj (s : State) (o : BitVec 16) : SyncObj := Tab.get SyncObj.reset s.objs o.toNat
/-- `s` with object `o` replaced. -/
def State.setObj (s : State) (o : BitVec 16) (x : SyncObj) : State := { s with objs := s.objs.put o.toNat x }
/-- Port `p`. -/
def State.port (s : State) (p : PortId) : Port := Tab.get Port.reset s.ports p.toNat
/-- `s` with port `p` replaced. -/
def State.setPort (s : State) (p : PortId) (x : Port) : State := { s with ports := s.ports.put p.toNat x }
/-- `s` with `f` applied to port `p`. -/
def State.modPort (s : State) (p : PortId) (f : Port → Port) : State := s.setPort p (f (s.port p))

/-- Column of a tile ID (00 R5). -/
def colOf (t : TileId) : Nat := t.toNat / 64
/-- Row of a tile ID (00 R5). -/
def rowOf (t : TileId) : Nat := t.toNat % 64
/-- The tile ID of a column and a row. -/
def tileAt (col row : Nat) : TileId := BitVec.ofNat 13 (col * 64 + row)

/-- The tile lies in the rectangle (01 R29). -/
def RegionCfg.has (c : RegionCfg) (t : TileId) : Bool :=
  decide (c.col0 ≤ colOf t) && decide (colOf t < c.col0 + c.ncols) && decide (c.row0 ≤ rowOf t)
  && decide (rowOf t < c.row0 + c.nrows)

/-- The tiles of a rectangle, in ascending tile ID. -/
def rectTiles (col0 ncols row0 nrows : Nat) : List TileId :=
  (List.range ncols).flatMap (fun c => (List.range nrows).map (fun w => tileAt (col0 + c) (row0 + w)))

/-- The tiles of a region. -/
def RegionCfg.tiles (c : RegionCfg) : List TileId := rectTiles c.col0 c.ncols c.row0 c.nrows

/-- Index of a tile in the tile map (01 R30). -/
def RegionCfg.index (c : RegionCfg) (t : TileId) : Nat := (colOf t - c.col0) * c.nrows + (rowOf t - c.row0)

/-- The tile-map entry of a tile. -/
def RegionCfg.entry (c : RegionCfg) (t : TileId) : BitVec 4 := c.tileMap.getD (c.index t) 0

/-- Gear code of a tile (01 R24, R30). -/
def RegionCfg.gear (c : RegionCfg) (t : TileId) : Nat := Word.bits (c.entry t) 0 2

/-- Gear code of a tile. -/
def Region.gear (g : Region) (t : TileId) : Nat := match g.cfg with
  | some c => c.gear t
  | none => 0

/-- Matrix rows of a gear (01 R24). -/
def gearRows (g : Nat) : Nat := [32, 28, 24, 16].getD g 32

/-- Tiles of a region, 0 when it is unconfigured. -/
def Region.tiles (g : Region) : List TileId := match g.cfg with
  | some c => c.tiles
  | none => []

/-- The region whose rectangle holds the tile. -/
def State.regionOf (s : State) (t : TileId) : Option RegionId :=
  (s.regions.find? (fun e => match e.2.cfg with
    | some c => c.has t
    | none => false)).map (fun e => BitVec.ofNat 6 e.1)

/-- SIZE_COLUMNS (00 R4). -/
def State.columns (s : State) : Nat := s.fuses.columns

/-- Is `v`, read from a field of 13 bits or more, an illegal tile ID (00 R6)? -/
def badTileId (s : State) (v : Nat) : Bool :=
  decide (v ≥ 8192) || decide (v % 64 ≥ 48) || decide (v / 64 % 128 ≥ s.columns)

/-- Columns in use on die `d`. -/
def State.dieCols (s : State) (d : Nat) : Nat := popCount (Tab.get 0 s.fuses.used d).toNat 34

/-- First logical column of die `d`, 0 to 4 (01 R17). -/
def State.dieStart (s : State) : Nat → Nat
  | 0 => 0
  | d + 1 => s.dieStart d + s.dieCols d

/-- The die of a logical column. -/
def State.dieOf (s : State) (col : Nat) : Nat :=
  if col < s.dieStart 1 then 0 else if col < s.dieStart 2 then 1 else if col < s.dieStart 3 then 2 else 3

/-- Cycles of a beat at the present clock step (00 R8). -/
def State.cyPerBeat (s : State) : Nat := 10 - s.power.cur.toNat

/-- A region is frozen by its brake, a limit brake or a halt (03 R94, R105; 18 R458). -/
def Region.frozen (g : Region) : Bool := g.brake.frozen || g.brake.limited || g.brake.haltFrozen

/-- The region is halting or halted: a halt began and has not ended (03 R105). -/
def Region.halting (g : Region) : Bool := g.brake.haltAt.isSome

/-- The region owns sync object `o` (10 R250). -/
def Region.ownsObj (g : Region) (o : Nat) : Bool := match g.cfg with
  | some c => c.sync.getLsbD (o / 256)
  | none => false

/-- The region is in its exchange phase at its present cycle (03 R88). -/
def Region.inExchange (g : Region) : Bool :=
  g.window.open_ && decide (g.window.e0 ≤ g.cycle) && decide (g.cycle < g.window.e0 + g.window.xlen)

/-- The virtual lane of the region on a port (01 R29). -/
def Region.lane (g : Region) (p : PortId) : Option Lane := match g.cfg with
  | some c =>
    let b := c.vlane.getD p.toNat 0
    if b.getLsbD 7 then some (BitVec.ofNat 3 b.toNat) else none
  | none => none

/-- The region that owns a lane of a port. -/
def State.laneOwner (s : State) (p : PortId) (v : Lane) : Option RegionId :=
  (s.regions.find? (fun e => e.2.lane p == some v)).map (fun e => BitVec.ofNat 6 e.1)

/-- The port is enabled by the DEVICE section (01 R28). -/
def State.portEnabled (s : State) (p : PortId) : Bool := s.frame.loaded && s.frame.portEnable.getLsbD p.toNat

/-! ### Units (01 R40, R41) -/

/-- Number of a unit in the table of records: class and index of R41. -/
def unitKey (cls idx : Nat) : Nat := cls * 65536 + idx

/-- Number of a region's segment of a tile column. -/
def columnKey (r : RegionId) (col : Nat) : Nat := 65536 + 256 * r.toNat + col

/-- The unit is quarantined. -/
def State.stale (s : State) (cls idx : Nat) : Bool := (Tab.get UnitRec.reset s.units (unitKey cls idx)).quarantined

/-- The region's segment of a column is quarantined. -/
def State.staleColumn (s : State) (r : RegionId) (col : Nat) : Bool :=
  (Tab.get UnitRec.reset s.units (columnKey r col)).quarantined

/-! ### Free values -/

/-- The next free value of `w` bits, and the state that has drawn it (log entry 6). -/
def State.draw (s : State) (w : Nat) : BitVec w × State := (Config.free w s.free, { s with free := s.free + 1 })

/-! ### Events (17 R432 to R434) -/

/-- A new event: set its bit, count it. -/
def EvtReg.event (e : EvtReg) (bit : Nat) : EvtReg := { bits := e.bits ||| (1#16 <<< bit), seq := e.seq + 1 }

/-- Send the MSI-X message of a vector unless one is pending (R434). -/
def State.msixSend (s : State) (fn vec : Nat) : State :=
  if s.hub.msix.contains (fn, vec) then s else { s with hub := { s.hub with msix := s.hub.msix ++ [(fn, vec)] } }

/-- The locations that `p` selects are written: their parity agrees with their contents again (17 R435). -/
def State.parityClean (s : State) (p : ParityHit → Bool) : State := { s with parity := s.parity.filter (fun h => !p h) }

/-- The location word of a register: its space and its place there (17 R436). -/
def parityAt (space place : Nat) : Word := BitVec.ofNat 32 (space * 2 ^ 24 + place)

/-- The location of region `r`'s register or setting is written. -/
def State.regionClean (s : State) (r : RegionId) (space place : Nat) : State :=
  s.parityClean (fun h => h.region == some r && h.loc == parityAt space place)

/-- The cadence unit has stopped: the parity of CADENCE_SOURCE or CADENCE_PORT failed (01 R28; 17 R436). -/
def State.cadStopped (s : State) : Bool := s.stopped.contains (parityAt 5 2) || s.stopped.contains (parityAt 5 3)

/-- The firmware loader has stopped: the parity of HUB_FW_ADDR or HUB_FW_LEN failed (17 R436). -/
def State.loaderStopped (s : State) : Bool := [0x2020, 0x2024, 0x2028].any (fun o => s.stopped.contains (parityAt 4 o))

/-- A HUB_EVT event. -/
def State.hubEvent (s : State) (bit : Nat) : State :=
  ({ s with hub := { s.hub with evt := s.hub.evt.event bit } }).msixSend 0 0

/-- A CAD_EVT event. -/
def State.cadEvent (s : State) (bit : Nat) : State :=
  ({ s with cad := { s.cad with evt := s.cad.evt.event bit } }).msixSend 0 1

/-- A PORTn_EVT event. -/
def State.portEvent (s : State) (p : PortId) (bit : Nat) : State :=
  (s.modPort p (fun x => { x with evt := x.evt.event bit })).msixSend 0 (2 + p.toNat)

/-- A REGION_EVT event, in both instances (R433). -/
def State.regionEvent (s : State) (r : RegionId) (bit : Nat) : State :=
  ((s.modRegion r (fun g => { g with evtVf := g.evtVf.event bit, evtPf := g.evtPf.event bit })).msixSend (1 + r.toNat) 0
    ).msixSend 0 (14 + r.toNat)

/-- MBX_DONE of a VF: the VF's instance only (R442). -/
def State.mbxDoneVf (s : State) (r : RegionId) : State :=
  (s.modRegion r (fun g => { g with evtVf := g.evtVf.event 0 })).msixSend (1 + r.toNat) 0

/-- A FW_EVT event, in both instances (R433). -/
def State.fwEvent (s : State) (r : RegionId) (bit : Nat) : State :=
  ((s.modRegion r (fun g => { g with fwVf := g.fwVf.event bit, fwPf := g.fwPf.event bit })).msixSend (1 + r.toNat) 1
    ).msixSend 0 (14 + r.toNat)

/-! ### Faults with location (03 R105 to R108) -/

/-- CYC of a tile (02 R46). -/
def Region.cyc (g : Region) (x : Tile) : Nat := match x.ctl.run with
  | .entryHold => 0
  | _ => g.cycle - x.ctl.origin

/-- Where a slot stands in the order of records (R106). -/
def slotRank : Option Slot → Nat
  | some .s => 0
  | some .m => 1
  | some .v => 2
  | some .x => 3
  | none => 4

/-- Slot number of a record (R107). -/
def slotCode : Slot → Nat
  | .s => 0
  | .m => 1
  | .v => 2
  | .x => 3

/-- Tile key of a record: faults not at a tile come last (log entry 20). -/
def tileRank : Option TileId → Nat
  | some t => t.toNat
  | none => 8192

/-- `a` sorts before `b` (R106). A fault at a tile that no slot raised, such as an arrival's, comes after slot X: the rule
names no place for it (log entry 92). -/
def FaultRec.before (a b : FaultRec) : Bool :=
  if a.cyc ≠ b.cyc then decide (a.cyc < b.cyc)
  else if tileRank a.tile ≠ tileRank b.tile then decide (tileRank a.tile < tileRank b.tile)
  else if slotRank a.slot ≠ slotRank b.slot then decide (slotRank a.slot < slotRank b.slot)
  else decide (a.order < b.order)

/-- Insert a record in order. -/
def insertRec (x : FaultRec) : List FaultRec → List FaultRec
  | [] => [x]
  | y :: r => if x.before y then x :: y :: r else y :: insertRec x r

/-- Keep a record among the first 16 (R106). -/
def Faults.keep (f : Faults) (x : FaultRec) : Faults :=
  let l := insertRec x f.recs
  { f with recs := l.take 16, lost := if l.length ≤ 16 then f.lost else Word.satAdd f.lost 1, seq := f.seq + 1 }

/-- A record made now. -/
def State.mkRec (s : State) (r : RegionId) (tile : Option TileId) (site : Option (Slot × BitVec 11)) (code detail : Nat)
    (seq : BitVec 16) : FaultRec :=
  let g := s.region r
  { cyc := g.cycle, tile := tile, slot := site.map (·.1), order := s.order, code := BitVec.ofNat 8 code, region := r,
    pc := match site with
      | some x => x.2
      | none => 0
    lap := s.cad.lap,
    tcyc := match tile with
      | some t => BitVec.ofNat 64 (g.cyc (s.tile t))
      | none => 0
    beat := s.cad.beat, seq := seq, detail := BitVec.ofNat 64 detail }

/-- The region begins to halt now, if no halt is in progress: the records of the last halt go, REGION_FAULT is raised
(R105, R106; 17 R442). -/
def State.beginHalt (s : State) (r : RegionId) : State :=
  if (s.region r).halting then s
  else (s.modRegion r (fun g => { g with
      brake := { g.brake with haltAt := some s.wall },
      faults := { g.faults with recs := [], lost := 0 } })).regionEvent r 1

/-- A fault of region `r` (R105, R106): the record is kept, the region begins to halt, and the tile it is charged to
stops issuing. -/
def State.raise (s : State) (r : RegionId) (tile : Option TileId) (site : Option (Slot × BitVec 11)) (code detail : Nat) :
    State :=
  let s := s.beginHalt r
  let s := s.modRegion r (fun g => { g with faults := g.faults.keep (s.mkRec r tile site code detail g.faults.seq) })
  let s := { s with order := s.order + 1 }
  match tile with
  | some t => s.modTile t (fun x => { x with ctl := { x.ctl with run := .stopped } })
  | none => s

/-- Fault codes (R108). -/
abbrev fIllegalOp : Nat := 0x01
abbrev fPcOverflow : Nat := 0x02
abbrev fLoopNest : Nat := 0x03
abbrev fPmemPoison : Nat := 0x04
abbrev fPmemStore : Nat := 0x05
abbrev fBadRow : Nat := 0x06
abbrev fTmemPoison : Nat := 0x07
abbrev fCodeload : Nat := 0x08
abbrev fSbExchange : Nat := 0x09
abbrev fRecvPending : Nat := 0x0A
abbrev fXwindow : Nat := 0x0B
abbrev fXunexpected : Nat := 0x0C
abbrev fBadTile : Nat := 0x0D
abbrev fChanRank : Nat := 0x0E
abbrev fSyncMisuse : Nat := 0x0F
abbrev fSyncOverflow : Nat := 0x10
abbrev fTagMismatch : Nat := 0x11
abbrev fStaleUnit : Nat := 0x12
abbrev fWalkFault : Nat := 0x13
abbrev fWalkPool : Nat := 0x14
abbrev fWalkIo : Nat := 0x15
abbrev fMemUe : Nat := 0x16
abbrev fBrakeTimeout : Nat := 0x17
abbrev fCfgParity : Nat := 0x18

/-! ### Hazard records (03 R104) -/

/-- The hazard detector watches the region: FLAGS.DEBUG (R104). -/
def Region.debug (g : Region) : Bool := match g.cfg with
  | some c => c.debug
  | none => false

/-- A lower-level error is detected (R104): it goes into the ring when the cycle ends, in the order of R106. -/
def State.hazard (s : State) (r : RegionId) (t : TileId) (site : Option (Slot × BitVec 11)) (code detail : Nat) : State :=
  if (s.region r).debug then
    let rec_ := s.mkRec r (some t) site code detail 0
    ({ s with order := s.order + 1 }).modRegion r (fun g => { g with faults := { g.faults with fresh := g.faults.fresh ++ [rec_] } })
  else s

/-- A hazard record is counted, and stored while the ring has room (R104). -/
def Faults.store (f : Faults) (x : FaultRec) : Faults :=
  let f1 := { f with hazCount := Word.satAdd f.hazCount 1 }
  if (f.head - f.tail).toNat < 512 then
    { f1 with head := f.head + 1, ring := f.ring.put (f.head.toNat % 512) { x with seq := f.hazCount.setWidth 16 } }
  else f1

/-- The lower-level errors of the cycle go into the ring; HAZ_FULL when it fills (R104; 17 R442). -/
def State.flushHazards (s : State) (r : RegionId) : State :=
  let f := (s.region r).faults
  if f.fresh.isEmpty then s
  else
    let l := f.fresh.foldl (fun l x => insertRec x l) []
    let n := l.foldl Faults.store { f with fresh := [] }
    let s := s.modRegion r (fun g => { g with faults := n })
    if (f.head - f.tail).toNat < 512 ∧ (n.head - n.tail).toNat = 512 then s.regionEvent r 5 else s

/-- Hazard codes (R104). -/
abbrev hBankConflict : Nat := 0x80
abbrev hSlotConflict : Nat := 0x81
abbrev hEarlyRead : Nat := 0x82
abbrev hAccMisuse : Nat := 0x83
abbrev hUnwritten : Nat := 0x84
abbrev hScrubStarved : Nat := 0x85
abbrev hDueLead : Nat := 0x86

/-! ### General registers, predicates and the scalar row buffer (02 R44, R45, R49) -/

/-- `a` completes before `b`: by cycle, then by issue (R45). -/
def RegWrite.before (a b : RegWrite) : Bool := decide (a.ready < b.ready) || (a.ready == b.ready && decide (a.issue < b.issue))

/-- Insert a register write in completion order. -/
def insertWrite (x : RegWrite) : List RegWrite → List RegWrite
  | [] => [x]
  | y :: r => if x.before y then x :: y :: r else y :: insertWrite x r

/-- Insert a predicate write in completion order. -/
def insertPred (x : PredWrite) : List PredWrite → List PredWrite
  | [] => [x]
  | y :: r =>
    if x.ready < y.ready ∨ (x.ready = y.ready ∧ x.issue < y.issue) then x :: y :: r else y :: insertPred x r

/-- A register file after one completed write; g0 discards it (R44). -/
def writeG (g : Cells 32) (w : RegWrite) : Cells 32 := if w.reg = 0 then g else g.put w.reg.toNat w.val

/-- Word `i` of the row. -/
def rowWord (x : Row) (i : Nat) : Word := x.extractLsb' (32 * i) 32

/-- `x` with word `i` replaced. -/
def setRowWord (x : Row) (i : Nat) (v : Word) : Row := Word.put x (32 * i) 32 v.toNat

/-- The row buffer after one completed write. -/
def writeSrb (x : Row) (w : SrbWrite) : Row := match w.word with
  | none => w.val
  | some i => setRowWord x i.toNat (rowWord w.val i.toNat)

/-- The core with every write that completes in or before cycle `now` in place (R45, R49). -/
def Ctl.settle (c : Ctl) (now : Nat) : Ctl :=
  { c with
    g := (c.gw.filter (fun w => w.ready ≤ now)).foldl writeG c.g,
    gw := c.gw.filter (fun w => !(decide (w.ready ≤ now))),
    p := (c.pw.filter (fun w => w.ready ≤ now)).foldl (fun p w => if w.pred = 0 then p else
      if w.val then p ||| (1#8 <<< w.pred.toNat) else p &&& ~~~(1#8 <<< w.pred.toNat)) c.p,
    pw := c.pw.filter (fun w => !(decide (w.ready ≤ now))),
    srb := (c.srbw.filter (fun w => w.ready ≤ now)).foldl writeSrb c.srb,
    srbw := c.srbw.filter (fun w => !(decide (w.ready ≤ now))),
    fsr := (c.ff.filter (fun w => w.1 ≤ now)).foldl (fun f w => f ||| ((w.2.setWidth 7 : BitVec 7) <<< 2)) c.fsr,
    ff := c.ff.filter (fun w => !(decide (w.1 ≤ now))) }

/-- g[n] as a bundle of this cycle reads it, once settled (R44). -/
def Ctl.reg (c : Ctl) (n : Nat) : Word := if n = 0 then 0 else c.g.get n

/-- The pair named by even register `n`, low half first (R55). -/
def Ctl.pair (c : Ctl) (n : Nat) : DWord := (c.reg (n + 1)) ++ (c.reg n)

/-- p[n] (R44). -/
def Ctl.pred (c : Ctl) (n : Nat) : Bool := n == 0 || c.p.getLsbD n

/-- Write g[n], readable from cycle `ready`. -/
def Ctl.setReg (c : Ctl) (n : Nat) (v : Word) (now ready : Nat) : Ctl :=
  { c with gw := insertWrite { reg := BitVec.ofNat 5 n, val := v, ready := ready, issue := now } c.gw }

/-- Write the pair at even register `n`. -/
def Ctl.setPair (c : Ctl) (n : Nat) (v : DWord) (now ready : Nat) : Ctl :=
  (c.setReg n (v.extractLsb' 0 32) now ready).setReg (n + 1) (v.extractLsb' 32 32) now ready

/-- Write p[n], readable from cycle `ready`. -/
def Ctl.setPred (c : Ctl) (n : Nat) (v : Bool) (now ready : Nat) : Ctl :=
  { c with pw := insertPred { pred := BitVec.ofNat 3 n, val := v, ready := ready, issue := now } c.pw }

/-! ### Tile memory (02 R68 to R73) -/

/-- The row of tile memory (R68). -/
def Tile.row (x : Tile) (row : Nat) : Row := x.tm.get row

/-- Write a whole row: it clears upsets and poison of the row, and the row counts as written (R73, 03 R103). -/
def Tile.setRow (x : Tile) (row : Nat) (v : Row) : Tile :=
  { x with tm := x.tm.put row v, upsets := x.upsets.filter (fun u => u.1 ≠ row),
           poison := x.poison.filter (fun u => u.1 ≠ row),
           written := if x.written.contains row then x.written else row :: x.written }

/-- Lowest poisoned or doubly upset word of the row, if any. -/
def Tile.poisoned (x : Tile) (row : Nat) : Option Nat :=
  let l := ((x.poison.filter (fun u => u.1 = row)).map (·.2))
    ++ ((x.upsets.filter (fun u => u.1 = row ∧ u.2.2 = true)).map (·.2.1))
  l.foldl (fun m w => match m with
    | none => some w
    | some k => some (min k w)) none

/-- A reader passes over the row: single errors are corrected and counted, double errors marked poisoned and counted
(R72, R73). -/
def State.readEcc (s : State) (t : TileId) (row : Nat) : State :=
  let x := s.tile t
  let ups := x.upsets.filter (fun u => u.1 = row)
  if ups.isEmpty then s else
  let singles := ups.filter (fun u => !u.2.2 && !(x.poison.contains (row, u.2.1)))
  let doubles := ups.filter (fun u => u.2.2 && !(x.poison.contains (row, u.2.1)))
  let s := s.modTile t (fun x => { x with
    poison := x.poison ++ doubles.map (fun u => (row, u.2.1)),
    upsets := x.upsets.filter (fun u => !(u.1 == row && u.2.2)) })
  s.modHw t (fun h => { h with
    tmCe := Word.satAdd h.tmCe singles.length, tmUe := Word.satAdd h.tmUe doubles.length,
    wb := if singles.isEmpty then h.wb else match h.wb with
      | none => some row
      | some r => some r })

/-- Use of a bank by the schedule in this cycle (R68, R69): did it meet another use? On the first conflict of a bank the
hazard detector reports it; both rows are left undefined (03 R103, R104). -/
def State.useBank (s : State) (r : RegionId) (t : TileId) (row : Nat) (write : Bool)
    (site : Option (Slot × BitVec 11)) : Bool × State :=
  let x := s.tile t
  let same := x.uses.filter (fun u => u.row % 4 = row % 4)
  let s := s.setTile t { x with uses := x.uses ++ [{ row := row, write := write, site := site }] }
  match same with
  | [] => (false, s)
  | u :: _ =>
    let lo := min u.row row
    let hi := max u.row row
    let s := if same.length = 1 then s.hazard r t u.site hBankConflict (row % 4 + (lo <<< 16) + (hi <<< 32)) else s
    let (v1, s) := s.draw 4096
    let (v2, s) := s.draw 4096
    (true, s.modTile t (fun x => { x with tm := (x.tm.put lo v1).put hi v2 }))

/-- A row of a due-marked item is used earlier than 32 cy after its mark (03 R93, R103). -/
def Tile.dueLead (x : Tile) (row now : Nat) : Option Nat :=
  (x.exch.leads.find? (fun l => decide (l.1 ≤ row) && decide (row < l.1 + l.2.1) && decide (now < l.2.2.2 + 32))).map
    (fun l => l.2.2.1)

/-- DUE_LEAD, by whatever unit reads the row (03 R103, R104): was it one? -/
def State.noteLead (s : State) (r : RegionId) (t : TileId) (row : Nat) (site : Option (Slot × BitVec 11)) : Bool × State :=
  match (s.tile t).dueLead row (s.region r).cycle with
  | some item => (true, s.hazard r t site hDueLead (item + (row <<< 32)))
  | none => (false, s)

/-- The row as its reader takes it: single errors corrected, a poisoned word met (02 R72, R73), the contents undefined after a
lower-level error. -/
def State.takeRow (s : State) (t : TileId) (row : Nat) (open_ : Bool) : Row × Option Nat × State :=
  let s := s.readEcc t row
  let bad := (s.tile t).poisoned row
  if open_ then
    let (v, s) := s.draw 4096
    (v, bad, s)
  else ((s.tile t).row row, bad, s)

/-- A read by the schedule of a row below 768 that is no compiled read of R103: its value and the poisoned word met. -/
def State.readSched (s : State) (r : RegionId) (t : TileId) (row : Nat) (site : Option (Slot × BitVec 11)) :
    Row × Option Nat × State :=
  let (lead, s) := s.noteLead r t row site
  let (clash, s) := s.useBank r t row false site
  s.takeRow t row (lead || clash)

/-- A read of a row below 768 by a compiled reader that issued in cycle `issue`: its value, undefined after a lower-level
error (03 R103), and whether a poisoned word was met, and which (02 R73). -/
def State.readRow (s : State) (r : RegionId) (t : TileId) (row issue : Nat) (site : Option (Slot × BitVec 11)) :
    Row × Option Nat × State :=
  let now := (s.region r).cycle
  let x := s.tile t
  let unw := !(x.written.contains row)
  let s := if unw then s.hazard r t site hUnwritten row else s
  let early := x.expect.find? (fun e => decide (e.1 = row) && decide (now ≤ e.2.1) && decide (e.2.2.1 < issue))
  let s := match early with
    | some e => s.hazard r t site hEarlyRead (row + (e.2.2.2.toNat <<< 16))
    | none => s
  let (lead, s) := s.noteLead r t row site
  let (clash, s) := s.useBank r t row false site
  s.takeRow t row (unw || early.isSome || lead || clash)

/-- A write of a row below 768 by the schedule in this region cycle. -/
def State.writeRow (s : State) (r : RegionId) (t : TileId) (row : Nat) (v : Row) (site : Option (Slot × BitVec 11)) :
    State :=
  let s := s.modTile t (fun x => x.setRow row v)
  (s.useBank r t row true site).2

/-- A write of a row in a free bank cycle (R70): DMA, late items, channel rows, asynchronous jobs. -/
def State.writeFree (s : State) (t : TileId) (row : Nat) (v : Row) : State := s.modTile t (fun x => x.setRow row v)

/-- A read of a row in a free bank cycle: its value, undefined if it comes too soon after the item's due mark (03 R103), and
the poisoned word met, if any. -/
def State.readFree (s : State) (r : RegionId) (t : TileId) (row : Nat) (site : Option (Slot × BitVec 11)) :
    Row × Option Nat × State :=
  let (lead, s) := s.noteLead r t row site
  s.takeRow t row lead

/-- A row number that a read may not name (R63): the fault code. -/
def readRowFault (row : Nat) : Option Nat := if row < 768 then none else some fBadRow

/-- A row number that a write may not name (R63): the fault code. -/
def writeRowFault (row : Nat) : Option Nat :=
  if row < 768 then none else if row < 832 then some fPmemStore else some fBadRow

/-! ### The range scoreboard (02 R76 to R79) -/

/-- The first entry that blocks a use of the row: a W entry for any use, an R entry for a write (R77). -/
def Tile.blocking (x : Tile) (row : Nat) (write : Bool) : Option Nat :=
  (x.sb.find? (fun e => decide (e.2.first ≤ row) && decide (row ≤ e.2.last) && (e.2.write || write))).map (·.1)

/-- The tile without the entries of operations numbered `n` and later: those of the bundle being issued are not busy yet
for its other slots (R77). -/
def Tile.before (x : Tile) (n : Nat) : Tile := { x with sb := x.sb.filter (fun e => decide (e.2.op < n)) }

/-- Free entries (R76). -/
def Tile.freeEntries (x : Tile) : Nat := 16 - x.sb.length

/-- The lowest free entry number among `n` tried from `k`. -/
def lowestFree {α : Type} (m : Tab α) : Nat → Nat → Nat
  | k, 0 => k
  | k, n + 1 => if (m.find k).isSome then lowestFree m (k + 1) n else k

/-- Allocate an entry for rows `first` to `last`. -/
def Tile.allocate (x : Tile) (first last : Nat) (write : Bool) (op : Nat) : Tile :=
  { x with sb := x.sb.put (lowestFree x.sb 0 16) { first := first, last := last, write := write, op := op } }

/-- Clear every entry of an operation. -/
def Tile.release (x : Tile) (op : Nat) : Tile := { x with sb := x.sb.filter (fun e => !(e.2.op == op)) }

end Sys2Proof.Machine
end

