-- ==== Sys2Proof/Machine/Operands.lean ====
section
/-!
DEFINITION. Sys2Proof/Machine/Operands.lean: the fields of a slot word (02 R48, R51; 05 R144; 07 R189; 09 R230;
10 R273; 11 R297), of an argument block (17 R423, R427) and of a host reference (17 R430).
-/
namespace Sys2Proof.Machine
open Sys2Proof

/-- OP, bits 31:26. -/
def opOf (w : SlotWord) : Nat := Word.bits w 26 6
/-- PRED, bits 25:23. -/
def predOf (w : SlotWord) : Nat := Word.bits w 23 3
/-- PN, bit 22. -/
def pnOf (w : SlotWord) : Bool := Word.bit w 22
/-- RD, bits 21:17. -/
def rdOf (w : SlotWord) : Nat := Word.bits w 17 5
/-- RA of formats R and I, bits 16:12. -/
def raOf (w : SlotWord) : Nat := Word.bits w 12 5
/-- RB of format R, bits 11:7. -/
def rbOf (w : SlotWord) : Nat := Word.bits w 7 5
/-- FN of format R, bits 6:0. -/
def fnOf (w : SlotWord) : Nat := Word.bits w 0 7
/-- IMM[11:0], zero-extended. -/
def immOf (w : SlotWord) : Nat := Word.bits w 0 12
/-- IMM[11:0], sign-extended to 32 bits. -/
def simmOf (w : SlotWord) : Word := (w.extractLsb' 0 12).signExtend 32
/-- IMM[16:0] of format U. -/
def uimmOf (w : SlotWord) : Nat := Word.bits w 0 17
/-- BA of format B, END of format L, bits 10:0. -/
def baOf (w : SlotWord) : BitVec 11 := w.extractLsb' 0 11
/-- PD of formats P and PL, bits 21:19. -/
def pdOf (w : SlotWord) : Nat := Word.bits w 19 3
/-- CMP of format P, bits 18:16. -/
def cmpOf (w : SlotWord) : Nat := Word.bits w 16 3
/-- RA of format P, bits 15:11. -/
def praOf (w : SlotWord) : Nat := Word.bits w 11 5
/-- RB of format P, bits 10:6. -/
def prbOf (w : SlotWord) : Nat := Word.bits w 6 5
/-- LC of format L, bits 21:20. -/
def lcOf (w : SlotWord) : Nat := Word.bits w 20 2
/-- COUNT of LOOPI, bits 19:11. -/
def countOf (w : SlotWord) : Nat := Word.bits w 11 9
/-- RA of LOOPR, bits 19:15. -/
def lraOf (w : SlotWord) : Nat := Word.bits w 15 5

/-- N of the operations that hold N − 1 in bits 17:12. -/
def nOf (w : SlotWord) : Nat := Word.bits w 12 6 + 1
/-- ROW in bits 9:0. -/
def rowField (w : SlotWord) : Nat := Word.bits w 0 10
/-- W in bits 6:0. -/
def wField (w : SlotWord) : Nat := Word.bits w 0 7
/-- The 4-bit register number in bits 21:18 (VD, XR, XV). -/
def reg4Of (w : SlotWord) : Nat := Word.bits w 18 4
/-- The 3-bit register number in bits 21:19 (MD, VJ, DR). -/
def reg3Of (w : SlotWord) : Nat := Word.bits w 19 3
/-- The 2-bit number in bits 21:20 (P, CH, Q, KIND). -/
def reg2Of (w : SlotWord) : Nat := Word.bits w 20 2

/-- Bits `lo` to `lo + n − 1` are all zero. -/
def zeroAt (w : SlotWord) (lo n : Nat) : Bool := Word.bits w lo n == 0

/-- Consecutive SRB words `i` to `i + n − 1` as one value. -/
def srbWords (x : Row) (i n : Nat) : Nat := (x.toNat >>> (32 * i)) % 2 ^ (32 * n)

/-- `n` bytes of an argument block at byte `o`. -/
def argAt (a : ArgBlock) (o n : Nat) : Nat := Word.bits a (8 * o) (8 * n)

/-- Signed value of the low `n` bits from `lo`. -/
def sbits {w : Nat} (x : BitVec w) (lo n : Nat) : Int :=
  let v := Word.bits x lo n
  if v < 2 ^ (n - 1) then (v : Int) else (v : Int) - ((2 ^ n : Nat) : Int)

end Sys2Proof.Machine
end

