-- ==== Sys2Proof/Machine/Due.lean ====
section
/-!
DEFINITION. Sys2Proof/Machine/Due.lean: the events that the schedule fixes to the cycle (00_scope.md R8; 02 R77, R80; 03 R87 to
R89, R94, R105; 09 R235, R236; 10 R252, R254, R261): which of them are due at the start of the present cycle. An idle step
performs them; a slot waits for them (log entry 1).
-/
namespace Sys2Proof.Machine
open Sys2Proof

/-! ### Blocked bundles (02 R77, R78; 06 R167; 11 R299) -/

/-- No need. -/
def Need.zero : Need :=
  { rows := [], entries := 0, zeroFills := false, asyncs := false, sumAsyncs := false, twoAsyncs := false }

/-- Both needs. -/
def Need.join (a b : Need) : Need :=
  { rows := a.rows ++ b.rows, entries := a.entries + b.entries, zeroFills := a.zeroFills || b.zeroFills,
    asyncs := a.asyncs || b.asyncs, sumAsyncs := a.sumAsyncs || b.sumAsyncs,
    twoAsyncs := a.twoAsyncs || b.twoAsyncs }

/-- Zero-fills in flight of a tile (11 R299). -/
def Tile.zeroFills (x : Tile) : Nat := (x.dmas.filter (fun d => d.op == .zf)).length

/-- Nothing of the need is outstanding. -/
def Tile.meets (x : Tile) (n : Need) : Bool :=
  n.rows.all (fun q => (x.blocking q.1 q.2).isNone) && decide (n.entries ≤ x.freeEntries)
  && (!n.zeroFills || decide (x.zeroFills < 4)) && (!n.asyncs || x.vec.asyncs.isEmpty)
  && (!n.sumAsyncs || !(x.vec.asyncs.any (fun j => Word.bit j.setup.vj 25)))
  && (!n.twoAsyncs || decide (x.vec.asyncs.length < 2))

/-! ### Compiled rows (09 R235, R236) -/

/-- Row index of an armed receive that completes in cycle `c`. -/
def Armed.rowAt (a : Armed) (c : Nat) : Option Nat :=
  if a.at_ < c ∧ (c - a.at_) % 16 = 0 ∧ (c - a.at_) / 16 ≤ a.n then some ((c - a.at_) / 16) else none

/-- A row of a compiled send that completes at tile `t` in cycle `c`. -/
def Packet.arrives (p : Packet) (t : TileId) (c : Nat) : Bool := p.dests.any (fun d => d.1 == t && d.2.1 == c)

/-- The rows that complete at tile `t` in cycle `c`. -/
def Region.arrivals (g : Region) (t : TileId) (c : Nat) : List Packet := g.packets.filter (fun p => p.arrives t c)

/-- The armed receives of a tile whose present row is past its cycle with no row completed. -/
def Region.missed (g : Region) (x : Tile) (t : TileId) : List Armed :=
  x.exch.armed.filter (fun a => decide (a.done < a.n) && decide (a.at_ + 16 * (a.done + 1) ≤ g.cycle)
    && (g.arrivals t (a.at_ + 16 * (a.done + 1))).isEmpty)

/-! ### Sync objects (10 R252, R254, R261) -/

/-- The earliest cycle in which a flight is due at an object, if it is not later than `now`. -/
def firstDue (fs : List SyncFlight) (o : BitVec 16) (now : Nat) : Option Nat :=
  fs.foldl (fun m f => if f.obj = o ∧ f.due ≤ now then (match m with
    | none => some f.due
    | some d => some (min d f.due)) else m) none

/-- The releases of an object whose broadcast is due. -/
def dueReleases (g : Region) (o : BitVec 16) : List TileId :=
  (g.releases.filter (fun e => e.1 == o && decide (e.2.1 + 48 ≤ g.cycle))).flatMap (·.2.2)

/-! ### Windows (03 R87 to R89; 09 R238) -/

/-- XWIN_n as it stands. -/
def Region.header (g : Region) (win : BitVec 8) : Word := Tab.get 0x10 g.xwin win.toNat

/-- The window that opens in the present cycle: 48 cy after the release, or from the beat boundary that a CROSS window
waits for. The header is read here, CROSS and XLEN together (09 R238). -/
def Region.opening (g : Region) : Option (BitVec 8) :=
  match g.window.next with
  | none => none
  | some (l, win) =>
    if g.cycle < l + 48 || ((g.header win).getLsbD 16 && !g.window.beat) then none else some win

/-- The window's phase is over. -/
def Region.closing (g : Region) : Bool := g.window.open_ && decide (g.window.e0 + g.window.xlen ≤ g.cycle)

/-- The START descriptor's release reaches the tiles (02 R80), at a clock step the region allows (18 R456). -/
def State.entering (s : State) (g : Region) : Bool :=
  match g.startRel, g.cfg with
  | some l, some c => decide (l + 48 ≤ g.cycle) && decide (s.power.cur.toNat ≤ c.floor) && g.st == .granted
  | _, _ => false

/-! ### Brake and halt (03 R94, R105; 18 R458) -/

/-- A change of the missing mark or of the limit mark to `v` reaches the region's elements: made 24 wall cycles ago. -/
def flipDue (wall : Nat) (v : Bool) : List (Nat × Bool) → Bool
  | (w, b) :: _ => b == v && decide (w + 24 ≤ wall)
  | [] => false

/-- The halt reaches the region's elements. -/
def Brake.haltDue (b : Brake) (wall : Nat) : Bool :=
  match b.haltAt with
  | some w => decide (w + 24 ≤ wall) && !b.halted
  | none => false

/-! ### What is due -/

/-- The region's tiles that hold anything: one that is not listed stands in entry hold and does nothing. -/
def State.listedTiles (s : State) (g : Region) : List TileId := match g.cfg with
  | some c => (s.tiles.map (fun e => BitVec.ofNat 13 e.1)).filter c.has
  | none => []

/-- Freezes, thaws, the halt, and the run count past its limit (03 R100). -/
def State.brakeDue (s : State) (r : RegionId) : List Instr :=
  let b := (s.region r).brake
  (if b.haltDue s.wall then [.haltEngage r] else []) ++ (if b.limit.toNat < b.run then [.brakeTimeout r] else [])
  ++ (if flipDue s.wall true b.flips || flipDue s.wall true b.limitFlips then [.brakeFreeze r] else [])
  ++ (if flipDue s.wall false b.flips || flipDue s.wall false b.limitFlips then [.brakeThaw r] else [])

/-! ### Free bank cycles (02 R70, R76; 07 R203; 09 R240; 10 R277) -/

/-- The bank cycles a request asked for have all been given. -/
def Tile.granted (x : Tile) (w : FreeWho) : Bool := x.reqs.any (fun q => q.who == w && q.steps.isEmpty)

/-- The request is done with. -/
def Tile.dropReq (x : Tile) (w : FreeWho) : Tile := { x with reqs := x.reqs.filter (fun q => q.who != w) }

/-- The declaration a row that has arrived belongs to: a DMA's row to its own, a link's row to that of its item (11 R301). -/
def Tile.declOf (x : Tile) (q : InRow) : Option Decl := match q.decl with
  | some id => x.exch.decls.find? (fun d => d.id == id)
  | none => x.exch.decls.find? (fun d => d.item == q.item && !d.dma)

/-- How a row that has arrived asks for bank cycles. -/
def InRow.who (q : InRow) : FreeWho := .late q.item q.k q.decl

/-- The row may leave the inbound buffer now: its declaration has expired, it lies beyond the declared rows, or its bank
cycles have been given. A row without a declaration waits. -/
def Tile.lateReady (x : Tile) (q : InRow) : Bool := match x.declOf q with
  | none => q.decl.isSome
  | some d => decide (d.n ≤ q.k) || x.granted q.who

/-- The rows that have arrived for a tile. -/
def Region.rowsFor (g : Region) (t : TileId) : List InRow := g.inRows.filter (fun q => q.tile == t)

/-- The entry number of an operation. -/
def Tile.entryOf (x : Tile) (op : Nat) : Option Nat := (x.sb.find? (fun e => e.2.op == op)).map (·.1)

/-- Place of an asynchronous job among those of the tile. -/
def Tile.asyncPlace (x : Tile) (op : Nat) : Nat := (x.vec.asyncs.findIdx (fun j => j.op == op))

/-- What a request that has had its bank cycles leads to. -/
def FreeReq.event (t : TileId) (x : Tile) (q : FreeReq) : List Instr :=
  if !q.steps.isEmpty then []
  else match q.who with
    | .dma op => (match x.entryOf op with
      | some e => [.scoreboardClear t (BitVec.ofNat 4 e)]
      | none => [])
    | .cqrow op => (match x.entryOf op with
      | some e => [.scoreboardClear t (BitVec.ofNat 4 e)]
      | none => [])
    | .async op => [.asyncJobComplete t (BitVec.ofNat 1 (x.asyncPlace op))]
    | .late _ _ _ => []

/-- The accesses of variable latency that have had their bank cycles. An asynchronous job stands still with its region (03
R96); the others go on (R97). -/
def State.freeDue (s : State) (r : RegionId) : List Instr :=
  let g := s.region r
  (s.listedTiles g).flatMap (fun t =>
    let x := s.tile t
    (x.reqs.filter (fun q => match q.who with
      | .async _ => !g.frozen
      | _ => true)).flatMap (fun q => q.event t x)
    ++ ((g.rowsFor t).filter x.lateReady).map (fun q => .lateItemRowWrite t q.item))

/-! ### Passes, drains and jobs that are over (05 R151, R163; 07 R199) -/

/-- The pass is complete: its bank holds the whole result (05 R151). -/
def Pass.complete (p : Pass) (rows now : Nat) : Bool := decide (p.first + p.cycles + rows + 32 ≤ now)

/-- The ends of passes, drains and static jobs of a tile. -/
def Tile.overDue (x : Tile) (g : Region) (t : TileId) : List Instr :=
  (if x.matrix.passes.any (fun p => p.complete (gearRows (g.gear t)) g.cycle) then [.matrixPassComplete t] else [])
  ++ (if x.matrix.drains.any (fun d => !d.noted && decide (d.job.ends ≤ g.cycle)) then [.drainComplete t] else [])
  ++ (if x.vec.jobs.any (fun j => decide (j.ends ≤ g.cycle)) then [.vectorJobEnd t] else [])

/-- The events of one tile: its wake after a wait, the resume of its blocked bundle, the rows that complete at it. -/
def State.tileDue (s : State) (g : Region) (t : TileId) : List Instr :=
  let x := s.tile t
  (match x.ctl.run with
    | .waking n _ => if n ≤ g.cycle then [.waiterWake t] else []
    | .stalled _ (some n) => if n ≤ g.cycle then [.stallResume t] else []
    | _ => [])
  ++ x.overDue g t
  ++ (if (g.arrivals t g.cycle).isEmpty then [] else [.compiledRowArrival t])
  ++ (if (g.missed x t).isEmpty then [] else [.armedReceiveMissed t])

/-- The events of the region's cycle while it is not frozen. -/
def State.cycleDue (s : State) (r : RegionId) : List Instr :=
  let g := s.region r
  if g.frozen || g.st != .granted then []
  else
    (if g.closing then [.exchangeWindowEnd r] else [])
    ++ (if g.opening.isSome then [.exchangeWindowOpen r] else [])
    ++ (if s.entering g then [.entryHoldRelease r] else [])
    ++ ((g.releases.filter (fun e => decide (e.2.1 + 48 ≤ g.cycle) && !(s.obj e.1).xch)).map (fun e => .releaseWake r e.1))
    ++ ((g.flights.filter (fun f => decide (f.due ≤ g.cycle))).map (fun f => .syncOpArrival r f.obj))
    ++ (s.listedTiles g).flatMap (s.tileDue g)

/-- The region is frozen by a missing item in wall cycle `wall`, a change due in it taken in (R94). -/
def Brake.frozenAt (b : Brake) (wall : Nat) : Bool :=
  if flipDue wall true b.flips then true else if flipDue wall false b.flips then false else b.frozen

/-- The present beat is over (00 R8): 10, 9, 8 or 7 cycles by the clock step. -/
def State.beatDue (s : State) : Bool := decide (s.beatAt + s.cyPerBeat ≤ s.wall)

/-- The events of a region that are due at the start of the present cycle and have not taken effect. -/
def State.dueIn (s : State) (r : RegionId) : List Instr :=
  s.brakeDue r ++ (if s.beatDue then [.beatBoundary] else []) ++ s.freeDue r ++ s.cycleDue r

end Sys2Proof.Machine
end

