-- ==== Sys2Proof/Machine/Issue.lean ====
section
/-!
DEFINITION. Sys2Proof/Machine/Issue.lean: how a slot operation issues (02 R47 to R50, R57, R58, R77; 03 R105, R480): the
bundle it belongs to, its guard, its checks in order, and what a fault or a block does to the bundle. A slot command
carries the tile and the slot word of the bundle at the pc; the S-slot command ends the bundle (log entry 5).
-/
namespace Sys2Proof.Machine
open Sys2Proof

/-- Where a slot operation issues: tile, region, slot, word, region cycle, bundle. -/
structure Site where
  t : TileId
  r : RegionId
  slot : Slot
  w : SlotWord
  now : Nat
  pc : BitVec 11

/-- Where issue goes after the bundle (02 R57, R58). -/
inductive Flow where
  | seq
  | branch (target : BitVec 11)
  | skip (pc : Nat)

/-- What a slot operation does: it takes effect, faults, or is blocked (02 R77). A fault keeps of its state only what its
reads found. -/
inductive Act where
  | done (s : State) (flow : Flow)
  | fault (s : State) (code detail : Nat)
  | block (need : Need)

/-- The record site of a slot operation. -/
def Site.mark (i : Site) : Option (Slot × BitVec 11) := some (i.slot, i.pc)

/-- `s` with `f` applied to the tile of the site. -/
def Site.tile (i : Site) (s : State) (f : Tile → Tile) : State := s.modTile i.t f

/-- `s` with `f` applied to the core of the site. -/
def Site.ctl (i : Site) (s : State) (f : Ctl → Ctl) : State := s.modTile i.t (fun x => { x with ctl := f x.ctl })

/-- An entry cleared: a stalled tile whose need is now met may issue in the fourth cycle after this one (R77). -/
def State.noteClear (s : State) (r : RegionId) (t : TileId) : State :=
  let x := s.tile t
  match x.ctl.run with
  | .stalled need none =>
    if x.meets need then
      let g := s.region r
      s.setTile t { x with ctl := { x.ctl with run := .stalled need (some (g.cycle + if g.frozen then 3 else 4)) } }
    else s
  | _ => s

/-- The turn in which the slots of one bundle are given: M, V, X, S (log entry 5; 08 R221 puts a drain before a V-slot
job). -/
def slotTurn (slot : Slot) : Nat :=
  match slot with
  | .m => 0
  | .v => 1
  | .x => 2
  | .s => 3

/-- The four slots in the order of their turns. -/
def slotOrder : List Slot := [.m, .v, .x, .s]

/-- The bundle at the PC (R47). -/
def Tile.bundleAt (x : Tile) : Bundle := x.pm.get x.ctl.pc.toNat

/-- The word of a slot of a bundle (R47). -/
def slotWord (b : Bundle) (slot : Slot) : SlotWord :=
  match slot with
  | .s => b.extractLsb' 0 32
  | .m => b.extractLsb' 32 32
  | .v => b.extractLsb' 64 32
  | .x => b.extractLsb' 96 32

/-- Every slot of the bundle whose turn is before `slot`'s has been given, a NOP aside. -/
def inTurn (b : Bundle) (given : List Slot) (slot : Slot) : Bool :=
  given.all (fun k => decide (slotTurn k < slotTurn slot))
  && slotOrder.all (fun k => decide (slotTurn slot ≤ slotTurn k) || given.contains k || opOf (slotWord b k) == 0)

/-- May word `w` issue now in a slot of tile `t`, and in which region (R47, R49)? It is the slot's word of the bundle at the
PC, the slots before it have been given, and nothing that the schedule puts before it is still due. -/
def State.mayIssue (s : State) (t : TileId) (slot : Slot) (w : SlotWord) : Option RegionId :=
  match s.regionOf t with
  | none => none
  | some r =>
    let g := s.region r
    let x := s.tile t
    let c := x.ctl
    if g.st ≠ .granted ∨ g.frozen = true ∨ slotWord x.bundleAt slot ≠ w then none
    else match c.bundle with
      | some b => if b.at_ = g.cycle ∧ inTurn x.bundleAt b.slots slot = true then some r else none
      | none =>
        if c.run = .running ∧ c.gate = none ∧ c.next ≤ g.cycle ∧ inTurn x.bundleAt [] slot = true ∧ s.dueIn r = [] then some r
        else none

/-- The operation with code `op` of a slot is what a word spells (R48, R50): NOP also carries a reserved OP, which faults. -/
def fits (slot : Slot) (op : Nat) (w : SlotWord) : Bool :=
  opOf w == op || (op == 0 && (decodeOp slot (opOf w)).isNone)

/-- Upsets of the bundle at the PC when it is fetched: (corrected, first double one) (R62). -/
def Tile.fetchEcc (x : Tile) : Nat × Option Nat :=
  let u := x.pmUpsets.filter (fun u => u.1 = x.ctl.pc.toNat)
  ((u.filter (fun u => !u.2.2)).length,
   ((u.filter (fun u => u.2.2)).map (fun u => if u.2.1 then 1 else 0)).head?)

/-- Begin the bundle of tile `t`: its registers as of this cycle, its fetch, the tile kept for a bundle that has no
effect. A bundle beyond 2,047 or a poisoned one faults instead (R57, R62). A blocked bundle is fetched again when it issues
again, and its corrected half-bundles count again: the rule does not say (log entry 93). -/
def State.beginBundle (s : State) (r : RegionId) (t : TileId) : State :=
  let now := (s.region r).cycle
  let x := s.tile t
  if x.ctl.overflow then s.raise r (some t) (some (.s, x.ctl.pc)) fPcOverflow 0
  else
    let e := x.fetchEcc
    let s := s.modHw t (fun h => { h with pmCe := Word.satAdd h.pmCe e.1 })
    match e.2 with
    | some half =>
      s.raise r (some t) (some (.s, x.ctl.pc)) fPmemPoison
        (x.ctl.pc.toNat / 32 + ((x.ctl.pc.toNat % 32 * 2 + half) <<< 8))
    | none =>
      let c := x.ctl.settle now
      let x := { x with ctl := { c with bundle := some { at_ := now, order := s.order, slots := [], mode := .live } } }
      { (s.setTile t x) with undo := s.undo.put t.toNat x }

/-- The tile's region, unless its bundle is being given: an event of the cycle takes effect before or after a bundle, never
between its slots (log entry 5). -/
def State.between (s : State) (t : TileId) : Option RegionId :=
  if (s.tile t).ctl.bundle.isSome then none else s.regionOf t

/-- Tile `t` as its bundle of this cycle found it: what MFC and the latency of R49 see of it. -/
def State.startTile (s : State) (t : TileId) : Tile := Tab.get (s.tile t) s.undo t.toNat

/-- Take back every effect the bundle of tile `t` has had: its slots have none (03 R105), its credits are not returned and
its lower-level errors are not recorded. What its reads found of the error-correction codes stays. -/
def State.undoBundle (s : State) (r : RegionId) (t : TileId) : State :=
  let now := (s.region r).cycle
  let x := s.tile t
  let y := Tab.get Tile.reset s.undo t.toNat
  let s := s.setTile t { y with poison := x.poison, upsets := x.upsets, ctl := { y.ctl with bundle := x.ctl.bundle } }
  let first := match x.ctl.bundle with
    | some b => b.order
    | none => s.order
  s.modRegion r (fun g => { g with
    credits := g.credits.filter (fun c => !(c.1 == t)),
    faults := { g.faults with fresh := g.faults.fresh.filter (fun f => !(f.tile == some t && decide (first ≤ f.order))) },
    packets := g.packets.filter (fun p => !(p.src == t && p.issue == now)),
    starts := g.starts.filter (fun p => !(p.2.1 == t && p.1 == now)),
    brake := { g.brake with marks := g.brake.marks.filter (fun m => !(m.tile == t && m.cyc == now)) } })

/-- Set the mode of the open bundle and count the slot as issued. -/
def Ctl.noteSlot (c : Ctl) (slot : Slot) (mode : BundleMode) : Ctl :=
  { c with bundle := c.bundle.map (fun b => { b with slots := slot :: b.slots, mode := mode }) }

/-- What the outcome of one slot does to its bundle. -/
def settleSlot (i : Site) (mode : BundleMode) (a : Act) (s : State) : State :=
  match mode, a with
  | .live, .done s' _ => i.ctl s' (fun c => c.noteSlot i.slot .live)
  | .live, .fault s' code detail =>
    let s := s'.undoBundle i.r i.t
    let s := i.ctl s (fun c => c.noteSlot i.slot .void)
    s.raise i.r (some i.t) i.mark code detail
  | .live, .block need =>
    let s := s.undoBundle i.r i.t
    i.ctl s (fun c => { c.noteSlot i.slot .blocked with run := .stalled need none })
  | .void, .fault _ code detail =>
    (i.ctl s (fun c => c.noteSlot i.slot .void)).raise i.r (some i.t) i.mark code detail
  | .blocked, .block need =>
    i.ctl s (fun c => { c.noteSlot i.slot .blocked with run := match c.run with
      | .stalled n _ => .stalled (n.join need) none
      | x => x })
  | m, _ => i.ctl s (fun c => c.noteSlot i.slot m)

/-- The loop whose END is the present bundle (R58). -/
def Ctl.loopHere (c : Ctl) : Option Loop := c.loops.find? (fun l => l.stop = c.pc)

/-- Issue of END decrements the loop's counter; at zero the loop ends (R58). Also: does issue go back to its start? -/
def Ctl.endLoop (c : Ctl) : Ctl × Option (BitVec 11) :=
  match c.loopHere with
  | none => (c, none)
  | some l =>
    let v := c.lc.get l.lc.toNat - 1
    let c := { c with lc := c.lc.put l.lc.toNat v }
    if v = 0 then ({ c with loops := c.loops.filter (fun k => k.lc ≠ l.lc) }, none) else (c, some l.start)

/-- The core goes on at address `n`, or has run past 2,047 (R57). -/
def Ctl.goto (c : Ctl) (n : Nat) : Ctl :=
  if n < 2048 then { c with pc := BitVec.ofNat 11 n } else { c with pc := 2047, overflow := true }

/-- The PC after a bundle (R57, R58). -/
def Ctl.advance (c : Ctl) (flow : Flow) : Ctl :=
  match c.branch with
  | some target =>
    let c := (c.endLoop).1
    { c with pc := target, branch := none,
             loops := c.loops.filter (fun l => decide (l.start ≤ target) && decide (target ≤ l.stop)) }
  | none =>
    match flow with
    | .branch target => { c.goto (c.pc.toNat + 1) with branch := some target }
    | .skip n => c.goto n
    | .seq =>
      match c.endLoop with
      | (c, some start) => { c with pc := start }
      | (c, none) => c.goto (c.pc.toNat + 1)

/-- The bundle ends with its S slot: a live one moves the PC and lets the next issue a cycle later (R49). -/
def closeBundle (i : Site) (flow : Flow) (s : State) : State :=
  i.ctl s (fun c => match c.bundle with
    | some b => match b.mode with
      | .live => { c.advance flow with bundle := none, next := i.now + 1 }
      | _ => { c with bundle := none }
    | none => c)

/-- The flow an operation asks for. -/
def Act.flow : Act → Flow
  | .done _ f => f
  | _ => .seq

/-- The state in which a slot of the tile issues: its bundle open. -/
def State.opened (s : State) (r : RegionId) (t : TileId) : State := match (s.tile t).ctl.bundle with
  | some _ => s
  | none => s.beginBundle r t

/-- Where a slot word issues. -/
def State.site (s : State) (r : RegionId) (slot : Slot) (t : TileId) (w : SlotWord) : Site :=
  { t := t, r := r, slot := slot, w := w, now := (s.region r).cycle, pc := (s.tile t).ctl.pc }

/-- The guard of the word holds (R48). -/
def Ctl.guard (c : Ctl) (w : SlotWord) : Bool := c.pred (predOf w) != pnOf w

/-- What a slot operation comes to: the encoding checks whatever the guard, then, if the guard holds, the rest (R48, R50,
R480). -/
def slotAct (enc : Site → State → Option (Nat × Nat)) (act : Site → State → Act) (i : Site) (s : State) : Act :=
  match enc i s with
  | some f => .fault s f.1 f.2
  | none => if (s.tile i.t).ctl.guard i.w then act i s else .done s .seq

/-- One slot operation in its bundle (R47 to R50, R480; 03 R105). A command whose operation is not the one its word spells
does nothing: no slot issues it. -/
def slotOp (slot : Slot) (op : Nat) (t : TileId) (w : SlotWord) (enc : Site → State → Option (Nat × Nat))
    (act : Site → State → Act) (s : State) : State :=
  if fits slot op w = false then s else
  match s.mayIssue t slot w with
  | none => s
  | some r =>
    let s := s.opened r t
    match (s.tile t).ctl.bundle with
    | none => s
    | some b =>
      let i := s.site r slot t w
      let a := slotAct enc act i s
      let s := settleSlot i b.mode a s
      if slot = .s then closeBundle i a.flow s else s

/-- ILLEGAL_OP with the slot word (R50; 03 R108). -/
def illegal (w : SlotWord) : Option (Nat × Nat) := some (fIllegalOp, w.toNat)

/-- The word's OP is `op` and `ok` holds, or ILLEGAL_OP. -/
def encoding (op : Nat) (w : SlotWord) (ok : Bool) : Option (Nat × Nat) :=
  if opOf w = op ∧ ok = true then none else illegal w

/-- The bundle lies where BR, CALL, JR, LOOPI and LOOPR may not: a delay bundle or an END bundle (R57, R58). -/
def Ctl.noBranchHere (c : Ctl) : Bool := c.branch.isSome || c.loopHere.isSome

/-- The scoreboard check of the rows an operation uses (R77, R79; 03 R480 item 7): blocked, or SB_EXCHANGE. -/
def rowCheck (i : Site) (s : State) (rows : List (Nat × Bool)) (k : Unit → Act) : Act :=
  let x := (s.tile i.t).before (s.startTile i.t).ops
  match rows.find? (fun q => (x.blocking q.1 q.2).isSome) with
  | none => k ()
  | some q =>
    if (s.region i.r).inExchange then
      .fault s fSbExchange (q.1 + ((x.blocking q.1 q.2).getD 0 <<< 16))
    else .block { Need.zero with rows := rows }

/-- The check for `n` free entries, the first range beginning at `row` (R78, R79). -/
def entryCheck (i : Site) (s : State) (n row : Nat) (k : Unit → Act) : Act :=
  if n ≤ (s.tile i.t).freeEntries then k ()
  else if (s.region i.r).inExchange then .fault s fSbExchange (row + (1 <<< 20))
  else .block { Need.zero with entries := n }

/-- Do nothing more. -/
def Act.ok (s : State) : Act := .done s .seq

end Sys2Proof.Machine
end

