-- ==== Sys2Proof/Machine/Spoke.lean ====
section
/-!
DEFINITION. Sys2Proof/Machine/Spoke.lean: the spoke generator (08_spoke_generator.md R215, R217). R215's code is
followed; the table of R216 departs from it in rounds 7 and 9 (log entry 22).
-/
namespace Sys2Proof.Machine
open Sys2Proof

/-- The four words of the generator's state. -/
structure Quad where
  x0 : Word
  x1 : Word
  x2 : Word
  x3 : Word
deriving DecidableEq, Repr

/-- Word `i` of an output. -/
def Quad.get (q : Quad) : Nat → Word
  | 0 => q.x0
  | 1 => q.x1
  | 2 => q.x2
  | _ => q.x3

/-- Round `r` with its rotations and, after every fourth, the injection of the key (R215). -/
def spokeRound (k0 k1 : Word) (r : Nat) (q : Quad) : Quad :=
  let a := [16, 12, 8, 7].getD (r % 4) 0
  let b := [11, 19, 5, 23].getD (r % 4) 0
  let x0 := q.x0 + q.x1
  let x3 := (q.x3 ^^^ x0).rotateLeft a
  let x2 := q.x2 + x3
  let x1 := (q.x1 ^^^ x2).rotateLeft b
  if r % 4 = 3 then
    let i : Word := BitVec.ofNat 32 ((r + 1) / 4)
    { x0 := x1 ^^^ (k0 + i * 0x9E3779B9), x1 := x2 ^^^ (k1 + i * 0xBB67AE85), x2 := x3, x3 := x0 }
  else { x0 := x1, x1 := x2, x2 := x3, x3 := x0 }

/-- `spoke(key, stream, pos, word)` (R215). -/
def spoke (key : DWord) (stream : Word) (pos : DWord) (word : Word) : Quad :=
  let k0 : Word := key.extractLsb' 0 32
  let k1 : Word := key.extractLsb' 32 32
  (List.range 12).foldl (fun q r => spokeRound k0 k1 r q)
    { x0 := word ^^^ k0, x1 := pos.extractLsb' 0 32 ^^^ k1, x2 := pos.extractLsb' 32 32 ^^^ k0, x3 := stream ^^^ k1 }

/-- A stream number (R217). -/
def streamNo (cls tsid tile lane : Nat) : Word :=
  BitVec.ofNat 32 (lane % 256 + ((tile % 8192) <<< 8) + ((tsid % 512) <<< 21) + ((cls % 4) <<< 30))

/-- j* of the audit column (06 R174): bits 4:0 of x0. -/
def auditColumn (seed : DWord) (t : TileId) (passNo : Word) : Nat :=
  (spoke seed (streamNo 1 0 t.toNat 0) (passNo.setWidth 64) 0).x0.toNat % 32

end Sys2Proof.Machine
end

