-- ==== Sys2Proof/Machine/Flags.lean ====
section
/-!
DEFINITION. Sys2Proof/Machine/Flags.lean: the scalar unit's integer operations (02 R53), comparisons, and IEEE 754
arithmetic with the flags of FSR (02 R54 to R56).
-/
namespace Sys2Proof.Machine
open Sys2Proof

/-- ALU FN codes (R53); none is reserved. -/
def aluOp (fn : Nat) (a b : Word) : Option Word :=
  match fn with
  | 0x00 => some (a + b)
  | 0x01 => some (a - b)
  | 0x02 => some (a &&& b)
  | 0x03 => some (a ||| b)
  | 0x04 => some (a ^^^ b)
  | 0x05 => some (a <<< (b.toNat % 32))
  | 0x06 => some (a >>> (b.toNat % 32))
  | 0x07 => some (a.sshiftRight (b.toNat % 32))
  | 0x08 => some (a * b)
  | 0x09 => some (BitVec.ofNat 32 (a.toNat * b.toNat / 2 ^ 32))
  | 0x0A => some (if a.slt b then a else b)
  | 0x0B => some (if a.slt b then b else a)
  | 0x0C => some (if a.ult b then a else b)
  | 0x0D => some (if a.ult b then b else a)
  | _ => none

/-- Latency of an ALU FN: MUL and MULHU take 2 cy (R52). -/
def aluLatency (fn : Nat) : Nat := if fn = 0x08 ∨ fn = 0x09 then 2 else 1

/-- SHI (R52): IMM[11:10] selects, the amount is IMM[4:0]. -/
def shiOp (kind n : Nat) (a : Word) : Word :=
  match kind with
  | 0 => a <<< n
  | 1 => a >>> n
  | _ => a.sshiftRight n

/-- SETP CMP codes (R52). -/
def intCmp (c : Nat) (a b : Word) : Bool :=
  match c with
  | 0 => a == b
  | 1 => a != b
  | 2 => a.slt b
  | 3 => !(a.slt b)
  | 4 => a.ult b
  | _ => !(a.ult b)

/-- PLOG FN codes (R52). -/
def predOp (f : Nat) (a b : Bool) : Bool :=
  match f with
  | 0 => a && b
  | 1 => a || b
  | 2 => a != b
  | _ => a && !b

/-- FSR flag bits: invalid, divide-by-zero, overflow, underflow, inexact (R61). -/
abbrev flInvalid : BitVec 5 := 0b00001
abbrev flDivZero : BitVec 5 := 0b00010
abbrev flInexact : BitVec 5 := 0b10000

/-- A NaN code whose quiet bit is clear (IEEE 754); of E5M2, whose signalling codes the spec does not name, a NaN code whose
top mantissa bit is clear (log entry 106). -/
def isSnan (f : Format) (code : Nat) : Bool := decode f code == .nan && (code >>> (f.mbits - 1)) % 2 == 0

/-- invalid, if a signalling NaN is among the operands. -/
def snanFlag (f : Format) (codes : List Nat) : BitVec 5 := if codes.any (isSnan f) then flInvalid else 0

/-- An arithmetic result: rounded, and invalid when no operand is a NaN but the result is. -/
def arith (f : Format) (rm : Nat) (codes : List Nat) (x : Num) : Flagged :=
  let r := ieeeNum f rm x
  let new := x == .nan && codes.all (fun c => decode f c != .nan)
  { code := r.code, flags := r.flags ||| snanFlag f codes ||| (if new then flInvalid else 0) }

/-- FMA (R54, R56): an infinity times a zero is invalid whatever the addend. -/
def fmaOp (f : Format) (rm d a b : Nat) : Flagged :=
  let x := decode f a
  let y := decode f b
  let z := decode f d
  let bad := (match x, y with
    | .inf _, .fin _ m _ => m == 0
    | .fin _ m _, .inf _ => m == 0
    | _, _ => false)
  let r := arith f rm [d, a, b] (Num.add (rm == 3) (x.mul y) z)
  if bad then { code := encNan f, flags := r.flags ||| flInvalid } else r

/-- minimumNumber and maximumNumber on codes. -/
def minMaxOp (f : Format) (max : Bool) (a b : Nat) : Flagged :=
  let r := if max then Num.maxNum (decode f a) (decode f b) else Num.minNum (decode f a) (decode f b)
  { code := (ieeeNum f 0 r).code, flags := snanFlag f [a, b] }

/-- ABS or NEG: a sign-bit operation, no flag (R56). -/
def signOp (f : Format) (neg : Bool) (a : Nat) : Flagged :=
  let s := 2 ^ (f.width - 1)
  { code := if neg then (if (a >>> (f.width - 1)) % 2 = 1 then a - s else a + s) else a % s, flags := 0 }

/-- A signed 32-bit integer as a number. -/
def intNum (a : Word) : Num := .fin a.msb a.toInt.natAbs 0

/-- A magnitude rounded to an integer, and whether it changed. -/
def roundInt (rm : Nat) (neg : Bool) (m : Nat) (e : Int) : Nat × Bool :=
  if e ≥ 0 then (m <<< e.toNat, false)
  else
    let r := roundMag (bitLen m + e.natAbs + 1) (some 0) (dirOf rm neg) m e
    (r.1 <<< r.2.1.toNat, r.2.2)

/-- To a signed integer: saturating, NaN gives 0 (R54, R56). -/
def toInt (f : Format) (rm a : Nat) : Flagged :=
  match decode f a with
  | .nan => { code := 0, flags := flInvalid }
  | .inf n => { code := if n then 0x80000000 else 0x7FFFFFFF, flags := flInvalid }
  | .fin n m e =>
    let r := roundInt rm n m e
    if (n ∧ r.1 > 2 ^ 31) ∨ (!n ∧ r.1 ≥ 2 ^ 31) then
      { code := if n then 0x80000000 else 0x7FFFFFFF, flags := flInvalid }
    else { code := if n then (2 ^ 32 - r.1) % 2 ^ 32 else r.1, flags := if r.2 then flInexact else 0 }

/-- Between FP32 and FP64 (R54 FN 0x0A). -/
def convOp (src d : Format) (rm a : Nat) : Flagged :=
  let r := ieeeNum d rm (decode src a)
  { code := r.code, flags := r.flags ||| snanFlag src [a] }

/-- The FP operation FN in format `f` (R54): codes of rd, ra, rb; for FN 0x08 `a` is the integer. -/
def fpOp (f : Format) (fn rm d a b : Nat) : Flagged :=
  let x := decode f a
  let y := decode f b
  match fn with
  | 0x00 => arith f rm [a, b] (Num.add (rm == 3) x y)
  | 0x01 => arith f rm [a, b] (Num.add (rm == 3) x y.negate)
  | 0x02 => arith f rm [a, b] (x.mul y)
  | 0x03 => fmaOp f rm d a b
  | 0x04 => minMaxOp f false a b
  | 0x05 => minMaxOp f true a b
  | 0x06 =>
    let r := arith f rm [a, b] (x.div y)
    let dz := match x with
      | .fin _ m _ => m != 0 && y.isZero
      | _ => false
    { r with flags := r.flags ||| (if dz then flDivZero else 0) }
  | 0x07 => arith f rm [a] x.sqrt
  | 0x08 => ieeeNum f rm (intNum (BitVec.ofNat 32 a))
  | 0x09 => toInt f rm a
  | 0x0A => if f = .fp32 then convOp .fp32 .fp64 rm a else convOp .fp64 .fp32 rm a
  | 0x0B => signOp f false a
  | _ => signOp f true a

/-- Latency of FN (R54). -/
def fpLatency (wide : Bool) (fn : Nat) : Nat :=
  if fn = 6 ∨ fn = 7 then (if wide then 32 else 16) else (if wide then 8 else 4)

/-- FSETP comparisons (R52, R56): EQ, LT, LE, UNORDERED, with the flags raised. -/
def fpCmp (f : Format) (c a b : Nat) : Bool × BitVec 5 :=
  let x := decode f a
  let y := decode f b
  let un := x == .nan || y == .nan
  match c % 4 with
  | 0 => (Num.eq x y, snanFlag f [a, b])
  | 1 => (Num.lt x y, if un then flInvalid else 0)
  | 2 => (Num.lt x y || Num.eq x y, if un then flInvalid else 0)
  | _ => (un, snanFlag f [a, b])

/-- RN to FP32 of an exact value, as a code (06 R178, R181). -/
def rn32 (x : Num) : Word := BitVec.ofNat 32 (ieeeNum .fp32 0 x).code

/-- Value of an FP32 code. -/
def fp32 (x : Word) : Num := decode .fp32 x.toNat

end Sys2Proof.Machine
end

