-- ==== Sys2Proof/Machine/Creg.lean ====
section
/-!
DEFINITION. Sys2Proof/Machine/Creg.lean: the tile control registers that MFC reads and MTC writes (02 R61; 06 R173,
R179, R181; 07 R213; 08 R223; 09 R248; 10 R280; 15 R390).
-/
namespace Sys2Proof.Machine
open Sys2Proof

/-- How a register may be reached. -/
inductive CregAccess where
  | none_ | ro | rw | wo
deriving DecidableEq, Repr

/-- The access of each register number; a number without a register has none. -/
def cregAccess (n : Nat) : CregAccess :=
  if n ≤ 0x003 ∨ n = 0x005 then .ro
  else if n = 0x004 then .rw
  else if (0x008 ≤ n ∧ n ≤ 0x00B) ∨ (0x010 ≤ n ∧ n ≤ 0x018) then .ro
  else if n = 0x020 then .rw
  else if 0x021 ≤ n ∧ n ≤ 0x025 then .ro
  else if n = 0x034 ∨ n = 0x03A ∨ n = 0x03B ∨ n = 0x03D then .ro
  else if 0x030 ≤ n ∧ n ≤ 0x03C then .rw
  else if 0x040 ≤ n ∧ n ≤ 0x045 then .rw
  else if n = 0x046 ∨ n = 0x04B then .ro
  else if 0x048 ≤ n ∧ n ≤ 0x04A then .rw
  else if n = 0x050 then .rw
  else if n = 0x051 then .ro
  else if 0x058 ≤ n ∧ n ≤ 0x05C then .rw
  else if n = 0x060 then .ro
  else if 0x068 ≤ n ∧ n ≤ 0x06B then .ro
  else if n = 0x070 then .wo
  else .none_

/-- A register of the table of 06 R181: its MFC waits for asynchronous jobs (06 R167). -/
def cregHeadroom (n : Nat) : Bool := decide (0x030 ≤ n) && decide (n ≤ 0x04B)

/-- SUM0 to SUM7 and VFSR: their MFC waits for asynchronous jobs with summaries (07 R208). -/
def cregSummary (n : Nat) : Bool := (decide (0x010 ≤ n) && decide (n ≤ 0x017)) || n == 0x050

/-! ### Scale slots (06 R169 to R173) -/

/-- A scale slot of a tile. -/
def Guards.slot (x : Guards) (n : Nat) : ScaleSlot := Tab.get ScaleSlot.reset x.slots n

/-- The valid entries of a slot: the last COUNT pushed before HEAD (R173). -/
def ScaleSlot.valid (x : ScaleSlot) : List Word :=
  (List.range x.count).map (fun k => x.ring.get ((x.head + 15 - k) % 16))

/-- HMAX: the largest of the finite valid entries, if there is one (R169, R173). -/
def ScaleSlot.hmax (x : ScaleSlot) : Option Word :=
  x.valid.foldl (fun m v =>
    if Word.bits v 23 8 = 255 then m
    else match m with
      | none => some v
      | some b => some (if Num.lt (fp32 b) (fp32 v) then v else b)) none

/-- Push an amax (R170). -/
def ScaleSlot.push (x : ScaleSlot) (v : Word) : ScaleSlot :=
  { ring := x.ring.put (x.head % 16) v, head := (x.head + 1) % 16, count := min (x.count + 1) 16 }

/-! ### Computed values -/

/-- RN of the audit (05 R155, R157): one rounding to FP32, a result below min normal is +0. -/
def rnAudit (x : Num) : Word := BitVec.ofNat 32 (tensorNum .fp32 x).1

/-- AUDIT_MEAN (06 R181). -/
def Guards.mean (x : Guards) : Word :=
  if x.audN = 0 then 0 else rnAudit ((fp32 x.audSum).div (.fin false x.audN.toNat 0))

/-- FP32 a exceeds b, strictly. -/
def fpExceeds (a b : Word) : Bool := Num.lt (fp32 b) (fp32 a)

/-- ESC_STATUS (06 R179). -/
def Guards.esc (x : Guards) : Word :=
  let b (c : Bool) (n : Nat) : Nat := if c then 2 ^ n else 0
  BitVec.ofNat 32 (b (x.thClip.ult x.clip) 0 + b (x.thUflow.ult x.uflow) 1 + b (x.thNan.ult x.nan) 2
    + b (x.thSubflush.ult x.subflush) 3 + b (fpExceeds x.audMax x.thAudMax) 4 + b (fpExceeds x.mean x.thAudMean) 5)

/-- State code of a channel (10 R280). -/
def ChState.code : ChState → Nat
  | .closed => 0 | .opening => 1 | .open_ => 2 | .closing => 3

/-- Send channel `n` of a tile. -/
def Tile.chan (x : Tile) (n : Nat) : Chan := Tab.get Chan.reset x.chans n

/-- Receive port `n` of a tile, 4 for VCQ. -/
def Tile.rx (x : Tile) (n : Nat) : RxPort := Tab.get RxPort.reset x.ports n

/-- CH_STAT (10 R280). -/
def Tile.chStat (x : Tile) : Word :=
  BitVec.ofNat 32 (((List.range 4).map (fun n => (x.chan n).st.code * 4 ^ n + (x.chan n).credits * 16 ^ n * 256)).sum)

/-- CQ_STAT (10 R280). -/
def Tile.cqStat (x : Tile) : Word :=
  BitVec.ofNat 32 (((List.range 5).map (fun n =>
    (x.rx n).buf.length * 16 ^ n + (if (x.rx n).bound.isSome then 2 ^ (24 + n) else 0))).sum)

/-- SYNC_TSTAT (10 R280): SENSE once it has been taken and 20 cy have passed since the SARR. -/
def Tile.tstat (x : Tile) (now : Nat) : Word :=
  match x.split with
  | none => 0
  | some (o, sense, issued) =>
    BitVec.ofNat 32 (o.toNat + 2 ^ 16 + (if sense = some true ∧ issued + 20 ≤ now then 2 ^ 17 else 0))

/-- The vector mode of a tile: as set at a barrier, else the tile map's (01 R30; 07 R205). -/
def Tile.vmode (x : Tile) (g : Region) (t : TileId) : Bool := match x.vec.mode with
  | some m => m
  | none => match g.cfg with
    | some c => (c.entry t).getLsbD 2
    | none => false

/-- CH_RANK of a tile (10 R272; 16 R410). -/
def Region.rank (g : Region) (t : TileId) : Nat := match g.cfg with
  | some c => (g.ranks.getD (c.index t) 0).toNat
  | none => 0

/-- Stages a group of a job passes, four cycles each (07 R199): those of its chain, or its program's instructions. -/
def JobSetup.depth (u : JobSetup) : Nat := if Word.bits u.vj 0 2 = 1 then u.prog.length else Word.bits u.vj 2 4

/-- A group of a job is in the stages: it has entered stage 1 and its result is not available yet (07 R199). -/
def Job.inStages (j : Job) (now : Nat) : Bool := j.groups.any (fun q =>
  decide (q.start + q.len + 1 ≤ now) && decide (now < q.start + q.len + 1 + 4 * j.setup.depth))

/-- VSTAT (07 R213). -/
def Tile.vstat (x : Tile) (now : Nat) : Word :=
  let busy := x.vec.jobs.any (fun j => j.inStages now) || x.matrix.drains.any (fun d => d.job.inStages now)
  BitVec.ofNat 32 (x.vec.asyncs.length + (if busy then 4 else 0) + (match x.vec.pending with
    | none => 0
    | some m => 8 + (if m then 16 else 0)))

/-- Receives armed: those with rows still to come, at most four (09 R235, R248). -/
def Exch.armedNow (e : Exch) : Nat := min 4 (e.armed.filter (fun a => decide (a.done < a.n))).length

/-- XSTAT (09 R248). -/
def Tile.xstat (x : Tile) (g : Region) : Word :=
  BitVec.ofNat 32 (x.exch.win.toNat + x.exch.nextWin.toNat * 256 + (if g.inExchange then 2 ^ 16 else 0)
    + x.exch.armedNow * 2 ^ 17)

/-- The value an MFC of register `n` returns at site `i`: the register as the bundle of this cycle found it, before what
the other slots of the bundle do in it (02 R49; 08 R221; 15 R390). SB_STATUS so counts no entry of the same bundle, which no
rule says in words, and AMAX_HMAX reads 0 where the valid entries are all non-finite, which R181 says only of COUNT 0
(log entries 88, 94). -/
def cregRead (s : State) (i : Site) (n : Nat) : Word :=
  let g := s.region i.r
  let x := s.startTile i.t
  let h := s.tileHw i.t
  let cyc : DWord := BitVec.ofNat 64 (g.cyc x)
  match n with
  | 0x000 => i.t.setWidth 32
  | 0x001 => i.r.setWidth 32
  | 0x002 => cyc.extractLsb' 0 32
  | 0x003 => x.ctl.cycHi
  | 0x004 => x.ctl.fsr.setWidth 32
  | 0x005 => BitVec.ofNat 32 (g.gear i.t + (if x.vmode g i.t then 4 else 0))
  | 0x008 => x.ctl.lc.get 0
  | 0x009 => x.ctl.lc.get 1
  | 0x00A => x.ctl.lc.get 2
  | 0x00B => x.ctl.lc.get 3
  | 0x018 => BitVec.ofNat 32 x.sb.length
  | 0x020 => x.ctl.retain.setWidth 32
  | 0x021 => x.ctl.retainLost.setWidth 32
  | 0x022 => h.tmCe
  | 0x023 => h.pmCe
  | 0x024 => h.late.setWidth 32
  | 0x025 => h.tmUe
  | 0x030 => x.guards.clip
  | 0x031 => x.guards.uflow
  | 0x032 => x.guards.nan
  | 0x033 => x.guards.subflush
  | 0x034 => x.matrix.passNo
  | 0x035 => x.guards.seed.extractLsb' 0 32
  | 0x036 => x.guards.seed.extractLsb' 32 32
  | 0x037 => x.guards.audMax
  | 0x038 => x.guards.audSum
  | 0x039 => x.guards.audN
  | 0x03A => x.guards.mean
  | 0x03B => x.guards.audLast
  | 0x03C => x.guards.audNf
  | 0x03D => BitVec.ofNat 32 (x.guards.audCol.toNat + x.matrix.valid.toNat * 256)
  | 0x040 => x.guards.thClip
  | 0x041 => x.guards.thUflow
  | 0x042 => x.guards.thNan
  | 0x043 => x.guards.thSubflush
  | 0x044 => x.guards.thAudMax
  | 0x045 => x.guards.thAudMean
  | 0x046 => x.guards.esc
  | 0x048 => x.guards.sel.setWidth 32
  | 0x049 => (x.guards.slot (Word.bits x.guards.sel 0 6)).ring.get (Word.bits x.guards.sel 8 4)
  | 0x04A =>
    let q := x.guards.slot (Word.bits x.guards.sel 0 6)
    BitVec.ofNat 32 (q.head + q.count * 16)
  | 0x04B => ((x.guards.slot (Word.bits x.guards.sel 0 6)).hmax).getD 0
  | 0x050 => x.vec.vfsr.setWidth 32
  | 0x051 => x.vstat i.now
  | 0x058 => x.vec.key.extractLsb' 0 32
  | 0x059 => x.vec.key.extractLsb' 32 32
  | 0x05A => x.vec.pos.extractLsb' 0 32
  | 0x05B => x.vec.posHi
  | 0x05C => x.vec.tsid.setWidth 32
  | 0x060 => x.xstat g
  | 0x068 => BitVec.ofNat 32 (g.rank i.t)
  | 0x069 => x.chStat
  | 0x06A => x.cqStat
  | 0x06B => x.tstat i.now
  | n => if 0x010 ≤ n ∧ n ≤ 0x017 then x.vec.sum.get (n - 0x010) else 0

/-- What a read of register `n` latches (02 R61; 08 R223). `pos0` is SPK_POS as the read finds it. -/
def cregLatch (g : Region) (pos0 : DWord) (n : Nat) (x : Tile) : Tile :=
  if n = 0x002 then
    { x with ctl := { x.ctl with cycHi := (BitVec.ofNat 64 (g.cyc x) : DWord).extractLsb' 32 32 } }
  else if n = 0x05A then { x with vec := { x.vec with posHi := pos0.extractLsb' 32 32 } }
  else x

/-- The tile after an MTC of `v` to register `n`. `pos0` is SPK_POS before a drawing job of the same bundle (08 R221;
15 R390). -/
def cregWrite (now : Nat) (pos0 : DWord) (n : Nat) (v : Word) (x : Tile) : Tile :=
  let q := x.guards
  match n with
  | 0x004 => { x with ctl := { x.ctl with fsr := v.setWidth 7 } }
  | 0x020 => { x with ctl := { x.ctl with retain := v.setWidth 24 } }
  | 0x030 => { x with guards := { q with clip := v } }
  | 0x031 => { x with guards := { q with uflow := v } }
  | 0x032 => { x with guards := { q with nan := v } }
  | 0x033 => { x with guards := { q with subflush := v } }
  | 0x035 => { x with guards := { q with seed := Word.put q.seed 0 32 v.toNat } }
  | 0x036 => { x with guards := { q with seed := Word.put q.seed 32 32 v.toNat } }
  | 0x037 => { x with guards := { q with audMax := v } }
  | 0x038 => { x with guards := { q with audSum := v } }
  | 0x039 => { x with guards := { q with audN := v } }
  | 0x03C => { x with guards := { q with audNf := v } }
  | 0x040 => { x with guards := { q with thClip := v } }
  | 0x041 => { x with guards := { q with thUflow := v } }
  | 0x042 => { x with guards := { q with thNan := v } }
  | 0x043 => { x with guards := { q with thSubflush := v } }
  | 0x044 => { x with guards := { q with thAudMax := v } }
  | 0x045 => { x with guards := { q with thAudMean := v } }
  | 0x048 => { x with guards := { q with sel := v.setWidth 12 &&& 0xF3F } }
  | 0x049 =>
    let n := Word.bits q.sel 0 6
    let y := q.slot n
    { x with guards := { q with slots := q.slots.put n { y with ring := y.ring.put (Word.bits q.sel 8 4) v } } }
  | 0x04A =>
    let n := Word.bits q.sel 0 6
    let y := q.slot n
    { x with guards := { q with slots := q.slots.put n { y with head := Word.bits v 0 4, count := Word.bits v 4 5 } } }
  | 0x050 => { x with vec := { x.vec with vfsr := v.setWidth 5 } }
  | 0x058 => { x with vec := { x.vec with key := Word.put x.vec.key 0 32 v.toNat } }
  | 0x059 => { x with vec := { x.vec with key := Word.put x.vec.key 32 32 v.toNat } }
  | 0x05A => { x with vec := { x.vec with pos := Word.put pos0 0 32 v.toNat } }
  | 0x05B => { x with vec := { x.vec with pos := Word.put pos0 32 32 v.toNat } }
  | 0x05C => { x with vec := { x.vec with tsid := v.setWidth 9 } }
  | 0x070 => { x with mark := x.mark ++ [(v, x.vec.key, pos0, x.vec.tsid, now + 10)] }
  | _ => x

end Sys2Proof.Machine
end

