-- ==== Sys2Proof/Machine/Scalar.lean ====
section
/-!
DEFINITION. Sys2Proof/Machine/Scalar.lean: the S-slot operations of 02_tile.md R52 to R60, and the pop of a receive
port (10 R275, R277).
-/
namespace Sys2Proof.Machine
open Sys2Proof

/-- A result for g[RD], readable `lat` cycles later (R49). -/
def putReg (i : Site) (rd : Nat) (v : Word) (lat : Nat) (s : State) : Act :=
  .ok (i.ctl s (fun c => c.setReg rd v i.now (i.now + lat)))

/-- A one-cycle operation on g[RA] and an immediate. -/
def immOp (t : TileId) (w : SlotWord) (op : Nat) (f : Word → Word) (s : State) : State :=
  slotOp .s op t w (fun i _ => encoding op i.w true)
    (fun i s => putReg i (rdOf i.w) (f ((s.tile i.t).ctl.reg (raOf i.w))) 1 s) s

/-- OP 0x00 does nothing (R48); an OP the slot does not define faults (R50). -/
def execNop (t : TileId) (slot : Slot) (w : SlotWord) (s : State) : Host.Outcome State Fault Refusal :=
  .next (slotOp slot 0x00 t w (fun i _ => encoding 0x00 i.w true) (fun _ s => .ok s) s)

/-- ALU (R53). -/
def execAlu (t : TileId) (w : SlotWord) (s : State) : Host.Outcome State Fault Refusal :=
  .next (slotOp .s 0x01 t w (fun i _ => encoding 0x01 i.w (aluOp (fnOf i.w) 0 0).isSome)
    (fun i s =>
      let c := (s.tile i.t).ctl
      putReg i (rdOf i.w) ((aluOp (fnOf i.w) (c.reg (raOf i.w)) (c.reg (rbOf i.w))).getD 0) (aluLatency (fnOf i.w)) s) s)

/-- ADDI (R52). -/
def execAddi (t : TileId) (w : SlotWord) (s : State) : Host.Outcome State Fault Refusal :=
  .next (immOp t w 0x02 (fun a => a + simmOf w) s)

/-- ANDI (R52). -/
def execAndi (t : TileId) (w : SlotWord) (s : State) : Host.Outcome State Fault Refusal :=
  .next (immOp t w 0x03 (fun a => a &&& simmOf w) s)

/-- ORI (R52). -/
def execOri (t : TileId) (w : SlotWord) (s : State) : Host.Outcome State Fault Refusal :=
  .next (immOp t w 0x04 (fun a => a ||| simmOf w) s)

/-- XORI (R52). -/
def execXori (t : TileId) (w : SlotWord) (s : State) : Host.Outcome State Fault Refusal :=
  .next (immOp t w 0x05 (fun a => a ^^^ simmOf w) s)

/-- SHI (R52): IMM[11:10] 3 is reserved, IMM[9:5] is 0. -/
def execShi (t : TileId) (w : SlotWord) (s : State) : Host.Outcome State Fault Refusal :=
  .next (slotOp .s 0x06 t w (fun i _ => encoding 0x06 i.w (decide (Word.bits i.w 10 2 ≠ 3) && zeroAt i.w 5 5))
    (fun i s => putReg i (rdOf i.w) (shiOp (Word.bits i.w 10 2) (Word.bits i.w 0 5) ((s.tile i.t).ctl.reg (raOf i.w))) 1 s)
    s)

/-- LUI (R52). -/
def execLui (t : TileId) (w : SlotWord) (s : State) : Host.Outcome State Fault Refusal :=
  .next (slotOp .s 0x07 t w (fun i _ => encoding 0x07 i.w true)
    (fun i s => putReg i (rdOf i.w) (BitVec.ofNat 32 (uimmOf i.w <<< 15)) 1 s) s)

/-- SETP (R52): CMP 6 and 7 are reserved. -/
def execSetp (t : TileId) (w : SlotWord) (s : State) : Host.Outcome State Fault Refusal :=
  .next (slotOp .s 0x08 t w (fun i _ => encoding 0x08 i.w (decide (cmpOf i.w < 6) && zeroAt i.w 0 6))
    (fun i s =>
      let c := (s.tile i.t).ctl
      let v := intCmp (cmpOf i.w) (c.reg (praOf i.w)) (c.reg (prbOf i.w))
      .ok (i.ctl s (fun c => c.setPred (pdOf i.w) v i.now (i.now + 1)))) s)

/-- PLOG (R52). -/
def execPlog (t : TileId) (w : SlotWord) (s : State) : Host.Outcome State Fault Refusal :=
  .next (slotOp .s 0x09 t w (fun i _ => encoding 0x09 i.w (zeroAt i.w 0 11))
    (fun i s =>
      let c := (s.tile i.t).ctl
      let v := predOp (Word.bits i.w 11 2) (c.pred (Word.bits i.w 16 3)) (c.pred (Word.bits i.w 13 3))
      .ok (i.ctl s (fun c => c.setPred (pdOf i.w) v i.now (i.now + 1)))) s)

/-- The encoding checks of a branch: its fields, and not in a delay or END bundle (R57, R58). -/
def branchEnc (op : Nat) (i : Site) (s : State) (ok : Bool) : Option (Nat × Nat) :=
  encoding op i.w (ok && !(s.tile i.t).ctl.noBranchHere)

/-- BR (R52, R57). -/
def execBr (t : TileId) (w : SlotWord) (s : State) : Host.Outcome State Fault Refusal :=
  .next (slotOp .s 0x0A t w (fun i s => branchEnc 0x0A i s (zeroAt i.w 11 11)) (fun i s => .done s (.branch (baOf i.w))) s)

/-- CALL (R52): g31 is the address of the bundle after the delay bundle, readable a cycle later. -/
def execCall (t : TileId) (w : SlotWord) (s : State) : Host.Outcome State Fault Refusal :=
  .next (slotOp .s 0x0B t w (fun i s => branchEnc 0x0B i s (zeroAt i.w 11 11))
    (fun i s => .done (i.ctl s (fun c => c.setReg 31 (BitVec.ofNat 32 (i.pc.toNat + 2)) i.now (i.now + 1)))
      (.branch (baOf i.w))) s)

/-- JR (R52). -/
def execJr (t : TileId) (w : SlotWord) (s : State) : Host.Outcome State Fault Refusal :=
  .next (slotOp .s 0x0C t w (fun i s => branchEnc 0x0C i s (zeroAt i.w 17 5 && zeroAt i.w 0 12))
    (fun i s => .done s (.branch (((s.tile i.t).ctl.reg (raOf i.w)).extractLsb' 0 11))) s)

/-- The checks of LOOPI and LOOPR (R57, R58; 03 R480 item 1): the placement and END > PC, then the nest. -/
def loopEnc (op : Nat) (i : Site) (s : State) (ok : Bool) : Option (Nat × Nat) :=
  let c := (s.tile i.t).ctl
  match branchEnc op i s (ok && decide (i.pc.toNat < (baOf i.w).toNat)) with
  | some f => some f
  | none =>
    let bad := c.loops.any (fun l => l.lc.toNat == lcOf i.w || l.stop == baOf i.w)
      || (match c.loops.head? with
          | some l => decide (l.stop < baOf i.w)
          | none => false)
    if bad then some (fLoopNest, (baOf i.w).toNat + (lcOf i.w <<< 16)) else none

/-- Start a loop of `count` iterations, or skip its body (R58). -/
def loopStart (i : Site) (count : Word) (s : State) : Act :=
  let n := lcOf i.w
  if count = 0 then .done (i.ctl s (fun c => { c with lc := c.lc.put n 0 })) (.skip ((baOf i.w).toNat + 1))
  else .ok (i.ctl s (fun c => { c with
    lc := c.lc.put n count,
    loops := { lc := BitVec.ofNat 2 n, start := BitVec.ofNat 11 (i.pc.toNat + 1), stop := baOf i.w } :: c.loops }))

/-- LOOPI (R58). -/
def execLoopi (t : TileId) (w : SlotWord) (s : State) : Host.Outcome State Fault Refusal :=
  .next (slotOp .s 0x0D t w (fun i s => loopEnc 0x0D i s true)
    (fun i s => loopStart i (BitVec.ofNat 32 (countOf i.w)) s) s)

/-- LOOPR (R58). -/
def execLoopr (t : TileId) (w : SlotWord) (s : State) : Host.Outcome State Fault Refusal :=
  .next (slotOp .s 0x0E t w (fun i s => loopEnc 0x0E i s (zeroAt i.w 11 4))
    (fun i s => loopStart i ((s.tile i.t).ctl.reg (lraOf i.w)) s) s)

/-- Raise FSR flags with a result (R56, R61). -/
def putFlags (i : Site) (fl : BitVec 5) (lat : Nat) (s : State) : State :=
  i.ctl s (fun c => { c with ff := c.ff ++ [(i.now + lat, fl)] })

/-- Fields of FOP and DOP (R54, R55): FN defined, RB 0 for SQRT, pairs named by even registers. -/
def fpEnc (wide : Bool) (w : SlotWord) : Bool :=
  let fn := fnOf w
  let two := fn ≤ 6
  decide (fn ≤ 0x0C) && (fn != 7 || rbOf w == 0)
  && (if wide then
        (fn == 0x08 || raOf w % 2 == 0) && (fn == 0x09 || fn == 0x0A || rdOf w % 2 == 0) && (!two || rbOf w % 2 == 0)
      else (fn != 0x0A || rdOf w % 2 == 0))

/-- FOP (R54 to R56). -/
def execFop (t : TileId) (w : SlotWord) (s : State) : Host.Outcome State Fault Refusal :=
  .next (slotOp .s 0x10 t w (fun i _ => encoding 0x10 i.w (fpEnc false i.w))
    (fun i s =>
      let c := (s.tile i.t).ctl
      let fn := fnOf i.w
      let lat := fpLatency false fn
      let r := fpOp .fp32 fn (Word.bits c.fsr 0 2) (c.reg (rdOf i.w)).toNat (c.reg (raOf i.w)).toNat
        (c.reg (rbOf i.w)).toNat
      let s := putFlags i r.flags lat s
      if fn = 0x0A then .ok (i.ctl s (fun c => c.setPair (rdOf i.w) (BitVec.ofNat 64 r.code) i.now (i.now + lat)))
      else putReg i (rdOf i.w) (BitVec.ofNat 32 r.code) lat s) s)

/-- DOP (R54 to R56). -/
def execDop (t : TileId) (w : SlotWord) (s : State) : Host.Outcome State Fault Refusal :=
  .next (slotOp .s 0x11 t w (fun i _ => encoding 0x11 i.w (fpEnc true i.w))
    (fun i s =>
      let c := (s.tile i.t).ctl
      let fn := fnOf i.w
      let lat := fpLatency true fn
      let a := if fn = 0x08 then (c.reg (raOf i.w)).toNat else (c.pair (raOf i.w)).toNat
      let r := fpOp .fp64 fn (Word.bits c.fsr 0 2) (c.pair (rdOf i.w)).toNat a (c.pair (rbOf i.w)).toNat
      let s := putFlags i r.flags lat s
      if fn = 0x09 ∨ fn = 0x0A then putReg i (rdOf i.w) (BitVec.ofNat 32 r.code) lat s
      else .ok (i.ctl s (fun c => c.setPair (rdOf i.w) (BitVec.ofNat 64 r.code) i.now (i.now + lat)))) s)

/-- FSETP (R52, R55, R56): CMP 4 to 7 compare FP64 pairs. -/
def execFsetp (t : TileId) (w : SlotWord) (s : State) : Host.Outcome State Fault Refusal :=
  .next (slotOp .s 0x12 t w
    (fun i _ => encoding 0x12 i.w (zeroAt i.w 0 6 && (decide (cmpOf i.w < 4) || (praOf i.w % 2 == 0 && prbOf i.w % 2 == 0))))
    (fun i s =>
      let c := (s.tile i.t).ctl
      let wide := decide (4 ≤ cmpOf i.w)
      let lat := if wide then 8 else 4
      let r := if wide then fpCmp .fp64 (cmpOf i.w) (c.pair (praOf i.w)).toNat (c.pair (prbOf i.w)).toNat
        else fpCmp .fp32 (cmpOf i.w) (c.reg (praOf i.w)).toNat (c.reg (prbOf i.w)).toNat
      let s := putFlags i r.2 lat s
      .ok (i.ctl s (fun c => c.setPred (pdOf i.w) r.1 i.now (i.now + lat)))) s)

/-- The first scoreboard entry of an asynchronous job of a tile, if one is busy. -/
def Tile.asyncEntry (x : Tile) (sumOnly : Bool) : Option (Nat × SbEntry) :=
  x.sb.find? (fun e => x.vec.asyncs.any (fun j => j.op == e.2.op && (!sumOnly || Word.bit j.setup.vj 25)))

/-- MFC (R61; 06 R167; 07 R208): blocked while an asynchronous job may still change what it reads. -/
def execMfc (t : TileId) (w : SlotWord) (s : State) : Host.Outcome State Fault Refusal :=
  .next (slotOp .s 0x18 t w (fun i _ => encoding 0x18 i.w (cregAccess (immOf i.w) != .none_ && zeroAt i.w 12 5))
    (fun i s =>
      let n := immOf i.w
      let x := (s.tile i.t).before (s.startTile i.t).ops
      let wait := if cregHeadroom n then x.asyncEntry false else if cregSummary n then x.asyncEntry true else none
      match wait with
      | some e =>
        if (s.region i.r).inExchange then .fault s fSbExchange (e.2.first + (e.1 <<< 16))
        else .block { Need.zero with asyncs := cregHeadroom n, sumAsyncs := cregSummary n }
      | none =>
        let v := cregRead s i n
        putReg i (rdOf i.w) v 1 (i.tile s (cregLatch (s.region i.r) (s.startTile i.t).vec.pos n))) s)

/-- MTC (R61; 06 R173: AMAX_META with COUNT above 16 faults). -/
def execMtc (t : TileId) (w : SlotWord) (s : State) : Host.Outcome State Fault Refusal :=
  .next (slotOp .s 0x19 t w
    (fun i _ => encoding 0x19 i.w ((cregAccess (immOf i.w) == .rw || cregAccess (immOf i.w) == .wo) && zeroAt i.w 17 5))
    (fun i s =>
      let v := (s.tile i.t).ctl.reg (raOf i.w)
      let pos0 := (s.startTile i.t).vec.pos
      if immOf i.w = 0x04A ∧ Word.bits v 4 5 > 16 then .fault s fIllegalOp i.w.toNat
      else .ok (i.tile (s.parityClean (fun h => h.tile == some i.t && h.loc == parityAt 1 (immOf i.w)))
        (cregWrite i.now pos0 (immOf i.w) v))) s)

/-- The row ROWLD and ROWST name: ra + IMM (R52). -/
def rowOperand (i : Site) (s : State) : Nat := ((s.tile i.t).ctl.reg (raOf i.w) + simmOf i.w).toNat

/-- ROWLD (R52, R72, R73): readable 2 cy later. The row is the whole 32-bit sum; DETAIL holds its low ten bits, and a sum of
1,024 or more faults BAD_ROW like the rows R63 names (log entry 95). -/
def execRowld (t : TileId) (w : SlotWord) (s : State) : Host.Outcome State Fault Refusal :=
  .next (slotOp .s 0x1A t w (fun i _ => encoding 0x1A i.w (zeroAt i.w 17 5))
    (fun i s =>
      let row := rowOperand i s
      match readRowFault row with
      | some c => .fault s c (row % 1024)
      | none => rowCheck i s [(row, false)] (fun _ =>
          match s.readRow i.r i.t row i.now i.mark with
          | (_, some word, s) => .fault s fTmemPoison (row + (word <<< 16))
          | (v, none, s) => .ok (i.ctl s (fun c => { c with
              srbw := c.srbw ++ [{ word := none, val := v, ready := i.now + 2 }] })))) s)

/-- ROWST (R52, R71), with the row and DETAIL of ROWLD (log entry 95). -/
def execRowst (t : TileId) (w : SlotWord) (s : State) : Host.Outcome State Fault Refusal :=
  .next (slotOp .s 0x1B t w (fun i _ => encoding 0x1B i.w (zeroAt i.w 17 5))
    (fun i s =>
      let row := rowOperand i s
      match writeRowFault row with
      | some c => .fault s c (row % 1024)
      | none => rowCheck i s [(row, true)] (fun _ => .ok (s.writeRow i.r i.t row (s.tile i.t).ctl.srb i.mark))) s)

/-- LDW (R52). -/
def execLdw (t : TileId) (w : SlotWord) (s : State) : Host.Outcome State Fault Refusal :=
  .next (slotOp .s 0x1C t w (fun i _ => encoding 0x1C i.w true)
    (fun i s =>
      let c := (s.tile i.t).ctl
      putReg i (rdOf i.w) (rowWord c.srb ((c.reg (raOf i.w) + simmOf i.w).toNat % 128)) 1 s) s)

/-- STW (R52): RD names the index register. -/
def execStw (t : TileId) (w : SlotWord) (s : State) : Host.Outcome State Fault Refusal :=
  .next (slotOp .s 0x1D t w (fun i _ => encoding 0x1D i.w true)
    (fun i s =>
      let c := (s.tile i.t).ctl
      let k := (c.reg (rdOf i.w) + simmOf i.w).toNat % 128
      .ok (i.ctl s (fun c => { c with
        srbw := c.srbw ++ [{ word := some (BitVec.ofNat 7 k), val := setRowWord 0 k (c.reg (raOf i.w)),
                             ready := i.now + 1 }] }))) s)

/-- A channel operation in an exchange phase faults XWINDOW with DETAIL zero (10 R278). -/
def channelPhase (i : Site) (s : State) (k : Unit → Act) : Act :=
  if (s.region i.r).inExchange then .fault s fXwindow 0 else k ()

/-- A credit is on its way to a send channel (10 R275). -/
def creditBack (src : TileId) (ch : Nat) (s : State) : State := s.modTile src (fun y =>
  let h := y.chan ch
  { y with chans := y.chans.put ch { h with back := h.back + 1 } })

/-- The sender of the port gets a credit on its way for one message that tile `t` popped (10 R275). It leaves at the end of
the cycle; one that a bundle popped is noted under its tile, so that a bundle without effect returns none. -/
def returnCredit (r : RegionId) (t : TileId) (x : RxPort) (s : State) : State := match x.bound with
  | some (src, ch) =>
    let whose := if (s.tile t).ctl.bundle.isSome then t else 0x1FFF
    s.modRegion r (fun g => { g with credits := g.credits ++ [(whose, src, ch.toNat)] })
  | none => s

/-- The credits of the cycle are on their way. -/
def flushCredits (r : RegionId) (s : State) : State :=
  (s.region r).credits.foldl (fun s c => creditBack c.2.1 c.2.2 s) (s.modRegion r (fun g => { g with credits := [] }))

/-- Pop the oldest message of port `q` of tile `t` (10 R275, R277). -/
def popPort (r : RegionId) (t : TileId) (q : Nat) (s : State) : Option (DWord × State) :=
  let x := (s.tile t).rx q
  match x.buf with
  | [] => none
  | m :: rest =>
    let s := s.modTile t (fun y => { y with ports := y.ports.put q { x with buf := rest } })
    some (m, returnCredit r t x s)

/-- CQRD (R52, R59; 10 R277): pops at once, or gates the tile until a message is its own. -/
def execCqrd (t : TileId) (w : SlotWord) (s : State) : Host.Outcome State Fault Refusal :=
  .next (slotOp .s 0x1E t w (fun i _ => encoding 0x1E i.w (zeroAt i.w 2 10 && zeroAt i.w 12 5 && rdOf i.w % 2 == 0))
    (fun i s => channelPhase i s (fun _ =>
      let q := Word.bits i.w 0 2
      let gate := Act.ok (i.ctl s (fun c => { c with run := .waitPort (BitVec.ofNat 2 q) (BitVec.ofNat 5 (rdOf i.w)) }))
      if (s.tile i.t).cqrows.any (fun k => k.q.toNat == q && decide (k.got.length < k.n)) then gate
      else match popPort i.r i.t q s with
        | none => gate
        | some (m, s) => .ok (i.ctl s (fun c => c.setPair (rdOf i.w) m i.now (i.now + 2))))) s)

/-- The tile has issued END. -/
def Tile.hasEnded (x : Tile) : Bool := x.ctl.run == .ended

/-- The region manager records the region complete once every tile has issued END (R60). -/
def noteComplete (r : RegionId) (s : State) : State :=
  let g := s.region r
  if !g.complete && g.tiles.all (fun t => (s.tile t).hasEnded) then
    (s.modRegion r (fun g => { g with complete := true })).regionEvent r 6
  else s

/-- END (R60). -/
def execEndOp (t : TileId) (w : SlotWord) (s : State) : Host.Outcome State Fault Refusal :=
  .next (slotOp .s 0x1F t w (fun i _ => encoding 0x1F i.w true)
    (fun i s => .ok (noteComplete i.r (i.ctl s (fun c => { c with run := .ended })))) s)

end Sys2Proof.Machine
end

