-- ==== Sys2Proof/Machine/SyncUnit.lean ====
section
/-!
DEFINITION. Sys2Proof/Machine/SyncUnit.lean: what happens at a sync object (10_sync_and_channels.md R250 to R269), and
the messages it sends to other devices (12 R329, R330).
-/
namespace Sys2Proof.Machine
open Sys2Proof

/-! ### Transactions (12 R329) -/

/-- A transaction header. -/
def mkHdr (code flags ddev sdev len args : Nat) : BitVec 128 :=
  BitVec.ofNat 128 (code % 256 + ((flags % 256) <<< 8) + ((ddev % 65536) <<< 16) + ((sdev % 65536) <<< 32)
    + ((len % 65536) <<< 48) + ((args % 2 ^ 64) <<< 64))

/-- Lane `v` of a port. -/
def Port.lane (x : Port) (v : Lane) : LaneSt := Tab.get LaneSt.reset x.lanes v.toNat

/-- `s` with `f` applied to lane `v` of port `p`. -/
def State.modLane (s : State) (p : PortId) (v : Lane) (f : LaneSt → LaneSt) : State :=
  s.modPort p (fun x => { x with lanes := x.lanes.put v.toNat (f (x.lane v)) })

/-- Queue a transaction on a lane (12 R316); a FAILED port discards it (12 R321). -/
def State.queueTxn (s : State) (p : PortId) (v : Lane) (k : TxnKind) (x : Txn) : State :=
  if (s.port p).st = .failed then s else s.modLane p v (fun l => { l with out := l.out ++ [(k, x)] })

/-- Index of a port virtual lane among the units (01 R41). -/
def laneUnit (p : PortId) (v : Lane) : Nat := 8 * p.toNat + v.toNat

/-- Queue a transaction of region `r` on its lane of port `p`; sent to a quarantined lane it faults the region (01 R40). -/
def State.sendTxn (s : State) (r : RegionId) (p : PortId) (k : TxnKind) (code flags ddev args : Nat) (data : List Byte) :
    State :=
  match (s.region r).lane p with
  | some v =>
    if s.stale 6 (laneUnit p v) then s.raise r none none fStaleUnit (6 + (laneUnit p v <<< 8))
    else s.queueTxn p v k { hdr := mkHdr code flags ddev s.ident.dev.toNat data.length args, data := data }
  | none => s

/-- REGION_TAG of a region. -/
def Region.tag (g : Region) : Word := match g.cfg with
  | some c => c.tag
  | none => 0

/-! ### Charging and recording (R267, R269) -/

/-- A fault at an object, charged by its source (R267). -/
def chargeSync (r : RegionId) (src : SigSrc) (code detail : Nat) (s : State) : State :=
  match src with
  | .op t pc => s.raise r (some t) (some (.s, pc)) code detail
  | .tileSignal t => s.raise r (some t) none code detail
  | .engine => s.raise r none none code detail
  | .remote _ _ => s.raise r none none code detail

/-- SYNC_MISUSE at object `o`. -/
def misuse (r : RegionId) (o : BitVec 16) (src : SigSrc) (s : State) : State := chargeSync r src fSyncMisuse o.toNat s

/-- LAST (R269). An engine of the region is recorded as valid with no tile (log entry 21). -/
def lastOf : SigSrc → Word
  | .op t _ => 0x40000000#32 ||| t.setWidth 32
  | .tileSignal t => 0x40000000#32 ||| t.setWidth 32
  | .engine => 0x40000000#32
  | .remote dev port => 0xC0000000#32 ||| dev.setWidth 32 ||| (port.setWidth 32 <<< 16)

/-- Unit class and index of the object's block, as DETAIL names it (01 R41). -/
def blockDetail (o : BitVec 16) : Nat := 2 + ((o.toNat / 256) <<< 8)

/-- Something reaches object `o` in this cycle (R254, R257). -/
def touch (r : RegionId) (o : BitVec 16) (s : State) : State :=
  s.modRegion r (fun g => { g with touched := (o.toNat, s.wall) :: g.touched })

/-- Something from `src` reaches object `o`; a quarantined block accepts none of it (01 R40). -/
def reach (r : RegionId) (o : BitVec 16) (src : SigSrc) (k : State → State) (s : State) : State :=
  if s.stale 2 (o.toNat / 256) then chargeSync r src fStaleUnit (blockDetail o) s else k (touch r o s)

/-- The object with LAST and LBEAT of this signal or arrival. -/
def SyncObj.stamp (x : SyncObj) (s : State) (src : SigSrc) : SyncObj :=
  { x with last := lastOf src, lbeat := s.cad.lap ++ s.cad.beat }

/-- The region cycle in which something that lands now is counted: the present one; while the region is frozen that is
the first after the thaw (R253; 03 R99). -/
def Region.countCycle (g : Region) : Nat := g.cycle

/-! ### Counters (R258, R259) -/

/-- Add `n` to a counter. -/
def addSignal (r : RegionId) (o : BitVec 16) (src : SigSrc) (n : Nat) (s : State) : State :=
  let x := s.obj o
  if x.value.toNat + n > 65535 then chargeSync r src fSyncOverflow o.toNat s
  else s.setObj o ({ x with value := BitVec.ofNat 16 (x.value.toNat + n) }.stamp s src)

/-- A waiter goes on: a tile issues 6 cy later; the update controller starts its step, with the gradients that have landed by now
(13 R351; 14 R372). -/
def wakeWaiter (r : RegionId) (w : Waiter) (s : State) : State :=
  let now := (s.region r).countCycle
  match w.tile with
  | some t => s.modTile t (fun x => { x with ctl := { x.ctl with run := .waking (now + 6) false } })
  | none => s.modRegion r (fun g => { g with upd := { g.upd with startMet := true, seen := some s.mem } })

/-- Serve the waiter list from its head while the head can be satisfied (R259); `n` bounds the list. -/
def serveWaits (r : RegionId) (o : BitVec 16) : Nat → State → State
  | 0, s => s
  | n + 1, s =>
    let x := s.obj o
    match x.waiters with
    | [] => s
    | w :: rest =>
      if w.count ≤ x.value.toNat then
        serveWaits r o n (wakeWaiter r w (s.setObj o
          { x with value := BitVec.ofNat 16 (x.value.toNat - w.count), waiters := rest }))
      else s

/-- Serve what can be served. -/
def serve (r : RegionId) (o : BitVec 16) (s : State) : State :=
  if (s.obj o).bar then s else serveWaits r o (s.obj o).waiters.length s

/-- A wait reaches a counter: appended to its list, at most 64 (R259). -/
def appendWait (r : RegionId) (o : BitVec 16) (src : SigSrc) (who : Option TileId) (n : Nat) (s : State) : State :=
  let x := s.obj o
  if x.bar then misuse r o src s
  else if x.waiters.length ≥ 64 then misuse r o src s
  else s.setObj o { x with waiters := x.waiters ++ [{ tile := who, count := n }] }

/-! ### Barriers (R261 to R265) -/

/-- Send a release to every recorded child and clear the record (R265). -/
def releaseChildren (r : RegionId) (o : BitVec 16) (s : State) : State :=
  let x := s.obj o
  let tag := (s.region r).tag.toNat
  let s := x.children.foldl (fun s c =>
    s.sendTxn r c.port .unit 0x06 0 c.dev.toNat (c.obj.toNat + (tag <<< 32)) []) s
  s.setObj o { s.obj o with children := [] }

/-- The exchange barrier is released in cycle `l`: its window opens, or the windows its arrivals name differ (R263; 09
R239). -/
def releaseExchange (r : RegionId) (o : BitVec 16) (l : Nat) (s : State) : State :=
  let g := s.region r
  let names := g.window.names
  let low := names.foldl (fun m n => match m with
    | none => some n
    | some k => some (if n.1 < k.1 then n else k)) none
  match low with
  | none => s
  | some ref =>
    let bad := names.foldl (fun m n => if n.2.1 = ref.2.1 then m else match m with
      | none => some n
      | some k => some (if n.1 < k.1 then n else k)) none
    let s := s.modRegion r (fun g => { g with window := { g.window with names := [] } })
    match bad with
    | some n =>
      s.raise r (some n.1) (some (.s, n.2.2)) fSyncMisuse (o.toNat + (n.2.1.toNat <<< 16) + (ref.2.1.toNat <<< 24))
    | none =>
      s.modRegion r (fun g => { g with window := { g.window with next := some (l, ref.2.1) } })

/-- The commit release lands (15 R386, R387): the step whose mirror was acknowledged is committed, and its export is due if
EVERY divides it (15 R391). A halted region counts no release. -/
def fwCommit (r : RegionId) (o : BitVec 16) (s : State) : State :=
  let g := s.region r
  if g.fw.conf ∧ g.fw.obj = o ∧ g.fw.mirrorAcked ∧ g.brake.halted = false then
    let due := g.exp.every != 0 && g.fw.mirrorStep.toNat % g.exp.every == 0
    s.setRegion r { g with
     exp := if due then { g.exp with want := g.exp.want ++ [(g.fw.mirrorStep, s.cad.lap ++ s.cad.beat)] } else g.exp,
     fw := { g.fw with
      commitStep := g.fw.mirrorStep, commitValid := true, commitBeat := s.cad.beat, commitLap := s.cad.lap,
      mirrorAcked := false, remirror := if g.fw.st = .remirroring then false else g.fw.remirror,
      st := .idle, startBeat := none, stalled := false } }
  else s

/-- The barrier of a derailleur's round is released (13 R364). -/
def drlNote (o : BitVec 16) (g : Region) : Region :=
  if g.drl.st = .running ∧ g.drl.obj = o ∧ g.drl.arrived then { g with drl := { g.drl with released := true } } else g

/-- The release of a barrier in cycle `l` (R261). -/
def releaseBarrier (r : RegionId) (o : BitVec 16) (l : Nat) (s : State) : State :=
  let x := s.obj o
  let tiles := x.waiters.filterMap (·.tile)
  let s := s.setObj o { x with sense := !x.sense, gen := x.gen + 1, value := x.pcount, up := false, waiters := [] }
  let s := releaseChildren r o s
  let s := tiles.foldl (fun s t => s.modTile t (fun y => { y with ctl := { y.ctl with run := .released (l + 48) } })) s
  let s := s.modRegion r (fun g => drlNote o { g with releases := g.releases ++ [(o, l, tiles)] })
  let s := fwCommit r o s
  if x.xch then releaseExchange r o l s else s

/-- An arrival now is misuse: a counter, UP set, no arrival left, or a second release in one cycle (R261, R264, R481). -/
def arriveRefused (r : RegionId) (o : BitVec 16) (s : State) : Bool :=
  let x := s.obj o
  let g := s.region r
  !x.bar || x.up || x.value == 0 || g.releases.any (fun e => e.1 == o && e.2.1 == g.countCycle)

/-- One arrival at a barrier, by a tile that waits if `wait` names it (R261, R264). -/
def arrive (r : RegionId) (o : BitVec 16) (src : SigSrc) (wait : Option TileId)
    (name : Option (TileId × BitVec 8 × BitVec 11)) (s : State) : State :=
  let x := s.obj o
  let l := (s.region r).countCycle
  if arriveRefused r o s then misuse r o src s
  else
    let who : List Waiter := match wait with
      | some t => [{ tile := some t, count := 0 }]
      | none => []
    let x : SyncObj := { x with value := x.value - 1, waiters := x.waiters ++ who }
    let s := s.setObj o (x.stamp s src)
    let s := match x.xch, name with
      | true, some n => s.modRegion r (fun g => { g with window := { g.window with names := g.window.names ++ [n] } })
      | _, _ => s
    if x.value ≠ 0 then s
    else if x.parEn then
      (s.setObj o { s.obj o with up := true }).sendTxn r x.parentPort .unit 0x05 0 x.parentDev.toNat
        (x.parentObj.toNat + (o.toNat <<< 16) + ((s.region r).tag.toNat <<< 32)) []
    else releaseBarrier r o l s

/-- A signal that acts on either kind: adds 1 to a counter, one arrival at a barrier (R481). -/
def anySignal (r : RegionId) (o : BitVec 16) (src : SigSrc) (s : State) : State :=
  if (s.obj o).bar then arrive r o src none none s else addSignal r o src 1 s

/-- The sense of the object goes into the tile's split-arrival record (R262). -/
def takeSense (t : TileId) (o : BitVec 16) (s : State) : State :=
  let sense := (s.obj o).sense
  s.modTile t (fun x => { x with split := x.split.map (fun q => (q.1, some sense, q.2.2)) })

/-- An SBWAIT at the object (R262): the record goes; the tile waits, or issues 6 cy later. -/
def splitWait (r : RegionId) (o : BitVec 16) (src : SigSrc) (t : TileId) (s : State) : State :=
  let x := s.obj o
  if x.bar = false then misuse r o src s
  else
    let now := (s.region r).countCycle
    let held := match (s.tile t).split with
      | some q => q.2.1 == some x.sense
      | none => false
    let s := s.modTile t (fun y => { y with split := none })
    if held then s.setObj o { x with waiters := x.waiters ++ [{ tile := some t, count := 0 }] }
    else s.modTile t (fun y => { y with ctl := { y.ctl with run := .waking (now + 6) true } })

/-! ### Configuration (R257) -/

/-- Another object of the region has XCH. -/
def otherXch (r : RegionId) (o : BitVec 16) (s : State) : Bool :=
  s.objs.any (fun e => e.2.xch && (s.region r).ownsObj e.1 && e.1 != o.toNat)

/-- The configuration word `v` is refused for object `o` (R257). -/
def configRefused (r : RegionId) (o : BitVec 16) (v : Word) (s : State) : Bool :=
  let x := s.obj o
  let bar := Word.bit v 16
  let xch := Word.bit v 17
  let init := Word.bits v 0 16
  !x.waiters.isEmpty || (x.bar && (x.value != x.pcount || x.up)) || Word.bits v 18 14 != 0 || (bar && init == 0)
  || (xch && !bar) || (xch && otherXch r o s) || (xch && decide (init < (s.region r).tiles.length))

/-- The object configured by `v` (R257). -/
def SyncObj.configure (x : SyncObj) (v : Word) : SyncObj :=
  let bar := Word.bit v 16
  let init : BitVec 16 := v.extractLsb' 0 16
  { x with bar := bar, xch := Word.bit v 17, sense := false, up := false, value := init,
           pcount := if bar then init else 0, gen := 0 }

/-! ### One region cycle of an object (R254) -/

/-- Steps 1: signals and arrivals. -/
def applyFlight (r : RegionId) (f : SyncFlight) (s : State) : State :=
  let o := f.obj
  match f.kind, f.src with
  | .ssig n, src => if (s.obj o).bar then misuse r o src s else addSignal r o src n s
  | .sbar win, .op t pc => arrive r o f.src (some t) (some (t, win, pc)) s
  | .sarr, .op t _ => if (s.obj o).xch then misuse r o f.src s else arrive r o f.src none none (takeSense t o s)
  | .signal, src => anySignal r o src s
  | .loadArrive, src => arrive r o src none none s
  | _, _ => s

/-- Step 2: a wait. -/
def waitFlight (r : RegionId) (f : SyncFlight) (s : State) : State :=
  match f.kind, f.src with
  | .swait n, .op t _ => appendWait r f.obj f.src (some t) n s
  | .sbwait, .op t _ => splitWait r f.obj f.src t s
  | .updWait n, src => appendWait r f.obj src none n s
  | _, _ => s

/-- SREAD's value (R256). -/
def SyncObj.read (x : SyncObj) : Word :=
  if x.bar then x.value.setWidth 32 ||| (if x.sense then 0x10000#32 else 0) else x.value.setWidth 32

/-- Steps 3 and 4 answer: an SREAD, readable 20 cy after its issue; an SCFG, refused when anything else has reached the
object in the cycle. -/
def answerFlight (r : RegionId) (alone : Bool) (f : SyncFlight) (s : State) : State :=
  match f.kind, f.src with
  | .sread rd, .op t _ =>
    let v := (s.obj f.obj).read
    s.modTile t (fun x => { x with ctl := x.ctl.setReg rd.toNat v (f.due - 10) (f.due + 10) })
  | .scfg v, src =>
    if !alone || configRefused r f.obj v s then misuse r f.obj src s
    else s.setObj f.obj ((s.obj f.obj).configure v)
  | _, _ => s

/-- Tile of a source, for the order of waits. -/
def SigSrc.rank : SigSrc → Nat
  | .op t _ => t.toNat
  | .tileSignal t => t.toNat
  | _ => 8192

/-- Insert by ascending tile. -/
def insertFlight (f : SyncFlight) : List SyncFlight → List SyncFlight
  | [] => [f]
  | h :: r => if f.src.rank < h.src.rank then f :: h :: r else h :: insertFlight f r

/-- Insert a waiter by ascending tile. -/
def insertWaiter (w : Waiter) : List Waiter → List Waiter
  | [] => [w]
  | h :: r => if (w.tile.map BitVec.toNat).getD 8192 < (h.tile.map BitVec.toNat).getD 8192 then w :: h :: r else h :: insertWaiter w r

/-- The waits beyond the first `n` reached the object in this cycle: they stand in ascending tile ID (R254 step 2). -/
def SyncObj.sortWaits (x : SyncObj) (n : Nat) : SyncObj :=
  { x with waiters := x.waiters.take n ++ (x.waiters.drop n).foldl (fun l w => insertWaiter w l) [] }

/-- One region cycle of object `o` with the flights that reach it (R254). -/
def processObject (r : RegionId) (o : BitVec 16) (fs : List SyncFlight) (s : State) : State :=
  if s.stale 2 (o.toNat / 256) then fs.foldl (fun s f => chargeSync r f.src fStaleUnit (blockDetail o) s) s
  else
    let alone := fs.length == 1 && !(s.region r).touched.any (fun q => q.1 == o.toNat)
    let n := (s.obj o).waiters.length
    let s := touch r o s
    let s := fs.foldl (fun s f => applyFlight r f s) s
    let s := (fs.foldl (fun l f => insertFlight f l) []).foldl (fun s f => waitFlight r f s) s
    let s := s.setObj o ((s.obj o).sortWaits n)
    let s := serve r o s
    fs.foldl (fun s f => answerFlight r alone f s) s

/-- A message from another device or an engine is applied when it lands (R253). -/
def landSignal (r : RegionId) (o : BitVec 16) (src : SigSrc) (s : State) : State :=
  reach r o src (fun s => serve r o (anySignal r o src s)) s

/-- An engine's arrival lands at a barrier. -/
def landArrival (r : RegionId) (o : BitVec 16) (s : State) : State := reach r o .engine (arrive r o .engine none none) s

end Sys2Proof.Machine
end

