-- ==== Sys2Proof/Machine/ExchUnit.lean ====
section
/-!
DEFINITION. Sys2Proof/Machine/ExchUnit.lean: the exchange unit of a tile (09_exchange.md): routes, the mesh, armed
receives, widening on receive, late items, due marks and the edge gates; the brake's missing mark (03 R94).
-/
namespace Sys2Proof.Machine
open Sys2Proof

/-! ### Routes and the mesh (R225 to R229, R233; 03 R92) -/

/-- Exclusive-or distance. -/
def absDiff (a b : Nat) : Nat := if a ≤ b then b - a else a - b

/-- Die boundaries between two columns. -/
def State.crossings (s : State) (a b : Nat) : Nat := absDiff (s.dieOf a) (s.dieOf b)

/-- A mesh link: 8 times its tile plus 0 west, 1 east, 2 north, 3 south, 4 the local port. -/
def linkNo (t : TileId) (dir : Nat) : Nat := 8 * t.toNat + dir

/-- The links of a path along a row or a column: from position `p`, `n` hops left, `up` toward higher numbers. Each link
comes with the cycle of the first flit on it and the input it came by (R228). -/
def legLinks (s : State) (horiz up : Bool) (fixed : Nat) : Nat → Nat → Nat → Nat → List (Nat × Nat × Nat) × Nat × Nat
  | _, at_, inp, 0 => ([], at_, inp)
  | p, at_, inp, n + 1 =>
    let q := if up then p + 1 else p - 1
    let t := if horiz then tileAt p fixed else tileAt fixed p
    let dir := if horiz then (if up then 1 else 0) else (if up then 3 else 2)
    let inNext := if horiz then (if up then 0 else 1) else (if up then 2 else 3)
    let r := legLinks s horiz up fixed q (at_ + 3 + if horiz then 12 * s.crossings p q else 0) inNext n
    ((linkNo t dir, at_, inp) :: r.1, r.2)

/-- The path of a row from `src` to `dst` whose first flit leaves in cycle `at_`: columns first, rows last, then the local
port. -/
def pathLinks (s : State) (src dst : TileId) (at_ : Nat) : List (Nat × Nat × Nat) :=
  let a := legLinks s true (decide (colOf src < colOf dst)) (rowOf src) (colOf src) at_ 4 (absDiff (colOf src) (colOf dst))
  let b := legLinks s false (decide (rowOf src < rowOf dst)) (colOf dst) (rowOf src) a.2.1 a.2.2
    (absDiff (rowOf src) (rowOf dst))
  a.1 ++ b.1 ++ [(linkNo dst 4, b.2.1, b.2.2)]

/-- Cycles from the sending of a row to its completion, row 1 (R92). -/
def rowLatency (s : State) (src dst : TileId) : Nat :=
  3 * (absDiff (colOf src) (colOf dst) + absDiff (rowOf src) (rowOf dst)) + 12 * s.crossings (colOf src) (colOf dst) + 16

/-! ### Route and receive registers (R231, R232) -/

/-- DC0, DC1, DR0, DR1. -/
def xrRect (x : BitVec 128) : Nat × Nat × Nat × Nat :=
  (Word.bits x 0 7, Word.bits x 7 7, Word.bits x 14 6, Word.bits x 20 6)
/-- GATE. -/
def xrGate (x : BitVec 128) : Bool := Word.bit x 26
/-- SIGEN. -/
def xrSigen (x : BitVec 128) : Bool := Word.bit x 48
/-- SIGOBJ. -/
def xrSigobj (x : BitVec 128) : BitVec 16 := x.extractLsb' 32 16
/-- PORT. -/
def xrPort (x : BitVec 128) : PortId := x.extractLsb' 64 4
/-- RDEV. -/
def xrRdev (x : BitVec 128) : BitVec 16 := x.extractLsb' 80 16
/-- RTILE. -/
def xrRtile (x : BitVec 128) : TileId := x.extractLsb' 96 13
/-- RITEM. -/
def xrRitem (x : BitVec 128) : BitVec 16 := x.extractLsb' 112 16

/-- The route register holds what R231 allows. -/
def xrLegal (x : BitVec 128) : Bool :=
  let q := xrRect x
  Word.bits x 27 5 == 0 && Word.bits x 49 15 == 0 && Word.bits x 68 12 == 0 && Word.bits x 109 3 == 0
  && (if xrGate x then Word.bits x 0 26 == 0 && decide (Word.bits x 64 4 ≤ 11)
      else decide (q.1 ≤ q.2.1) && decide (q.2.2.1 ≤ q.2.2.2) && Word.bits x 64 4 == 0)

/-- SENDER. -/
def xvSender (x : BitVec 128) : TileId := x.extractLsb' 0 13
/-- LATE. -/
def xvLate (x : BitVec 128) : Bool := Word.bit x 13
/-- WIDEN. -/
def xvWiden (x : BitVec 128) : Bool := Word.bit x 14
/-- ITEM. -/
def xvItem (x : BitVec 128) : BitVec 16 := x.extractLsb' 16 16
/-- SFMT of a widening receive is T2. -/
def xvT2 (x : BitVec 128) : Bool := Word.bits x 32 4 == 7
/-- DFMT of a widening receive. -/
def xvDfmt (x : BitVec 128) : Format := if Word.bits x 36 4 = 2 then .bf16 else .e4m3
/-- SCROW. -/
def xvScrow (x : BitVec 128) : Nat := Word.bits x 46 10
/-- SCOFF. -/
def xvScoff (x : BitVec 128) : Nat := Word.bits x 64 9
/-- Scale bytes of an incoming row (R245). -/
def xvScales (x : BitVec 128) : Nat := if xvT2 x then 64 else 32
/-- W′, destination rows of an incoming row (R244). -/
def xvRows (x : BitVec 128) : Nat :=
  if xvWiden x then (if xvT2 x then 4 else 2) * (if xvDfmt x = .bf16 then 2 else 1) else 1

/-- The receive register holds what R232 and R244 allow for `n` rows. -/
def xvLegal (x : BitVec 128) (n : Nat) : Bool :=
  let sf := Word.bits x 32 4
  let df := Word.bits x 36 4
  !Word.bit x 15 && (if xvLate x then Word.bits x 0 13 == 0 else Word.bits x 16 16 == 0)
  && (!xvWiden x ||
      ((sf == 6 || sf == 7) && (df == 2 || df == 4) && Word.bits x 56 8 == 0 && Word.bits x 82 14 == 0
       && cvtLegal (Word.bits x 40 6) (if sf = 7 then .t2 else .e2m1) (xvDfmt x) false
       && Word.bits x 44 2 == 1 && xvScoff x % 32 == 0 && decide (xvScoff x + n * xvScales x ≤ 512)))

/-! ### Widening (R244 to R246) -/

/-- Widen an incoming row: the whole run of W′ destination rows as one number, and the events. `k` counts rows from 1. -/
def widenRow (x : BitVec 128) (t : TileId) (key : DWord) (scales : Row) (k : Nat) (data : Row) : Nat × Events :=
  let src : Format := if xvT2 x then .t2 else .e2m1
  let dst := xvDfmt x
  let c := Word.bits x 40 6
  let stream := streamNo 3 (Word.bits x 73 9) t.toNat 0
  let pos : DWord := BitVec.ofNat 64 (Word.bits x 96 32 + k - 1)
  let elems := 4096 / src.width
  (List.range elems).foldl (fun (acc : Nat × Events) j =>
    let sc := Word.bits scales (8 * (xvScoff x + (k - 1) * xvScales x + j / 32)) 8
    let d := decodeScaled src (Word.bits data (j * src.width) src.width) (Scale.ofE8M0 sc)
    let r := if c % 4 = 1 then
        ((spoke key stream pos (BitVec.ofNat 32 (j / 4))).get (j % 4)).toNat % 65536
      else 0
    let q := match Scale.ofE8M0 sc with
      | .bad => (encNan dst, Events.none_)
      | _ => cvt src d.1 dst (ovfOf c) (dirOfCvt c r) .none_
    (acc.1 + (q.1 <<< (j * dst.width)), (acc.2.add d.2).add q.2)) (0, Events.none_)

/-- Row `m` of a widened run. -/
def runRow (v m : Nat) : Row := BitVec.ofNat 4096 (v >>> (4096 * m))

/-- Add events to the headroom counters of a tile (06 R165). -/
def Guards.add (x : Guards) (e : Events) : Guards :=
  { x with clip := Word.satAdd x.clip e.clip, uflow := Word.satAdd x.uflow e.uflow, nan := Word.satAdd x.nan e.nan,
           subflush := Word.satAdd x.subflush e.subflush }

/-! ### Edge gates (R242, R243) -/

/-- Rows of the region waiting at its outbound buffer of a port. -/
def Region.gateRows (g : Region) (p : PortId) : Nat := (Tab.get [] g.gateOut p.toNat).length

/-- Rows of a port's outbound buffer reserved by the region's tiles. -/
def State.reservedRows (s : State) (g : Region) (p : PortId) : Nat :=
  (g.tiles.map (fun t => ((s.tile t).exch.reserved.get p.toNat).toNat)).sum

/-- Free rows of the region's outbound buffer of a port, 512 in all; none without a lane there (R242). -/
def State.gateSpace (s : State) (g : Region) (p : PortId) : Nat :=
  if (g.lane p).isSome then 512 - g.gateRows p - s.reservedRows g p else 0

/-- Reserved rows of a tile on a port that no send in progress has taken. -/
def Tile.spare (x : Tile) (p : PortId) : Nat :=
  (x.exch.reserved.get p.toNat).toNat
    - ((x.exch.gates.filter (fun m => xrPort m.xr == p)).map (fun m => m.n - m.got.length)).sum

/-! ### Due marks and the missing mark (R241; 03 R93, R94) -/

/-- The declaration of a late item. -/
def Tile.decl (x : Tile) (item : BitVec 16) : Option Decl := x.exch.decls.find? (fun d => d.item = item)

/-- Every row of the item is written. -/
def Decl.complete (d : Decl) : Bool := d.written.length == d.n

/-- What the mark waits for is present (R241). -/
def State.present (s : State) (r : RegionId) (m : DueMark) : Bool :=
  match m.kind with
  | .item id => (s.tile m.tile).exch.decls.any (fun d => d.id == id && d.complete)
  | .code d => (s.region r).loaded.contains d.toNat
  | .gate p n => decide (n ≤ s.gateSpace (s.region r) p)

/-- The mark is met: gate space is reserved to the tile; a late item's widening events are counted, once (R243; 06 R167). An
item that comes after its mark's cycle has its events counted when it is present: the rule's cycle is past (log entry
91). -/
def meetMark (m : DueMark) (s : State) : State :=
  match m.kind with
  | .gate p n => s.modTile m.tile (fun x =>
      let e := x.exch
      { x with exch := { e with reserved := e.reserved.put p.toNat (e.reserved.get p.toNat + BitVec.ofNat 16 n) } })
  | .item id => s.modTile m.tile (fun x =>
      let e := x.exch
      let ev := (e.decls.filter (fun d => d.id == id)).foldl (fun n d => n.add d.events) Events.none_
      { x with guards := x.guards.add ev,
               exch := { e with decls := e.decls.map (fun d => if d.id = id then { d with events := Events.none_ } else d) } })
  | .code _ => s

/-- Go through the marks in order, meeting those whose item is present; the others stay. -/
def meetMarks (r : RegionId) : List DueMark → State → List DueMark × State
  | [], s => ([], s)
  | m :: rest, s =>
    if s.present r m then meetMarks r rest (meetMark m s)
    else
      let q := meetMarks r rest s
      (m :: q.1, q.2)

/-- The brake controller's look at the end of a wall cycle (03 R94): is any due mark executed and its item not present?
A change is on its way to the region's elements for 24 wall cycles. -/
def brakeLook (r : RegionId) (s : State) : State :=
  let marks := (s.region r).brake.marks
  let q := meetMarks r marks s
  let missing := !q.1.isEmpty
  q.2.modRegion r (fun g =>
    let b := g.brake
    { g with brake := { b with marks := q.1, missing := missing,
                               flips := if b.missing = missing then b.flips else b.flips ++ [(s.wall, missing)] } })

/-! ### Limit brakes (18 R458, R460, R475) -/

/-- The region has columns on die `d`. -/
def State.onDie (s : State) (g : Region) (d : Nat) : Bool := match g.cfg with
  | some c => (List.range c.ncols).any (fun k => s.dieOf (c.col0 + k) == d)
  | none => false

/-- A regulator that feeds a die of the region is at fault: its own, VSRAM's, or one VR_ALERT_N does not name (R475). -/
def State.vrHits (s : State) (g : Region) : Bool :=
  s.power.vrAlert || s.power.vrBad.getLsbD 4 || (List.range 4).any (fun d => s.power.vrBad.getLsbD d && s.onDie g d)

/-- The limit-brake mark of a region as its causes stand now; a change reaches the region's elements 24 wall cycles later
(R458). -/
def relimit (r : RegionId) (s : State) : State :=
  s.modRegion r (fun g =>
    let b := g.brake
    let mark := g.st == .granted && (b.dutyOn || b.wholeWindow || s.vrHits g)
    if b.braked = mark then g
    else { g with brake := { b with braked := mark, limitFlips := b.limitFlips ++ [(s.wall, mark)] } })

/-- Every region's number. -/
def State.regionIds (s : State) : List RegionId := s.regions.map (fun e => BitVec.ofNat 6 e.1)

/-- The limit-brake marks of every region. -/
def relimitAll (s : State) : State := s.regionIds.foldl (fun s r => relimit r s) s

/-- OVER_LIMIT for a region and for the device, each at most once per 1,024 windows (R458). -/
def overLimit (r : RegionId) (s : State) : State :=
  let s := if 1024 ≤ (s.region r).brake.overAge then
      (s.modRegion r (fun g => { g with brake := { g.brake with overAge := 0 } })).regionEvent r 4
    else s
  if 1024 ≤ s.hub.overAge then ({ s with hub := { s.hub with overAge := 0 } }).hubEvent 2 else s

/-! ### The beat counters (12 R338; 18 R457) -/

/-- A beat whose BEAT is a multiple of 1,024: a hello is due on every port (12 R323) and a power window has ended (18 R457). -/
def markBeat (s : State) : State :=
  if s.cad.beat.toNat % 1024 = 0 then
    { s with ports := Tab.mapVals (fun (_ : Nat) (x : Port) => { x with helloDue := true }) s.ports,
             power := { s.power with window := 1 } }
  else s

/-- The counters are loaded (12 R335, R336): the power window in progress ends at once, with its brakes by duty (18 R457). -/
def loadBeats (beat : BitVec 48) (lap : BitVec 16) (s : State) : State :=
  let s := { s with
    cad := { s.cad with beat := beat, lap := lap }, power := { s.power with skip := true },
    regions := Tab.mapVals (fun (_ : Nat) (g : Region) => { g with brake := { g.brake with dutyOn := false } }) s.regions }
  markBeat (relimitAll s)

/-! ### Armed receives (R235, R236) -/

/-- First destination row of incoming row `k`. -/
def Armed.dest (a : Armed) (k : Nat) : Nat := a.row + (k - 1) * xvRows a.xv

/-- The packet is the row the receive expects as its row `k`: from SENDER, and at one place in the send for all rows of
the receive, which need not be the first of the send (R236, with the worked example of 09; log entry 43). -/
def Armed.takes (a : Armed) (p : Packet) (k : Nat) : Bool :=
  xvSender a.xv == p.src && (match a.base with
    | none => decide (k ≤ p.k)
    | some b => p.k == b + k)

/-- The row of a packet is delivered or discarded at one destination. -/
def Packet.drop (p : Packet) (t : TileId) : Packet := { p with dests := p.dests.filter (fun d => d.1 ≠ t) }

/-- Remove a delivered row of the packets of a region. -/
def Region.dropArrivals (g : Region) (t : TileId) (c : Nat) : Region :=
  { g with packets := (g.packets.map (fun p => if p.arrives t c then p.drop t else p)).filter (fun p => !p.dests.isEmpty) }

/-! ### Late items (R240) -/

/-- The item is widened on receive. -/
def Decl.widens (d : Decl) : Bool := !d.dma && xvWiden d.xv

/-- The part of a row write of a late item: the destination rows of incoming row `k` (from 0) and their events. -/
def lateRows (d : Decl) (t : TileId) (scales : Row) (k : Nat) (data : Row) : List (Nat × Row) × Events :=
  if d.widens then
    let v := widenRow d.xv t d.key scales (k + 1) data
    ((List.range (xvRows d.xv)).map (fun m => (d.row + k * xvRows d.xv + m, runRow v.1 m)), v.2)
  else ([(d.row + k, data)], Events.none_)

/-- The scale row of a late item: read before the item's first row is written, and kept (R245). -/
def Decl.scales (d : Decl) (r : RegionId) (t : TileId) (s : State) : Row × Option Nat × State :=
  match d.scale with
  | some v => (v, none, s)
  | none => if d.widens then s.readFree r t (xvScrow d.xv) (some (.x, d.pc)) else (0, none, s)

/-- Write one row of a late item into tile memory (R70, R240, R245). -/
def writeLate (r : RegionId) (t : TileId) (d : Decl) (k : Nat) (data : Row) (s : State) : State :=
  let q := d.scales r t s
  match q with
  | (_, some word, s) => s.raise r (some t) (some (.x, d.pc)) fTmemPoison (xvScrow d.xv + (word <<< 16))
  | (scales, none, s) =>
    let v := lateRows d t scales k data
    let junk := s.draw 4096
    let s := if d.junk then junk.2 else s
    let s := v.1.foldl (fun s w => s.writeFree t w.1 (if d.junk then junk.1 else w.2)) s
    s.modTile t (fun x =>
      let e := x.exch
      { x with exch := { e with decls := e.decls.map (fun c => if c.id = d.id then
          { c with written := if c.written.contains k then c.written else k :: c.written, events := c.events.add v.2,
                   scale := if d.widens then some scales else none }
        else c) } })

end Sys2Proof.Machine
end

