-- ==== Sys2Proof/Machine/Fec.lean ====
section
/-!
DEFINITION. Sys2Proof/Machine/Fec.lean: forward error correction of the link lanes (12_links_and_cadence.md R312, R313, R320): the
codewords a port sends, how their symbols are dealt over its lanes, and what a receiver makes of their errors.
-/
namespace Sys2Proof.Machine
open Sys2Proof

/-- A symbol of RS(544,514). -/
abbrev Sym := BitVec 10

/-! ### RS(544,514) (R312; log entry 99) -/

/-- A symbol times x in the field of x^10 + x^3 + 1. -/
def symTimesX (a : Sym) : Sym := if a.getLsbD 9 then (a <<< 1) ^^^ 9 else a <<< 1

/-- The product of two symbols from bit `10 - n` of `b` on, `a` having moved up with it. -/
def symMulAux (a b : Sym) : Nat → Sym
  | 0 => 0
  | n + 1 => (if b.getLsbD (9 - n) then a else 0) ^^^ symMulAux (symTimesX a) b n

/-- The product of two symbols. -/
def symMul (a b : Sym) : Sym := symMulAux a b 10

/-- Powers of x from x^0: `n` of them. -/
def symPowers : Nat → Sym → List Sym
  | 0, _ => []
  | n + 1, a => a :: symPowers n (symTimesX a)

/-- A polynomial, highest coefficient first, times (X + a). -/
def polyTimes (p : List Sym) (a : Sym) : List Sym :=
  List.zipWith (fun x y => x ^^^ symMul a y) (p ++ [0]) (0 :: p)

/-- The generator polynomial: the product of (X + x^j), j from 0 to 29, highest coefficient first. -/
def rsGenerator : List Sym := (symPowers 30 1).foldl polyTimes [1]

/-- One data symbol enters the division. -/
def rsStep (gen : List Sym) (r : List Sym) (d : Sym) : List Sym :=
  let f := d ^^^ r.headD 0
  List.zipWith (fun x g => x ^^^ symMul f g) (r.drop 1 ++ [0]) (gen.drop 1)

/-- The 30 parity symbols of a codeword's 514 data symbols. -/
def rsParity (data : List Sym) : List Sym := data.foldl (rsStep rsGenerator) (List.replicate 30 0)

/-! ### Codewords (R312) -/

/-- The codeword control word: PAIR, and the active lane count. -/
def controlWord (second : Bool) (lanes : Nat) : Nat := (if second then 1 else 0) + (lanes % 8) * 2

/-- The 514 data symbols of a codeword: the control word's 20 bits, then 640 bytes of the flit stream. -/
def dataSymbols (second : Bool) (lanes : Nat) (bytes : List Byte) : List Sym :=
  let n := controlWord second lanes + (leNat (bytes.take 640) <<< 20)
  (List.range 514).map (fun k => BitVec.ofNat 10 (n >>> (10 * k)))

/-- A codeword: 544 symbols. -/
def codeword (second : Bool) (lanes : Nat) (bytes : List Byte) : List Sym :=
  let d := dataSymbols second lanes bytes
  d ++ rsParity d

/-- The two codewords of a pair, which carry exactly five flits. -/
def codewordPair (lanes : Nat) (flits : List Flit) : List Sym :=
  let b := flits.flatMap (fun f => leBytes 256 f.toNat)
  codeword false lanes b ++ codeword true lanes (b.drop 640)

/-- Symbols dealt round-robin over `n` lanes: what lane `j` carries of each. -/
def dealt (n : Nat) (syms : List Sym) : List (List Sym) :=
  (List.range n).map (fun j => (syms.zipIdx.filter (fun q => q.2 % n == j)).map (·.1))

/-- The active lanes of a port, ascending. -/
def Port.activeLanes (x : Port) : List Nat := (List.range 4).filter (fun k => x.lanesOk.getLsbD k)

/-- A flit leaves the port. The fifth of a pair completes two codewords, dealt over the active lanes. -/
def Port.send (x : Port) (f : Flit) : Port :=
  let fs := x.txPair ++ [f]
  let n := x.activeLanes.length
  if fs.length < 5 then { x with sentFlit := f, txPair := fs }
  else { x with sentFlit := f, txPair := [], wire := dealt n (codewordPair n fs) }

/-! ### What is received (R312, R313, R320) -/

/-- The symbol errors of a codeword: the distinct positions below 544. -/
def errPositions (errs : List Sym) : List Sym := (errs.filter (fun e => decide (e.toNat < 544))).eraseDups

/-- The lanes that carried a wrong symbol (log entry 99). -/
def Port.wrongLanes (x : Port) (errs : List Sym) : BitVec 4 :=
  let ls := x.activeLanes
  errs.foldl (fun m e => m ||| (1#4 <<< ls.getD (e.toNat % ls.length) 0)) 0

/-- A codeword has been received with some wrong symbols: up to 15 are corrected and counted; beyond that it is uncorrectable. -/
def Port.takeCodeword (x : Port) (k : Nat) (errs : List Sym) (beats : Nat) : Port :=
  let es := errPositions errs
  let bit : BitVec 2 := 1#2 <<< k
  if es.length ≤ 15 then { x with fecCe := Word.satAdd x.fecCe es.length, cwBad := x.cwBad &&& ~~~bit }
  else { x with
    fecUe := Word.satAdd x.fecUe 1, cwBad := x.cwBad ||| bit,
    ueLog := (beats, x.wrongLanes es) :: x.ueLog.filter (fun q => decide (beats < q.1 + 1024)) }

/-- The next flit of the stream has been received, with the wrong symbols of the codeword that begins in it: the first codeword of
a pair begins in the pair's first flit, the second in its third. Whether the flit touches an uncorrectable codeword. -/
def Port.takeFec (x : Port) (errs : List Sym) (beats : Nat) : Bool × Port :=
  let x := if x.rxPos = 0 then x.takeCodeword 0 errs beats else if x.rxPos = 2 then x.takeCodeword 1 errs beats else x
  let ue := (decide (x.rxPos ≤ 2) && x.cwBad.getLsbD 0) || (decide (2 ≤ x.rxPos) && x.cwBad.getLsbD 1)
  (ue, { x with rxPos := (x.rxPos + 1) % 5 })

/-- The lane took part in more than 16 uncorrectable codewords in the last 1,024 beats (R320). -/
def Port.ueOver (x : Port) (lane : Nat) (beats : Nat) : Bool :=
  decide (16 < (x.ueLog.filter (fun q => decide (beats < q.1 + 1024) && q.2.getLsbD lane)).length)

/-- The lanes are deskewed anew: pairs begin again at both ends. -/
def Port.deskew (x : Port) : Port := { x with txPair := [], rxPos := 0, cwBad := 0 }

end Sys2Proof.Machine
end

