-- ==== Sys2Proof/Machine/HubUnit.lean ====
section
/-!
DEFINITION. Sys2Proof/Machine/HubUnit.lean: the mailboxes, host references and buffer handles, and what the part writes
to host memory (17_host_interface.md R420 to R431).
-/
namespace Sys2Proof.Machine
open Sys2Proof

/-! ### Functions -/

/-- Number of a function: 0 the PF, 1 + n VF n. -/
def fnNo : Fn → Nat
  | .pf => 0
  | .vf n => 1 + n.toNat

/-- OWNER of a function's handles (R429). -/
def fnOwner : Fn → Nat
  | .pf => 0xFF
  | .vf n => n.toNat

/-- VF Enable is set and NumVFs is greater than n (R422). -/
def State.vfOn (s : State) (n : RegionId) : Bool := s.hub.vfEnable && decide (n.toNat < s.hub.numVfs)

/-- The function answers memory requests (R422; 18 R449). -/
def State.answers (s : State) : Fn → Bool
  | .pf => true
  | .vf n => s.vfOn n && (s.region n).st == .granted

/-- The mailbox of a function. -/
def State.mail (s : State) (f : Nat) : Mailbox := Tab.get Mailbox.reset s.hub.mail f

/-- `s` with `g` applied to the mailbox of a function. -/
def State.modMail (s : State) (f : Nat) (g : Mailbox → Mailbox) : State :=
  { s with hub := { s.hub with mail := s.hub.mail.put f (g (s.mail f)) } }

/-! ### Completion codes (R425) -/

abbrev eOk : Nat := 0x00
abbrev eBadop : Nat := 0x01
abbrev eBadarg : Nat := 0x02
abbrev eRange : Nat := 0x03
abbrev eState : Nat := 0x04
abbrev eOwner : Nat := 0x05
abbrev eFreed : Nat := 0x06
abbrev eAuth : Nat := 0x07
abbrev eDigest : Nat := 0x08
abbrev eBusy : Nat := 0x09
abbrev eNotidle : Nat := 0x0A
abbrev eTimeout : Nat := 0x0B
abbrev eNores : Nat := 0x0C
abbrev eGrade : Nat := 0x0D

/-! ### The mailbox (R423, R424) -/

/-- The command in flight of a function completes (R423): results, then CODE and TAG, then BUSY clears and MBX_DONE is
raised. `res0` is RES0 where the command has a result; the other result words are free (log entry 11). -/
def State.complete (s : State) (f : Nat) (code : Nat) (res0 : Option Word) : State :=
  if (s.mail f).busy = false then s
  else
    let q := s.draw 128
    let res : BitVec 128 := match res0 with
      | none => q.1
      | some v => Word.put q.1 0 32 v.toNat
    let s := q.2.modMail f (fun m => { m with res := res, code := BitVec.ofNat 8 code, tag := m.curTag, busy := false })
    if f = 0 then s.hubEvent 0 else s.mbxDoneVf (BitVec.ofNat 6 (f - 1))

/-- Complete without a result. -/
def State.done (s : State) (f : Nat) (code : Nat) : State := s.complete f code none

/-- The command of opcode `op` that function `f` has in flight completes, if it is still in flight. -/
def State.finish (s : State) (f op code : Nat) : State :=
  if (s.mail f).curOp.toNat = op then s.done f code else s

/-- Scope of a command (R427). -/
inductive Scope where
  | d | p | r | f
deriving DecidableEq, Repr

/-- A command in progress, as its own checks see it: the function and its number, the region it is about, its arguments. -/
structure Call where
  fn : Fn
  f : Nat
  r : RegionId
  a : ArgBlock

/-- Every byte of the block that no range of `named` covers is zero. -/
def blkZero (a : ArgBlock) (named : List (Nat × Nat)) : Bool :=
  (List.range 64).all (fun k => named.any (fun q => decide (q.1 ≤ k) && decide (k < q.1 + q.2)) || argAt a k 1 == 0)

/-- A buffer slot of a function (R429). -/
def State.buffer (s : State) (f slot : Nat) : Buffer := Tab.get Buffer.reset (Tab.get [] s.hub.bufs f) slot

/-- `s` with a buffer slot replaced. -/
def State.setBuffer (s : State) (f slot : Nat) (b : Buffer) : State :=
  { s with hub := { s.hub with bufs := s.hub.bufs.put f (Tab.put (Tab.get [] s.hub.bufs f) slot b) } }

/-- The handle check in the order of R430: owner, then freed. -/
def State.handleCheck (s : State) (fn : Fn) (h : Nat) : Option Nat :=
  if h / 2 ^ 24 ≠ fnOwner fn then some eOwner
  else
    let b := s.buffer (fnNo fn) (h % 256)
    if b.used = false ∨ b.gen.toNat ≠ h / 256 % 65536 then some eFreed else none

/-- A host reference at offset 0 of the block, for `reach` bytes (R430). -/
def State.hrefCheck (s : State) (c : Call) (reach : Nat) : Option Nat :=
  match s.handleCheck c.fn (argAt c.a 0 4) with
  | some e => some e
  | none => if argAt c.a 8 8 + reach > (s.buffer c.f (argAt c.a 0 1)).len.toNat then some eRange else none

/-- Bus address of a checked host reference at offset 0. -/
def State.hrefAddr (s : State) (c : Call) : Nat := (s.buffer c.f (argAt c.a 0 1)).iova.toNat + argAt c.a 8 8

/-- A doorbell (R423, R424): accepted unless BUSY; then the checks of steps 1 to 4, and the command's own meaning. A VF's
doorbell reaches the part only while its function is enabled (R422); before READY the write is ignored (18 R449). -/
def mailCommand (op : Nat) (scope : Scope) (named : List (Nat × Nat)) (reach : State → Call → Option Nat) (fn : Fn)
    (rg : RegionId) (tag : BitVec 16) (a : ArgBlock) (body : Call → State → State) (s : State) : State :=
  let f := fnNo fn
  let n : RegionId := match fn with
    | .pf => rg
    | .vf n => n
  let vf : Bool := match fn with
    | .pf => false
    | .vf _ => true
  if s.resets.ready = false ∨ (vf = true ∧ s.vfOn n = false) then s
  else if (s.mail f).busy then s.modMail f (fun m => { m with dropped := true })
  else
    let s := s.modMail f (fun m => { m with
      args := a, busy := true, dropped := false, curOp := BitVec.ofNat 8 op, curTag := tag, curRegion := n, curArgs := a,
      since := s.beats, wall := s.wall })
    let c : Call := { fn := fn, f := f, r := n, a := a }
    if s.hub.fwState ≠ 2 then s.done f eState
    else if vf = true ∧ (scope = .d ∨ scope = .p) then s.done f eBadop
    else if (scope = .r ∨ vf = true) ∧ (s.region n).st ≠ .granted then s.done f eState
    else if blkZero a named = false ∨ (rg ≠ 0 ∧ (vf = true ∨ scope = .d ∨ scope = .f)) then s.done f eBadarg
    else match reach s c with
      | some n => match s.hrefCheck c n with
        | some e => s.done f e
        | none => body c s
      | none => body c s

/-- No host reference. -/
def noHref : State → Call → Option Nat := fun _ _ => none

/-- The functions whose command in flight has opcode `op`. -/
def State.inFlight (s : State) (op : Nat) : List Nat :=
  (s.hub.mail.filter (fun e => e.2.busy && e.2.curOp.toNat == op)).map (·.1)

/-- The functions whose command in flight has opcode `op` and is about region `r`. -/
def State.inFlightOf (s : State) (op : Nat) (r : RegionId) : List Nat :=
  (s.hub.mail.filter (fun e => e.2.busy && e.2.curOp.toNat == op && e.2.curRegion == r)).map (·.1)

/-- Complete every command of a list of functions. -/
def State.doneAll (s : State) (fs : List Nat) (code : Nat) : State := fs.foldl (fun s f => s.done f code) s

/-- Bytes the part writes to host memory, at bus addresses (R420). -/
def State.hostWrite (s : State) (at_ : Nat) (b : List Byte) : State :=
  { s with hub := { s.hub with hostOut := s.hub.hostOut.putList at_ b } }

/-! ### Handles (R429, R431) -/

/-- A slot freed: its generation goes on. -/
def Buffer.free (b : Buffer) : Buffer := if b.used then { b with used := false, gen := b.gen + 1 } else b

/-- Every handle of a function freed. -/
def State.freeHandles (s : State) (f : Nat) : State :=
  { s with hub := { s.hub with bufs := s.hub.bufs.put f (Tab.mapVals (fun _ b => b.free) (Tab.get [] s.hub.bufs f)) } }

/-- An export of the region is under way: it runs, or its step is committed and it has still to begin (15 R392). -/
def Exp.active (x : Exp) : Bool := x.running || !x.want.isEmpty

/-- An export that writes into a handle of the function is under way (R431). -/
def State.exportUses (s : State) (fn : Fn) (slot : Nat) : Bool :=
  s.regions.any (fun e => e.2.exp.active && e.2.exp.fn == fn && e.2.exp.slot == slot)

/-- The handle that holds the ring of the region's export is still the one FW_EXPORT named (R420, R430). -/
def State.ringHeld (s : State) (x : Exp) : Bool :=
  let b := s.buffer (fnNo x.fn) x.slot
  b.used && b.gen == x.gen

/-- BUF_REG (R429). -/
def execBufReg (fn : Fn) (rg : RegionId) (tag : BitVec 16) (a : ArgBlock) (s : State) : Host.Outcome State Fault Refusal :=
  .next (mailCommand 0x0C .f [(0, 16)] noHref fn rg tag a (fun c s =>
    let iova := argAt c.a 0 8
    let len := argAt c.a 8 8
    if iova % 4096 ≠ 0 ∨ len % 4096 ≠ 0 ∨ len < 4096 ∨ len > 2 ^ 40 then s.done c.f eRange
    else match (List.range 256).find? (fun k => !(s.buffer c.f k).used) with
      | none => s.done c.f eNores
      | some k =>
        let b := s.buffer c.f k
        (s.setBuffer c.f k { b with used := true, iova := BitVec.ofNat 64 iova, len := BitVec.ofNat 64 len }).complete c.f eOk
          (some (BitVec.ofNat 32 (fnOwner c.fn * 2 ^ 24 + b.gen.toNat * 256 + k)))) s)

/-- BUF_FREE (R431). -/
def execBufFree (fn : Fn) (rg : RegionId) (tag : BitVec 16) (a : ArgBlock) (s : State) : Host.Outcome State Fault Refusal :=
  .next (mailCommand 0x0D .f [(0, 4)] noHref fn rg tag a (fun c s =>
    match s.handleCheck c.fn (argAt c.a 0 4) with
    | some e => s.done c.f e
    | none =>
      let k := argAt c.a 0 1
      if s.exportUses c.fn k then s.done c.f eBusy
      else (s.setBuffer c.f k (s.buffer c.f k).free).done c.f eOk) s)

/-! ### Function-level reset (R422) -/

/-- FW_EVT.EXP_FAIL, and the export ends, with those that have still to begin (15 R391, R396). -/
def endExport (r : RegionId) (s : State) : State :=
  if (s.region r).exp.active then
    (s.modRegion r (fun g => { g with exp := { g.exp with running := false, left := [], want := [] } })).fwEvent r 3
  else s

/-- What an FLR does to a function but for its command in progress: exports into its handles end, its handles are freed, its
MSI-X state resets. -/
def functionReset (fn : Fn) (s : State) : State :=
  let f := fnNo fn
  let s := s.regions.foldl (fun s e =>
    if e.2.exp.active && e.2.exp.fn == fn then endExport (BitVec.ofNat 6 e.1) s else s) s
  let s := s.freeHandles f
  { s with hub := { s.hub with msix := s.hub.msix.filter (fun m => m.1 ≠ f) } }

end Sys2Proof.Machine
end

