-- ==== Sys2Proof/Machine/Memory.lean ====
section
/-!
DEFINITION. Sys2Proof/Machine/Memory.lean: the external memories and address translation (11_memory_tiers.md): device
addresses, zero marks, poison, accumulation, the walker, and the memory events.
-/
namespace Sys2Proof.Machine
open Sys2Proof

/-! ### Device addresses (R282, R283, R284, R288) -/

/-- A channel: HBM c, or LPDDR c. -/
inductive MChan where
  | hbm (c : Nat)
  | lpddr (c : Nat)
deriving DecidableEq, Repr

/-- The channel of a device address, if it is mapped memory. -/
def chanOf (pa : Nat) : Option MChan :=
  if pa < 0x6000000000 then some (.hbm (pa / 0x60000000))
  else if 0x8000000000 ≤ pa ∧ pa < 0xE000000000 then some (.lpddr ((pa - 0x8000000000) / 0x180000000))
  else none

/-- Base of a channel. -/
def MChan.base : MChan → Nat
  | .hbm c => c * 0x60000000
  | .lpddr c => 0x8000000000 + c * 0x180000000

/-- Size of a channel. -/
def MChan.size : MChan → Nat
  | .hbm _ => 0x60000000
  | .lpddr _ => 0x180000000

/-- Register space (R282). -/
def inRegs (pa : Nat) : Bool := decide (0xF000000000 ≤ pa)

/-- The frame store (R284). -/
def frameStoreBase : Nat := 0x0BFE000000

/-- An address of the frame store. -/
def inFrameStore (pa : Nat) : Bool := decide (frameStoreBase ≤ pa) && decide (pa < 0x0C00000000)

/-- The section owns the channel (R288). -/
def RegionCfg.ownsChan (c : RegionCfg) : MChan → Bool
  | .hbm n => c.hbm.getLsbD n
  | .lpddr n => c.lpddr.getLsbD n

/-- The region owns the channel of the address, outside the frame store. -/
def Region.ownsAddr (g : Region) (pa : Nat) : Bool :=
  match g.cfg, chanOf pa with
  | some c, some k => c.ownsChan k && !inFrameStore pa
  | _, _ => false

/-- The region that owns the channel of an address; none for a provider channel. -/
def State.chanOwner (s : State) (pa : Nat) : Option RegionId :=
  match chanOf pa with
  | none => none
  | some k => (s.regions.find? (fun e => match e.2.cfg with
      | some c => c.ownsChan k
      | none => false)).map (fun e => BitVec.ofNat 6 e.1)

/-! ### Reads and writes (R303, R305, R309) -/

/-- A 2 MiB page number. -/
def pageOf (pa : Nat) : Nat := pa / 0x200000

/-- The canonical form of the external memories: bytes by rising address, none zero, none in a marked page; pages and
poisoned lines rising. -/
def Memory.wf (m : Mem) : Bool :=
  m.bytes.wf && risesFrom 0 m.unmarked && risesFrom 0 m.poison && m.bytes.all (fun c => m.unmarked.contains (pageOf c.1))

/-- The page's zero mark is set (R305). -/
def Mem.marked (m : Mem) (page : Nat) : Bool := !m.unmarked.contains page

/-- The first poisoned line of `n` bytes at `pa`, by its address (R309). -/
def Mem.poisonedAt (m : Mem) (pa n : Nat) : Option Nat :=
  ((List.range ((pa + n + 63) / 64 - pa / 64)).find? (fun k => m.poison.contains (pa / 64 + k))).map
    (fun k => (pa / 64 + k) * 64)

/-- What undefined contents add to the byte at `a`: a byte of each free value that veils it. -/
def Mem.mask (m : Mem) (a : Nat) : Byte :=
  m.veils.foldl (fun x v => if v.1 ≤ a ∧ a < v.2.1 then x ^^^ (Config.free (2 ^ 43) v.2.2).extractLsb' (8 * a) 8 else x) 0

/-- The byte at device address `a`; a marked page lists nothing and so reads zero. -/
def Mem.byte (m : Mem) (a : Nat) : Byte := m.bytes.get a ^^^ m.mask a

/-- `n` bytes at `pa`. -/
def Mem.read (m : Mem) (pa n : Nat) : List Byte := (List.range n).map (fun k => m.byte (pa + k))

/-- The contents of `lo` up to `hi` are defined again: no free value masks them. -/
def Mem.unveil (m : Mem) (lo hi : Nat) : Mem :=
  let cut := m.veils.flatMap (fun v => [(v.1, min v.2.1 lo, v.2.2), (max v.1 hi, v.2.1, v.2.2)])
  { m with veils := cut.filter (fun v => decide (v.1 < v.2.1)) }

/-- The contents of `lo` up to `hi` become undefined (log entry 6). -/
def State.veil (s : State) (lo hi : Nat) : State :=
  { s with free := s.free + 1, mem := { s.mem with veils := (lo, hi, s.free) :: s.mem.veils } }

/-- A row of 512 bytes at `pa`. -/
def Mem.readRow (m : Mem) (pa : Nat) : Row := BitVec.ofNat 4096 (leNat (m.read pa 512))

/-- Bytes of a row, lowest first. -/
def rowBytes (x : Row) : List Byte := leBytes 512 x.toNat

/-- The first write to a marked page writes zero to it and clears the mark. -/
def Mem.touch (m : Mem) (page : Nat) : Mem := { m with unmarked := addNat page m.unmarked }

/-- A line of 64 bytes is poisoned (R309). -/
def Mem.poisonLine (m : Mem) (line : Nat) : Mem := { m with poison := addNat line m.poison }

/-- Every page of `n` bytes at `pa` touched. -/
def Mem.touchRange (m : Mem) (pa n : Nat) : Mem :=
  (List.range (pageOf (pa + n - 1) + 1 - pageOf pa)).foldl (fun m k => m.touch (pageOf pa + k)) m

/-- Bytes written at `pa`: lines written whole lose their poison. -/
def Mem.write (m : Mem) (pa : Nat) (b : List Byte) : Mem :=
  if b.isEmpty then m
  else
    let m := m.touchRange pa b.length
    { m with
      bytes := m.bytes.putList pa ((List.range b.length).map (fun k => b.getD k 0 ^^^ m.mask (pa + k))),
      poison := m.poison.filter (fun l => !(decide (pa ≤ l * 64) && decide (l * 64 + 64 ≤ pa + b.length))) }

/-- A page is marked: it reads zero (R305). -/
def Mem.mark (m : Mem) (page : Nat) : Mem :=
  let m := m.unveil (page * 0x200000) (page * 0x200000 + 0x200000)
  { m with
    bytes := m.bytes.clear (fun a => pageOf a == page), unmarked := m.unmarked.filter (fun p => p ≠ page),
    poison := m.poison.filter (fun l => l / 32768 ≠ page) }

/-- Every page of the channels `p` selects is marked, except the frame store (R306). -/
def Mem.markChannels (m : Mem) (p : MChan → Bool) : Mem :=
  let sel (pa : Nat) : Bool := (match chanOf pa with
    | some k => p k
    | none => false) && !inFrameStore pa
  let m := (((List.range 256).map MChan.hbm) ++ ((List.range 64).map MChan.lpddr)).foldl (fun m k =>
    if p k then m.unveil k.base (if k = .hbm 31 then frameStoreBase else k.base + k.size) else m) m
  { m with
    bytes := m.bytes.clear sel, unmarked := m.unmarked.filter (fun q => !sel (q * 0x200000)),
    poison := m.poison.filter (fun l => !sel (l * 64)) }

/-- Zero `n` bytes at `pa` that lie in one page: the whole page is marked, a part of it is written (R305). -/
def Mem.zero (m : Mem) (pa n : Nat) : Mem :=
  if n = 0x200000 ∧ pa % 0x200000 = 0 then m.mark (pageOf pa)
  else
    let m := (m.touch (pageOf pa)).unveil pa (pa + n)
    { m with
      bytes := m.bytes.clear (fun a => decide (pa ≤ a) && decide (a < pa + n)),
      poison := m.poison.filter (fun l => !(decide (pa ≤ l * 64) && decide (l * 64 + 64 ≤ pa + n))) }

/-- Pages of the region's channels whose mark is set (ZERO_PEND). -/
def State.zeroPend (s : State) (g : Region) : Nat :=
  match g.cfg with
  | none => 0
  | some c =>
    let total := popCount c.hbm.toNat 256 * 768 + popCount c.lpddr.toNat 64 * 3072
    total - (s.mem.unmarked.filter (fun q => match chanOf (q * 0x200000) with
      | some k => c.ownsChan k
      | none => false)).length

/-! ### Accumulate-on-write (R302) -/

/-- One element accumulated: the result, whether it flushed, whether it is not finite. -/
def accElem (f : Format) (a b : Nat) : Nat × Bool × Bool :=
  let x := decode f a
  let y := decode f b
  let sub := f == .fp32 && (isSub f x || isSub f y)
  let fl (v : Num) : Num := if f == .fp32 && isSub f v then .fin false 0 0 else v
  match f with
  | .fp32 =>
    let r := tensorNum .fp32 (Num.add false (fl x) (fl y))
    (r.1, sub || r.2.subflush != 0, (match decode .fp32 r.1 with
      | .fin _ _ _ => false
      | _ => true))
  | f =>
    let z := Num.add false x y
    let r := (ieeeNum f 0 z).code
    let r := if r = signBit f true then 0 else r
    (r, false, (match decode f r with
      | .fin _ _ _ => false
      | _ => true))

/-- Elements of `w` bytes accumulated in order: bytes, flushes, non-finite results. -/
def accBytes (f : Format) (w : Nat) : Nat → List Byte → List Byte → List Byte × Nat × Nat
  | 0, _, _ => ([], 0, 0)
  | n + 1, old, new =>
    let e := accElem f (leNat (old.take w)) (leNat (new.take w))
    let r := accBytes f w n (old.drop w) (new.drop w)
    (leBytes w e.1 ++ r.1, r.2.1 + (if e.2.1 then 1 else 0), r.2.2 + (if e.2.2 then 1 else 0))

/-- Accumulate `b` into memory for region `r`; the counts of MACC_SUBFLUSH and MACC_NF (R302). A poisoned line stays as
it is: its address comes back. -/
def State.accumulate (s : State) (r : RegionId) (bf16 : Bool) (pa : Nat) (b : List Byte) : Option Nat × State :=
  match s.mem.poisonedAt pa b.length with
  | some l => (some l, s)
  | none =>
    let w := if bf16 then 2 else 4
    let q := accBytes (if bf16 then .bf16 else .fp32) w (b.length / w) (s.mem.read pa b.length) b
    let s := { s with mem := s.mem.write pa q.1 }
    (none, s.modRegion r (fun g => { g with mem := { g.mem with
      subflush := Word.satAdd g.mem.subflush q.2.1, nf := Word.satAdd g.mem.nf q.2.2 } }))

/-! ### Quarantine (01 R40 to R42) -/

/-- Class and index of a channel. -/
def MChan.unit : MChan → Nat × Nat
  | .hbm c => (3, c)
  | .lpddr c => (4, c)

/-- The channel of the address is quarantined: DETAIL of STALE_UNIT (R41; 03 R108). -/
def State.staleAt (s : State) (pa : Nat) : Option Nat :=
  match chanOf pa with
  | none => none
  | some k => if s.stale k.unit.1 k.unit.2 then some (k.unit.1 + (k.unit.2 <<< 8)) else none

/-! ### The walker (R291 to R296) -/

/-- Access kinds of DETAIL. -/
abbrev kRead : Nat := 0
abbrev kWrite : Nat := 1
abbrev kAcc : Nat := 2
abbrev kZero : Nat := 3

/-- What a translation gives: a device address, or a fault with DETAIL. -/
inductive Walked where
  | ok (pa : Nat)
  | fault (code detail : Nat)
deriving DecidableEq, Repr

/-- DETAIL of a walk fault (R293). -/
def walkDetail (entry level reason kind : Nat) : Nat := entry + (level <<< 40) + (reason <<< 42) + (kind <<< 45)

/-- The leaf permits the access. -/
def leafAllows (leaf kind : Nat) : Bool :=
  if kind = kRead then (leaf >>> 1) % 2 == 1 else if kind = kAcc then (leaf >>> 3) % 2 == 1 else (leaf >>> 2) % 2 == 1

/-- Orders 5 to 7 for a leaf (R293). -/
def leafCheck (g : Region) (at_ leaf kind va : Nat) : Walked :=
  let page := (leaf >>> 21) % 2 ^ 19 * 0x200000
  if inRegs page then .fault fWalkIo (walkDetail at_ 0 0 kind)
  else if !g.ownsAddr page then .fault fWalkFault (walkDetail at_ 0 2 kind)
  else if !leafAllows leaf kind then .fault fWalkFault (walkDetail at_ 0 3 kind)
  else .ok (page + va % 0x200000)

/-- The next table lies in the region's pool (R294). -/
def RegionCfg.inPool (c : RegionCfg) (pa : Nat) : Bool := decide (c.poolBase ≤ pa) && decide (pa + 1024 ≤ c.poolBase + c.poolSize)

/-- Read entries from level `n` down at `table`; on success also the leaf's address and value (R291 to R293). -/
def walkLevels (m : Mem) (g : Region) (kind va : Nat) : Nat → Nat → Walked × Nat × Nat
  | 0, _ => (.fault fWalkFault 0, 0, 0)
  | n + 1, table =>
    let at_ := table + 8 * ((va >>> (21 + 7 * n)) % 128)
    let e := leNat (m.read at_ 8)
    match m.poisonedAt at_ 8 with
    | some l => (.fault fMemUe l, 0, 0)
    | none =>
      if e % 2 = 0 then (.fault fWalkFault (walkDetail at_ n 0 kind), 0, 0)
      else if n = 0 then
        if (e >>> 4) % 2 ^ 17 ≠ 0 ∨ (e >>> 40) ≠ 0 then (.fault fWalkFault (walkDetail at_ 0 1 kind), 0, 0)
        else (leafCheck g at_ e kind va, at_, e)
      else if (e >>> 1) % 2 ^ 9 ≠ 0 ∨ (e >>> 40) ≠ 0 then (.fault fWalkFault (walkDetail at_ n 1 kind), 0, 0)
      else
        let next := (e >>> 10) % 2 ^ 30 * 1024
        if inRegs next then (.fault fWalkIo (walkDetail at_ n 0 kind), 0, 0)
        else if (match g.cfg with
            | some c => !c.inPool next
            | none => true) then (.fault fWalkPool (walkDetail at_ n 0 kind), 0, 0)
        else walkLevels m g kind va n next

/-- Translate one virtual address for region `r` (R295, R296): the cache first, then a walk, which is counted and fills
the cache. -/
def State.translate (s : State) (r : RegionId) (va kind : Nat) : Walked × State :=
  let g := s.region r
  let va := va % 2 ^ 48
  match g.mem.tlb.find? (fun e => e.vpn == va / 0x200000) with
  | some e => (leafCheck g e.at_ e.leaf.toNat kind va, s)
  | none =>
    let q := walkLevels s.mem g kind va 4 g.mem.root.toNat
    let s := s.modRegion r (fun g => { g with mem := { g.mem with miss := Word.satAdd g.mem.miss 1 } })
    match q with
    | (.ok pa, at_, leaf) =>
      (.ok pa, s.modRegion r (fun g => { g with mem := { g.mem with
        tlb := ({ vpn := va / 0x200000, at_ := at_, leaf := BitVec.ofNat 64 leaf } :: g.mem.tlb).take 256 } }))
    | (f, _, _) => (f, s)

/-- WALK_VA keeps the first walk fault (R293). -/
def State.latchWalk (s : State) (r : RegionId) (va code : Nat) : State :=
  s.modRegion r (fun g =>
    if g.mem.armed && code != fMemUe then
      { g with mem := { g.mem with walkVa := BitVec.ofNat 48 va, armed := false } }
    else g)

/-- A walk of an access that no tile made: translated, or charged with TILE_VALID 0 (R296). -/
def State.engineWalk (s : State) (r : RegionId) (va kind : Nat) : Option Nat × State :=
  match s.translate r va kind with
  | (.ok pa, s) => (some pa, s)
  | (.fault code detail, s) => (none, (s.latchWalk r va code).raise r none none code detail)

/-! ### DMA (R298 to R301) -/

/-- VA of a DMA register. -/
def drVa (x : BitVec 128) : Nat := Word.bits x 0 48
/-- ACCFMT. -/
def drBf16 (x : BitVec 128) : Bool := Word.bit x 48
/-- SIGEN. -/
def drSigen (x : BitVec 128) : Bool := Word.bit x 49
/-- STRIDE. -/
def drStride (x : BitVec 128) : Nat := Word.bits x 64 32
/-- SIGOBJ. -/
def drSigobj (x : BitVec 128) : BitVec 16 := x.extractLsb' 96 16
/-- ITEM. -/
def drItem (x : BitVec 128) : BitVec 16 := x.extractLsb' 112 16

/-- Access kind of a DMA. -/
def DmaOp.kind : DmaOp → Nat
  | .rd => kRead | .xr => kRead | .wr => kWrite | .acc => kAcc | .zf => kZero

/-- The virtual addresses a DMA translates: its rows, or the pieces of a zero-fill page by page. -/
def Dma.vas (d : Dma) : List Nat :=
  if d.op = .zf then
    let va := drVa d.dr
    let len := drStride d.dr * 512
    (List.range ((va + len - 1) / 0x200000 + 1 - va / 0x200000)).map (fun k => if k = 0 then va else (va / 0x200000 + k) * 0x200000)
  else (List.range d.n).map (fun k => (drVa d.dr + k * drStride d.dr) % 2 ^ 48)

/-- Bytes of piece `k` of a zero-fill. -/
def Dma.piece (d : Dma) (k : Nat) : Nat :=
  let va := drVa d.dr
  let stop := va + drStride d.dr * 512
  let lo := if k = 0 then va else (va / 0x200000 + k) * 0x200000
  min stop ((va / 0x200000 + k + 1) * 0x200000) - lo

/-- Translate a list of addresses in order, stopping at the first failure. -/
def translateAll (r : RegionId) (kind : Nat) : List Nat → State → (List Nat × Option (Nat × Nat × Nat)) × State
  | [], s => (([], none), s)
  | va :: rest, s =>
    match s.translate r va kind with
    | (.fault code detail, s) => (([], some (va, code, detail)), s)
    | (.ok pa, s) =>
      let q := translateAll r kind rest s
      ((pa :: q.1.1, q.1.2), q.2)

/-- `s` with the DMA numbered `id` of tile `t` replaced by what `f` gives, or removed. -/
def State.modDma (s : State) (t : TileId) (id : Nat) (f : Dma → Option Dma) : State :=
  s.modTile t (fun x => { x with dmas := x.dmas.filterMap (fun d => if d.id = id then f d else some d) })

/-- PAGE_WALK (R293, R296, R299): every page of a tile's DMA, or the page of another access. A halted region's memory takes none of
them (03 R109). -/
def execPageWalk (req : WalkReq) (s : State) : Host.Outcome State Fault Refusal :=
  match req with
  | .engine r va kind => .next (if (s.region r).brake.halted then s else (s.engineWalk r va.toNat kind.toNat).2)
  | .tileDma t id =>
    match s.regionOf t, (s.tile t).dmas.find? (fun d => d.id == id) with
    | some r, some d =>
      if d.pas.isSome || (s.region r).brake.halted then .next s
      else match translateAll r d.op.kind d.vas s with
        | ((pas, none), s) => .next (s.modDma t id (fun d => some { d with pas := some pas }))
        | ((_, some (va, code, detail)), s) =>
          .next (((s.latchWalk r va code).modDma t id (fun _ => none)).raise r (some t) (some (.x, d.pc)) code detail)
    | _, _ => .next s

/-! ### Memory events (R287, R305, R307 to R309) -/

/-- A corrected word of the channel at `addr` is counted: in its region's MEM_CE_CNT, or in the provider's counter (R307). -/
def countCe (addr : Nat) (s : State) : State := match s.chanOwner addr with
  | some r => s.modRegion r (fun g => { g with mem := { g.mem with ce := Word.satAdd g.mem.ce 1 } })
  | none => { s with mem := { s.mem with provCe := Word.satAdd s.mem.provCe 1 } }

/-- MEM_READ_RETRY: what a read of a word met. A single-bit error is corrected, written back and counted (R307). An uncorrectable
one is retried once: a retry that succeeds is counted; one that fails poisons the line, and the read faults MEM_UE. -/
def execMemReadRetry (addr : BitVec 40) (ok : Bool) (t : Option TileId) (s : State) (found : ReadErr := .uncorrectable) :
    Host.Outcome State Fault Refusal :=
  let owner := s.chanOwner addr.toNat
  if (chanOf addr.toNat).isNone ∨ found = .clean then .next s
  else if found = .corrected then .next (countCe addr.toNat s)
  else if ok then match owner with
    | some r => .next (s.modRegion r (fun g => { g with mem := { g.mem with retry := Word.satAdd g.mem.retry 1 } }))
    | none => .next s
  else
    let line := addr.toNat / 64
    let s := { s with mem := s.mem.poisonLine line }
    let mine : Option (TileId × RegionId × Dma) := match t with
      | none => none
      | some t => match s.regionOf t, (s.tile t).dmas.find? (fun d =>
            ((d.pas.getD []).any (fun pa => decide (pa / 64 ≤ line) && decide (line < (pa + 512) / 64)))) with
          | some r, some d => some (t, r, d)
          | _, _ => none
    match mine with
    | some (t, r, d) => .next ((s.modDma t d.id (fun _ => none)).raise r (some t) (some (.x, d.pc)) fMemUe addr.toNat)
    | none => match owner with
      | some r => .next (s.raise r none none fMemUe addr.toNat)
      | none => .next s

/-- PATROL_SCRUB: a line read in idle channel cycles; corrected words are counted, what it cannot correct is poisoned. -/
def execPatrolScrub (addr : BitVec 40) (found : ReadErr) (s : State) : Host.Outcome State Fault Refusal :=
  if (chanOf addr.toNat).isNone then .next s
  else match found with
    | .clean => .next s
    | .corrected => .next (countCe addr.toNat s)
    | .uncorrectable =>
      let line := addr.toNat / 64
      .next { s with mem := s.mem.poisonLine line }

/-- ZERO_SWEEP: a marked page is zeroed and its mark cleared. -/
def execZeroSweep (page : BitVec 19) (s : State) : Host.Outcome State Fault Refusal :=
  if (chanOf (page.toNat * 0x200000)).isSome then .next { s with mem := s.mem.touch page.toNat } else .next s

/-- Number of a stack or package among the throttled units. -/
def memUnitNo : MemUnit → Nat
  | .stack n => n.toNat
  | .package n => 8 + n.toNat

/-- MEM_TEMP_OVER (R287): OVER_LIMIT, and the unit's channels at half their command rate. -/
def execMemTempOver (u : MemUnit) (s : State) : Host.Outcome State Fault Refusal :=
  if s.power.throttled.contains (memUnitNo u) then .next s
  else .next (({ s with power := { s.power with throttled := (memUnitNo u) :: s.power.throttled } }).hubEvent 2)

/-- MEM_TEMP_RECOVER (R287): the full rate returns. -/
def execMemTempRecover (u : MemUnit) (s : State) : Host.Outcome State Fault Refusal :=
  .next { s with power := { s.power with throttled := s.power.throttled.filter (fun k => k ≠ (memUnitNo u)) } }

/-- The regions that claim a unit: the owner of a block, channel or lane, or every region with tiles in a column, whose segment
there is its own unit (01 R40, R41). -/
def State.claimants (s : State) (cls idx : Nat) : List RegionId :=
  let has (c : RegionCfg) : Bool := match cls with
    | 1 => decide (c.col0 ≤ idx) && decide (idx < c.col0 + c.ncols)
    | 2 => c.sync.getLsbD idx
    | 3 => c.hbm.getLsbD idx
    | 4 => c.lpddr.getLsbD idx
    | 5 => c.lpddr.getLsbD idx
    | 6 => let b := c.vlane.getD (idx / 8) 0
           b.getLsbD 7 && b.toNat % 8 == idx % 8
    | _ => false
  (s.regions.filter (fun e => match e.2.cfg with
    | some c => has c
    | none => false)).map (fun e => BitVec.ofNat 6 e.1)

/-- Key of a claimant's record of a unit. -/
def recordKey (cls idx : Nat) (r : RegionId) : Nat := if cls = 1 then columnKey r idx else unitKey cls idx

/-- A claimed unit's record is compared with the current epoch; on a mismatch the unit is quarantined, UNIT_STALE is raised,
and a running region halts (01 R40, R43). -/
def compareUnit (cls idx : Nat) (r : RegionId) (s : State) : State :=
  let k := recordKey cls idx r
  let u := Tab.get UnitRec.reset s.units k
  let g := s.region r
  if u.owner = some r ∧ u.epoch = g.epoch then s
  else
    let s := ({ s with units := s.units.put k { u with quarantined := true } }).regionEvent r 2
    if g.st = .granted ∧ g.brake.halted = false then s.raise r none none fStaleUnit (cls + (idx <<< 8)) else s

/-- The record a unit brings back: the region and epoch it was configured under before it left service (01 R40). A unit that is away
at a load keeps the older one. -/
def bringRecord (k : Nat) (owner : RegionId) (epoch : Word) (s : State) : State :=
  { s with units := s.units.put k { Tab.get UnitRec.reset s.units k with owner := some owner, epoch := epoch } }

/-- The unit no region claims is quarantined, with UNIT_STALE in HUB_EVT (01 R40, R42; 17 R440). -/
def parkUnit (k : Nat) (s : State) : State :=
  ({ s with units := s.units.put k { Tab.get UnitRec.reset s.units k with quarantined := true } }).hubEvent 4

/-- UNIT_RETURN (01 R40, R43): a unit returns with its record, which is compared with the current epoch of the region that owns the
unit now. Of a column it is the segment of the region that owned it (01 R41). The record is the command's operand (log entry 103). -/
def execUnitReturn (cls : BitVec 8) (idx : BitVec 16) (s : State) (owner : RegionId := 0) (epoch : Word := 0) :
    Host.Outcome State Fault Refusal :=
  let c := cls.toNat
  let i := idx.toNat
  let rs := s.claimants c i
  if c = 0 ∨ 6 < c then .next s
  else if c = 1 then
    let s := bringRecord (columnKey owner i) owner epoch s
    .next (if rs.contains owner then compareUnit c i owner s else parkUnit (columnKey owner i) s)
  else
    let s := bringRecord (unitKey c i) owner epoch s
    match rs with
    | [] => .next (parkUnit (unitKey c i) s)
    | rs => .next (rs.foldl (fun s r => compareUnit c i r s) s)

/-- A claimed unit's record takes the current epoch and its quarantine ends (01 R42). -/
def reloadUnit (cls idx : Nat) (r : RegionId) (s : State) : State :=
  let k := recordKey cls idx r
  if (Tab.get UnitRec.reset s.units k).quarantined then
    { s with units := s.units.put k { owner := some r, epoch := (s.region r).epoch, quarantined := false } }
  else s

/-- UNIT_RELOAD (01 R42); a unit that no section claims stays parked. -/
def execUnitReload (cls : BitVec 8) (idx : BitVec 16) (s : State) : Host.Outcome State Fault Refusal :=
  .next ((s.claimants cls.toNat idx.toNat).foldl (fun s r => reloadUnit cls.toNat idx.toNat r s) s)

/-- The units of a section, by class and index. -/
def RegionCfg.units (c : RegionCfg) : List (Nat × Nat) :=
  (List.range c.ncols).map (fun k => (1, c.col0 + k))
  ++ ((List.range 256).filter (fun k => c.sync.getLsbD k)).map (fun k => (2, k))
  ++ ((List.range 256).filter (fun k => c.hbm.getLsbD k)).map (fun k => (3, k))
  ++ ((List.range 64).filter (fun k => c.lpddr.getLsbD k)).flatMap (fun k => [(4, k), (5, k)])
  ++ ((List.range 12).filter (fun p => (c.vlane.getD p 0).getLsbD 7)).map (fun p => (6, 8 * p + (c.vlane.getD p 0).toNat % 8))

/-- Every unit of the region is recorded under its present epoch, in service (01 R40). -/
def recordUnits (r : RegionId) (s : State) : State :=
  let g := s.region r
  match g.cfg with
  | none => s
  | some c => { s with units := c.units.foldl (fun (m : Tab UnitRec) u =>
      m.put (recordKey u.1 u.2 r) { owner := some r, epoch := g.epoch, quarantined := false }) s.units }

/-- A unit of the region is quarantined (01 R43). -/
def State.unitsWait (s : State) (r : RegionId) : Bool := match (s.region r).cfg with
  | none => false
  | some c => c.units.any (fun u => (Tab.get UnitRec.reset s.units (recordKey u.1 u.2 r)).quarantined)

end Sys2Proof.Machine
end

