-- ==== Sys2Proof/Machine/LinkUnit.lean ====
section
/-!
DEFINITION. Sys2Proof/Machine/LinkUnit.lean: the link ports (12_links_and_cadence.md): flits and their checks, replay, port
states, hellos, what a slot sends, and how received bytes become transactions.
-/
namespace Sys2Proof.Machine
open Sys2Proof

/-! ### Flits (R314, R317) -/

/-- TYPE. -/
def flType (f : Flit) : Nat := Word.bits f 0 8
/-- VL byte. -/
def flVl (f : Flit) : Nat := Word.bits f 8 8
/-- SEQ. -/
def flSeq (f : Flit) : BitVec 12 := f.extractLsb' 16 12
/-- ACK. -/
def flAck (f : Flit) : BitVec 12 := f.extractLsb' 32 12
/-- NAK. -/
def flNak (f : Flit) : Bool := Word.bit f 47
/-- `n` bytes of the flit at offset `o`. -/
def flAt (f : Flit) (o n : Nat) : Nat := Word.bits f (8 * o) (8 * n)
/-- The PAYLOAD bytes. -/
def flPayload (f : Flit) : List Byte := leBytes 244 (flAt f 8 244)

abbrev tIdle : Nat := 0
abbrev tData : Nat := 1
abbrev tCtrl : Nat := 2
abbrev tHold : Nat := 3

/-- A flit with its CRC (R314, R315). -/
def mkFlit (type vl seq ack payload : Nat) : Flit :=
  let body := type % 256 + ((vl % 256) <<< 8) + ((seq % 65536) <<< 16) + ((ack % 65536) <<< 32)
    + ((payload % 2 ^ 1952) <<< 64)
  BitVec.ofNat 2048 (body + (crc32c (leBytes 252 body) <<< 2016))

/-- The must-be-zero fields of a flit of the type (R314, R317). -/
def flZeros (type : Nat) (f : Flit) : Bool :=
  flAt f 6 2 == 0
  && (if type = tData then decide (flVl f < 8) else flVl f == 0)
  && (if type = tCtrl ∨ type = tHold then flAt f 2 2 == 0 else true)
  && (if type = tIdle ∨ type = tHold then flAt f 8 244 == 0 else true)
  && (if type = tCtrl then
        Word.bits f (8 * 0x21 + 2) 6 == 0 && flAt f 0x22 6 == 0 && Word.bits f (8 * 0x28 + 3) 5 == 0 && flAt f 0x32 2 == 0
        && flAt f 0x38 16 == 0 && flAt f 0x58 164 == 0
      else true)

/-- The flit is good and of the type (R313, R315). -/
def flGood (type : Nat) (f : Flit) (ue : Bool) : Bool :=
  !ue && flType f == type && flZeros type f && crc32c (leBytes 252 (f.toNat % 2 ^ 2016)) == flAt f 252 4

/-! ### Ports (R320 to R323) -/

/-- The port receives and sends flits. -/
def Port.running (x : Port) : Bool := x.st == .up || x.st == .hold || x.st == .peerWarm

/-- Lanes in use. -/
def Port.lanesInUse (x : Port) : Nat := popCount x.lanesOk.toNat 4

/-- The hello check (R323): equal tags, none of them 0, and IDENT at both ends. -/
def State.helloPasses (s : State) (x : Port) : Bool :=
  s.frame.tag != 0 && x.nbrTag == s.frame.tag && x.nbrIdent && s.ident.ident

/-- The credits of every lane at an entry to UP (R328). -/
def LaneSt.fresh (l : LaneSt) : LaneSt := { l with sent := 0, freed := 0, peerFreed := 0, lastCredit := 0 }

/-- The port enters UP. -/
def enterUp (p : PortId) (s : State) : State :=
  s.modPort p (fun x => { x with st := .up, lanes := Tab.mapVals (fun (_ : Nat) (l : LaneSt) => l.fresh) x.lanes })

/-- The port enters HOLD, with its event. -/
def enterHold (p : PortId) (s : State) : State := (s.modPort p (fun x => { x with st := .hold })).portEvent p 2

/-- UP or HOLD by the hello check. -/
def enterChecked (p : PortId) (s : State) : State :=
  if s.helloPasses (s.port p) then enterUp p s else enterHold p s

/-- The port stops sending and trains (R320, R321). -/
def startTraining (p : PortId) (s : State) : State :=
  s.modPort p (fun x => { x.deskew with
    st := .training, trainAt := s.beats, resend := [], nakSeq := none, nakCount := 0, replayAt := none })

/-- Late items partly received on the port are discarded (R322). -/
def Tile.dropItems (p : PortId) (x : Tile) : Tile :=
  let e := x.exch
  { x with exch := { e with decls := e.decls.map (fun d =>
      if d.port = some p ∧ d.complete = false then { d with written := [], port := none } else d) } }

/-- The port enters FAILED: its replay buffer and the buffers of every lane are emptied (R322). -/
def failPort (p : PortId) (s : State) : State :=
  let s := s.modPort p (fun x => { x.deskew with
    st := .failed, buf := [], resend := [], nak := false, nakSeq := none, nakCount := 0, replayAt := none, lanes := [],
    slot := 0, txSeq := 0, rxSeq := 0 })
  let s := { s with
    regions := Tab.mapVals (fun (_ : Nat) (g : Region) => if (g.lane p).isSome then
      { g with gateOut := Tab.put g.gateOut p.toNat [], inRows := g.inRows.filter (fun q => q.decl.isSome || q.port ≠ p) } else g) s.regions,
    tiles := Tab.mapVals (fun (_ : Nat) (x : Tile) => x.dropItems p) s.tiles }
  s.portEvent p 1

/-- A lane is bad (R320): the ends retrain without it, or the port fails. -/
def badLane (p : PortId) (lane : BitVec 2) (s : State) : State :=
  let x := s.port p
  if x.running ∧ x.lanesOk.getLsbD lane.toNat then
    let s := (s.modPort p (fun x => { x with lanesOk := x.lanesOk &&& ~~~(1#4 <<< lane.toNat) })).portEvent p 0
    if (s.port p).lanesInUse < 2 then failPort p s else startTraining p s
  else s

/-! ### Acknowledgement and replay (R318, R319) -/

/-- Sequence number `q` lies before `a`. -/
def seqBefore (q a : BitVec 12) : Bool := decide ((a - q - 1).toNat < 2048)

/-- ACK and NAK of a good flit: acknowledged flits leave the buffer; every NAK is counted (R341), and one starts a resend from the
named SEQ, once the resend before it has gone out. -/
def takeAck (f : Flit) (beats : Nat) (x : Port) : Port :=
  let a := flAck f
  let x := { x with
    buf := x.buf.filter (fun e => !seqBefore e.1 a), resend := x.resend.filter (fun e => !seqBefore e.1 a),
    replays := Word.satAdd x.replays (if flNak f then 1 else 0) }
  let x := match x.nakSeq with
    | some q => if seqBefore q a then { x with nakSeq := none, nakCount := 0, replayAt := none } else x
    | none => x
  if flNak f && x.resend.isEmpty then
    let again := x.nakSeq == some a
    { x with
      resend := x.buf, nakSeq := some a,
      nakCount := if again then x.nakCount + 1 else 1, replayAt := if again then x.replayAt else some beats }
  else x

/-- A sequenced flit: accepted if it is good and the expected one. -/
def acceptSeq (good : Bool) (f : Flit) (x : Port) : Bool × Port :=
  if good && flSeq f == x.rxSeq then (true, { x with rxSeq := x.rxSeq + 1, nak := false }) else (false, { x with nak := true })

/-! ### Transactions (R329, R330) -/

/-- CODE. -/
def Txn.code (t : Txn) : Nat := Word.bits t.hdr 0 8
/-- FLAGS. -/
def Txn.flags (t : Txn) : Nat := Word.bits t.hdr 8 8
/-- SDEV. -/
def Txn.sdev (t : Txn) : BitVec 16 := t.hdr.extractLsb' 32 16
/-- LEN. -/
def Txn.len (t : Txn) : Nat := Word.bits t.hdr 48 16
/-- `n` bits of ARGS from bit `lo`. -/
def Txn.arg (t : Txn) (lo n : Nat) : Nat := Word.bits t.hdr (64 + lo) n
/-- 16-byte units of a transaction (R328). -/
def Txn.units (t : Txn) : Nat := 1 + t.len / 16
/-- The bytes on the wire. -/
def Txn.bytes (t : Txn) : List Byte := leBytes 16 t.hdr.toNat ++ t.data

/-- LEN that R330 allows for the code. -/
def lenOk (code len : Nat) : Bool := match code with
  | 0x01 => len == 512
  | 0x02 => len % 64 == 0 && decide (64 ≤ len) && decide (len ≤ 512)
  | 0x03 => len % 64 == 0 && decide (64 ≤ len) && decide (len ≤ 512)
  | 0x09 => decide (len ≤ 512)
  | _ => len == 0

/-- A header a receiver accepts: a defined code, its own device number, and a length of the code. -/
def hdrOk (dev : BitVec 16) (t : Txn) : Bool :=
  decide (1 ≤ t.code) && decide (t.code ≤ 9) && t.hdr.extractLsb' 16 16 == dev && lenOk t.code t.len

/-- Units freed on a lane (R327, R328). -/
def freeUnits (p : PortId) (v : Lane) (n : Nat) (s : State) : State :=
  s.modLane p v (fun l => { l with freed := l.freed + BitVec.ofNat 16 n })

/-- A transaction discarded: counted, its credits returned (R326, R330). -/
def dropTxn (p : PortId) (v : Lane) (t : Txn) (s : State) : State :=
  freeUnits p v t.units (s.modPort p (fun x => { x with drop := Word.satAdd x.drop 1 }))

/-- A restore request or a RESTORE move of the freewheel (15 R382; 03 R109): MIRROR, and RESTORE or REQ. -/
def Txn.fwMove (t : Txn) : Bool := t.code == 9 && t.flags.testBit 1 && (t.flags.testBit 3 || t.flags.testBit 4)

/-- The region a transaction on the lane is for, if it is accepted (R326; 03 R109). A quarantined lane accepts none (01 R40). -/
def State.admits (s : State) (p : PortId) (v : Lane) (t : Txn) : Option RegionId :=
  match s.laneOwner p v with
  | none => none
  | some r =>
    let g := s.region r
    if s.stale 6 (laneUnit p v) then none
    else if g.st = .granted ∧ (g.brake.halted = false ∨ t.fwMove = true) then some r else none

/-- A transaction has arrived whole. In HOLD and in a warm reset it is discarded with its credits returned (R321; 18
R448). -/
def landTxn (p : PortId) (v : Lane) (t : Txn) (s : State) : State :=
  if (s.port p).st = .hold ∨ s.resets.warm then freeUnits p v t.units s
  else if (s.admits p v t).isNone then dropTxn p v t s
  else s.modLane p v (fun l => { l with rxq := l.rxq ++ [t] })

/-- Transactions read from the bytes of a lane (R316, R330); `n` bounds them. -/
def rxParse (p : PortId) (v : Lane) : Nat → State → State
  | 0, s => s
  | n + 1, s =>
    let b := ((s.port p).lane v).rxBytes
    let put (r : List Byte) (s : State) : State := s.modLane p v (fun l => { l with rxBytes := r })
    if b.isEmpty then s
    else if b.head? = some 0 then put [] s
    else if b.length < 16 then s
    else
      let t : Txn := { hdr := BitVec.ofNat 128 (leNat (b.take 16)), data := [] }
      if hdrOk s.ident.dev t = false then dropTxn p v t (put [] s)
      else if b.length < 16 + t.len then s
      else rxParse p v n (landTxn p v { t with data := (b.drop 16).take t.len } (put (b.drop (16 + t.len)) s))

/-- The content of an accepted DATA flit. -/
def rxContent (p : PortId) (f : Flit) (s : State) : State :=
  let v : Lane := BitVec.ofNat 3 (flVl f)
  rxParse p v 64 (s.modLane p v (fun l => { l with rxBytes := l.rxBytes ++ flPayload f }))

/-! ### What a slot sends (R316, R318, R319; 15 R383) -/

/-- The oldest waiting transaction of a kind, and the others. -/
def takeKind (k : TxnKind) : List (TxnKind × Txn) → Option (Txn × List (TxnKind × Txn))
  | [] => none
  | (j, t) :: r => if j = k then some (t, r) else (takeKind k r).map (fun q => (q.1, (j, t) :: q.2))

/-- The oldest row in a region's outbound gate buffer of the port, where its tile traffic flows (03 R98). -/
def gateTxn (g : Region) (p : PortId) : Option Txn :=
  if g.frozen then none
  else match Tab.get [] g.gateOut p.toNat with
    | [] => none
    | q :: _ => some { hdr := q.1, data := rowBytes q.2 }

/-- The transaction lane `v` starts next, whether it is a row of the region's tiles, and the state without it. The freewheel takes
LINK_SHARE of every 16 transactions when both have some (15 R383). -/
def nextTxn (p : PortId) (v : Lane) (s : State) : Option (Txn × Bool × State) :=
  let l := (s.port p).lane v
  let share := match s.laneOwner p v with
    | some r => (s.region r).fw.share
    | none => 16
  let setOut (o : List (TxnKind × Txn)) (s : State) : State := s.modLane p v (fun l => { l with out := o })
  let fw : Option (Txn × Bool × State) := (takeKind .fw l.out).map (fun q => (q.1, false, setOut q.2 s))
  let other : Option (Txn × Bool × State) := match takeKind .unit l.out with
    | some q => some (q.1, false, setOut q.2 s)
    | none => match s.laneOwner p v with
      | none => none
      | some r => (gateTxn (s.region r) p).map (fun t =>
          (t, true, s.modRegion r (fun g => { g with gateOut := g.gateOut.put p.toNat ((Tab.get [] g.gateOut p.toNat).drop 1) })))
  match fw, other with
  | some a, some b => if l.turn < share then some a else some b
  | some a, none => some a
  | none, b => b

/-- Start the next transaction of a lane if its credits cover the whole of it (R328). -/
def startTxn (p : PortId) (v : Lane) (s : State) : Option State :=
  match nextTxn p v s with
  | none => none
  | some (t, row, s') =>
    let l := (s.port p).lane v
    if l.sent + t.units ≤ 8192 + l.peerFreed then
      some (s'.modLane p v (fun l => { l with part := t.bytes, row := row, sent := l.sent + t.units, turn := (l.turn + 1) % 16 }))
    else none

/-- The transaction partly sent on the lane is a row of a frozen region's tiles: it holds where it stands (R316; 03 R96, R98). -/
def State.partHeld (s : State) (p : PortId) (v : Lane) : Bool :=
  ((s.port p).lane v).row && (match s.laneOwner p v with
    | some r => (s.region r).frozen
    | none => false)

/-- Fill a flit of a lane with transaction bytes; `n` bounds the transactions. -/
def fillLane (p : PortId) (v : Lane) : Nat → List Byte → State → List Byte × State
  | 0, acc, s => (acc, s)
  | n + 1, acc, s =>
    let room := 244 - acc.length
    let part := ((s.port p).lane v).part
    if room = 0 then (acc, s)
    else if part.isEmpty then match startTxn p v s with
      | none => (acc, s)
      | some s => fillLane p v n acc s
    else if s.partHeld p v then (acc, s)
    else fillLane p v n (acc ++ part.take room) (s.modLane p v (fun l => { l with part := part.drop room }))

/-- The lane of slot `k` (from 0) by the port's VL_SHARE bytes (R316). -/
def slotLane (shares : List Nat) (k : Nat) : Nat → Nat → Option Lane
  | _, 0 => none
  | v, n + 1 =>
    let w := shares.getD v 0
    if k < w then some (BitVec.ofNat 3 v) else slotLane shares (k - w) (v + 1) n

/-- ACK field of the flits a port sends. -/
def Port.ackField (x : Port) : Nat := x.rxSeq.toNat + if x.nak then 32768 else 0

/-- The flit leaves the port. -/
def emit (p : PortId) (f : Flit) (s : State) : State := s.modPort p (fun x => x.send f)

/-- A sequenced flit leaves the port and is kept until it is acknowledged. -/
def emitSeq (p : PortId) (type vl payload : Nat) (s : State) : State :=
  let x := s.port p
  let f := mkFlit type vl x.txSeq.toNat x.ackField payload
  emit p f (s.modPort p (fun x => { x with buf := x.buf ++ [(x.txSeq, f)], txSeq := x.txSeq + 1 }))

/-- The time at a flit's first bit, in 1/1,024 bt (R317). -/
def State.stampNow (s : State) (frac : BitVec 10) : Nat :=
  (s.cad.lap.toNat * 2 ^ 48 + s.cad.beat.toNat) * 1024 + frac.toNat

/-- The same on the count of beats, which no load of the counters changes. -/
def State.steadyNow (s : State) (frac : BitVec 10) : Nat := s.beats * 1024 + frac.toNat

/-- CAD_FLAGS.VALID on the port (R334). -/
def State.forwards (s : State) (p : PortId) : Bool :=
  s.frame.loaded && s.cad.locked && (s.port p).st == .up
  && (s.frame.source == 2 || (s.frame.source == 1 && p != s.frame.sourcePort))

/-- ECHO: the peer's last TX_STAMP and the time held since; none has been received, a free value (log entry 6). -/
def echoOf (x : Port) (frac : BitVec 10) (s : State) : Nat × State :=
  match x.peer with
  | some (stamp, held) => ((stamp.toNat + (s.steadyNow frac - held)) % 2 ^ 64, s)
  | none => let q := s.draw 64
            (q.1.toNat, q.2)

/-- The CTRL flit of slot 0 (R317, R323). -/
def sendCtrl (p : PortId) (frac : BitVec 10) (s : State) : State :=
  let x := s.port p
  let now := s.stampNow frac
  let e := echoOf x frac s
  let s := e.2
  let bit (b : Bool) (n : Nat) : Nat := if b then 2 ^ n else 0
  let credit := leNat ((List.range 8).flatMap (fun v => leBytes 2 ((x.lane (BitVec.ofNat 3 v)).freed).toNat))
  let payload := credit + ((s.cad.beat.toNat + s.cad.lap.toNat * 2 ^ 48) <<< 128) + (s.cad.hops.toNat <<< 192)
    + ((bit (s.forwards p) 0 + bit s.cad.holdover 1) <<< 200)
    + ((bit x.helloDue 0 + bit s.resets.warm 1 + bit s.ident.ident 2) <<< 256) + (p.toNat <<< 264)
    + (s.ident.dev.toNat <<< 272) + (s.ident.x.toNat <<< 288) + (s.ident.y.toNat <<< 296) + (s.ident.z.toNat <<< 304)
    + ((s.ident.xd.toNat + 1) <<< 312) + ((s.ident.yd.toNat + 1) <<< 320) + ((s.ident.zd.toNat + 1) <<< 328)
    + ((if s.frame.loaded then s.frame.tag.toNat else 0) <<< 352) + ((now % 2 ^ 64) <<< 512) + (e.1 <<< 576)
  emit p (mkFlit tCtrl 0 0 x.ackField payload) (s.modPort p (fun x => { x with helloDue := false }))

/-- DATA of a lane, or IDLE (R316). -/
def sendLane (p : PortId) (v : Lane) (s : State) : State :=
  let q := if (s.port p).st = .up ∧ s.resets.warm = false then fillLane p v 64 [] s else ([], s)
  if q.1.isEmpty then emitSeq p tIdle 0 0 s else emitSeq p tData v.toNat (leNat q.1) q.2

/-- The next slot of the frame. -/
def sendSlot (p : PortId) (frac : BitVec 10) (s : State) : State :=
  let x := s.port p
  if x.running = false then s
  else
    let s := s.modPort p (fun x => { x with slot := (x.slot + 1) % 65 })
    if x.slot = 0 then sendCtrl p frac s
    else match x.resend with
      | (q, f) :: rest =>
        emit p (mkFlit (flType f) (flVl f) q.toNat x.ackField (flAt f 8 244)) (s.modPort p (fun x => { x with resend := rest }))
      | [] =>
        if 512 ≤ x.buf.length then emit p (mkFlit tHold 0 0 x.ackField 0) s
        else match slotLane ((s.frame.vlShare.drop (8 * p.toNat)).take 8) (x.slot - 1) 0 8 with
          | some v => sendLane p v s
          | none => emitSeq p tIdle 0 0 s

/-! ### Hellos and the cadence in a CTRL flit (R323, R325, R328, R334, R335) -/

/-- Two coordinates differ by one step modulo the extent. -/
def oneStep (a b ext : Nat) : Bool := (a + ext - b % ext) % ext == 1 % ext && ext != 1 || (b + ext - a % ext) % ext == 1 && ext != 1

/-- Peer extents equal, and exactly one axis differs, by one step (R325). -/
def State.neighbourOk (s : State) (f : Flit) : Bool :=
  let i := s.ident
  let x := flAt f 0x2C 1
  let y := flAt f 0x2D 1
  let z := flAt f 0x2E 1
  flAt f 0x2F 1 == i.xd.toNat + 1 && flAt f 0x30 1 == i.yd.toNat + 1 && flAt f 0x31 1 == i.zd.toNat + 1
  && ((oneStep x i.x.toNat (i.xd.toNat + 1) && y == i.y.toNat && z == i.z.toNat)
      || (x == i.x.toNat && oneStep y i.y.toNat (i.yd.toNat + 1) && z == i.z.toNat)
      || (x == i.x.toNat && y == i.y.toNat && oneStep z i.z.toNat (i.zd.toNat + 1)))

/-- A hello (R323, R325): recorded, the neighbour checked, and the port moved between UP, HOLD and PEER_WARM. -/
def takeHello (p : PortId) (f : Flit) (now : Nat) (s : State) : State :=
  let echo := flAt f 0x50 8
  let half := ((now % 2 ^ 64 + 2 ^ 64 - echo) % 2 ^ 64) / 2
  let bad := !s.neighbourOk f
  let was := (s.port p).nbrBad
  let s := s.modPort p (fun x => { x with
    nbrDev := BitVec.ofNat 16 (flAt f 0x2A 2), nbrX := BitVec.ofNat 4 (flAt f 0x2C 1), nbrY := BitVec.ofNat 5 (flAt f 0x2D 1),
    nbrZ := BitVec.ofNat 5 (flAt f 0x2E 1), nbrTag := BitVec.ofNat 32 (flAt f 0x34 4), nbrIdent := Word.bit f (8 * 0x28 + 2),
    nbrBad := bad, lastHello := s.beats, delays := (half :: x.delays).take 16 })
  let s := if bad && !was then s.portEvent p 3 else s
  let x := s.port p
  if Word.bit f (8 * 0x28 + 1) then
    if x.st = .peerWarm then s else (s.modPort p (fun x => { x with st := .peerWarm })).portEvent p 4
  else if s.helloPasses x then (if x.st = .up then s else enterUp p s)
  else (if x.st = .hold then s else enterHold p s)

/-- Signed difference of two times in 1/1,024 bt. -/
def stampDiff (a b : Nat) : Int :=
  let d := (a % 2 ^ 74 + 2 ^ 74 - b % 2 ^ 74) % 2 ^ 74
  if d < 2 ^ 73 then Int.ofNat d else Int.ofNat d - Int.ofNat (2 ^ 74)

/-- PHASE (R342): the error in 1/1,024 bt; one the field cannot hold is a free value (log entry 6). -/
def phaseOf (err : Int) (s : State) : BitVec 16 × State :=
  if -32768 ≤ err ∧ err < 32768 then (BitVec.ofInt 16 err, s) else s.draw 16

/-- CAD_TIME on CADENCE_PORT (R334, R335): while LOCKED is 0 the counters load the root's time, and LOCKED sets after 16
flits in a row with an error below a quarter beat. A load ends the power window (18 R457). -/
def takeCadence (p : PortId) (f : Flit) (now : Nat) (s : State) : State :=
  if s.frame.loaded = false ∨ s.frame.source ≠ 1 ∨ p ≠ s.frame.sourcePort ∨ Word.bit f (8 * 0x21) = false ∨ s.cadStopped = true then s
  else
    let ds := (s.port p).delays
    let delay := if ds.isEmpty then 0 else ds.sum / ds.length
    let root := flAt f 0x18 8 * 1024 + delay
    let err := stampDiff root now
    let q := phaseOf err s
    let s := q.2
    let c := { s.cad with phase := q.1, hops := BitVec.ofNat 8 (flAt f 0x20 1 + 1), silent := 0 }
    if c.locked then { s with cad := c }
    else
      let good := if -256 < err ∧ err < 256 then c.good + 1 else 0
      let t := root / 1024
      loadBeats (BitVec.ofNat 48 t) (BitVec.ofNat 16 (t / 2 ^ 48))
        { s with cad := { c with good := good, locked := decide (16 ≤ good) } }

/-- CREDIT of a good CTRL flit (R328). -/
def takeCredit (f : Flit) (x : Port) : Port :=
  { x with lanes := (List.range 8).foldl (fun (m : Tab LaneSt) v =>
      let l := Tab.get LaneSt.reset m v
      let c : BitVec 16 := BitVec.ofNat 16 (flAt f (8 + 2 * v) 2)
      if c = l.lastCredit then m
      else m.put v { l with peerFreed := l.peerFreed + (c - l.lastCredit).toNat, lastCredit := c }) x.lanes }

end Sys2Proof.Machine
end

