-- ==== Sys2Proof/Machine/SyncHost.lean ====
section
/-!
DEFINITION. Sys2Proof/Machine/SyncHost.lean: what the host does to sync objects (10_sync_and_channels.md R257, R264, R269 to
R271): SYNC_SET, the debugger view and SYNC_DUMP.
-/
namespace Sys2Proof.Machine
open Sys2Proof

/-! ### Access through a window (17 R422; 18 R449) -/

/-- A register access through the function reaches the part: READY, and for a VF its own answer. -/
def State.opens (s : State) (fn : Fn) : Bool := s.resets.ready && s.answers fn

/-- The region whose window an access names: a VF's own, or the provider copy of region `rg`. -/
def windowOf (fn : Fn) (rg : RegionId) : RegionId := match fn with
  | .pf => rg
  | .vf n => n

/-! ### SYNC_SET (R257, R264) -/

/-- OBJ of the command. -/
def setObjArg (a : ArgBlock) : BitVec 16 := BitVec.ofNat 16 (argAt a 0 2)

/-- The parent fields of a SYNC_SET with PAR_EN may not be used (R264). -/
def State.badParent (s : State) (r : RegionId) (a : ArgBlock) : Bool :=
  let p := argAt a 9 1
  let port : PortId := BitVec.ofNat 4 p
  decide (11 < p) || !s.portEnabled port || ((s.region r).lane port).isNone

/-- SYNC_SET: its first two checks; it then waits for a free cycle of its object. Bits 7:1 of PAR_EN are refused with E_BADARG
(log entry 30). -/
def execSyncSet (fn : Fn) (rg : RegionId) (tag : BitVec 16) (a : ArgBlock) (s : State) : Host.Outcome State Fault Refusal :=
  .next (mailCommand 0x0E .r [(0, 2), (4, 4), (8, 6)] noHref fn rg tag a (fun c s =>
    if (s.region c.r).ownsObj (setObjArg c.a).toNat = false then s.done c.f eOwner
    else if argAt c.a 8 1 > 1 then s.done c.f eBadarg
    else if argAt c.a 8 1 = 1 ∧ s.badParent c.r c.a = true then s.done c.f eBadarg
    else s) s)

/-- No operation, signal or arrival has reached or reaches the object in this wall cycle; a frozen region's operations hold
(R253). -/
def State.objFree (s : State) (r : RegionId) (o : BitVec 16) : Bool :=
  let g := s.region r
  !g.touched.any (fun q => q.1 == o.toNat && q.2 == s.wall)
  && (g.frozen || !g.flights.any (fun f => f.obj == o && decide (f.due ≤ g.cycle)))

/-- The parent fields of a SYNC_SET. -/
def SyncObj.setParent (x : SyncObj) (a : ArgBlock) : SyncObj :=
  { x with parEn := Word.bit a 64, parentPort := BitVec.ofNat 4 (argAt a 9 1), parentDev := BitVec.ofNat 16 (argAt a 10 2),
           parentObj := BitVec.ofNat 16 (argAt a 12 2) }

/-- SYNC_SET_APPLY: the first cycle after acceptance in which nothing reaches the object (R257). An idle step performs it at
the end of that cycle. -/
def execSyncSetApply (fn : Fn) (s : State) : Host.Outcome State Fault Refusal :=
  let f := fnNo fn
  let m := s.mail f
  let o := setObjArg m.curArgs
  let v : Word := BitVec.ofNat 32 (argAt m.curArgs 4 4)
  if m.busy = false ∨ m.curOp ≠ 0x0E ∨ s.wall ≤ m.wall ∨ s.objFree m.curRegion o = false then .next s
  else if configRefused m.curRegion o v s then .next (s.done f eState)
  else .next (((s.setObj o (((s.obj o).configure v).setParent m.curArgs)).regionClean m.curRegion 3 0x0E).done f eOk)

/-- SYNC_SET_TIMEOUT: no such cycle within 1 ms of acceptance (R257). -/
def execSyncSetTimeout (fn : Fn) (s : State) : Host.Outcome State Fault Refusal :=
  let m := s.mail (fnNo fn)
  if m.busy = true ∧ m.curOp = 0x0E ∧ m.since + 125000 ≤ s.beats then .next (s.done (fnNo fn) eBusy) else .next s

/-! ### The debugger view and the dump (R269 to R271) -/

/-- Tile ID a waiter shows; the update controller's wait shows tile 0 (log entry 21). -/
def Waiter.shown (w : Waiter) : Nat := match w.tile with
  | some t => t.toNat
  | none => 0

/-- The region that owns an object. -/
def State.objOwner (s : State) (o : BitVec 16) : Option RegionId :=
  (s.regions.find? (fun e => e.2.ownsObj o.toNat)).map (fun e => BitVec.ofNat 6 e.1)

/-- FLAGS. -/
def SyncObj.flags (x : SyncObj) : Nat :=
  (if x.bar then 1 else 0) + (if x.sense then 2 else 0) + (if x.xch then 4 else 0) + (if x.parEn then 8 else 0)
  + (if x.up then 16 else 0)

/-- OWNER. -/
def ownerByte : Option RegionId → Nat
  | some r => r.toNat + 128
  | none => 0

/-- LINK. -/
def SyncObj.link (x : SyncObj) : Nat :=
  x.parentObj.toNat + (x.parentDev.toNat <<< 16) + (x.parentPort.toNat <<< 32) + ((x.children.length % 32) <<< 36)
  + (match x.waiters with
    | w :: _ => (w.shown <<< 48) + 2 ^ 63
    | [] => 0)

/-- The 32-byte record of an object (R269). -/
def State.objRecord (s : State) (o : BitVec 16) : List Byte :=
  let x := s.obj o
  leBytes 4 x.value.toNat ++ leBytes 2 x.pcount.toNat ++ leBytes 2 x.gen.toNat ++ leBytes 2 x.waiters.length
  ++ leBytes 1 x.flags ++ leBytes 1 (ownerByte (s.objOwner o)) ++ leBytes 4 x.last.toNat ++ leBytes 8 x.lbeat.toNat
  ++ leBytes 8 x.link

/-- Bytes as 32-bit words; `n` of them. -/
def leWords (b : List Byte) (n : Nat) : List Word := (List.range n).map (fun k => BitVec.ofNat 32 (leAt b (4 * k) 4))

/-- Half a waiter word. -/
def waiterHalf : Option Waiter → Nat
  | some w => w.shown + 0x8000
  | none => 0

/-- The first 64 waiters as the 32 words of SYNC_VWL (R270). -/
def SyncObj.waiterWords (x : SyncObj) : List Word :=
  (List.range 32).map (fun k => BitVec.ofNat 32 (waiterHalf x.waiters[2 * k]? + (waiterHalf x.waiters[2 * k + 1]? <<< 16)))

/-- The snapshot a write of SYNC_VSEL takes: all zero through a VF whose region does not own the object. -/
def State.snapshot (s : State) (fn : Fn) (r : RegionId) (o : BitVec 16) : VSnap :=
  let shown : Bool := match fn with
    | .pf => true
    | .vf _ => (s.region r).ownsObj o.toNat
  if shown then { obj := o, rec_ := leWords (s.objRecord o) 8, wl := (s.obj o).waiterWords }
  else { obj := o, rec_ := [], wl := [] }

/-- SYNC_VSEL: a write selects an object and takes the snapshot (R270), in the VF's window or in the provider's copy. -/
def execSyncVsel (fn : Fn) (rg : RegionId) (v : Word) (s : State) : Host.Outcome State Fault Refusal :=
  if s.opens fn = false then .next s
  else
    let r := windowOf fn rg
    let snap := s.snapshot fn r (v.extractLsb' 0 16)
    .next ((s.regionClean r 0 0x500).modRegion r (fun g => match fn with
      | .pf => { g with vselPf := snap }
      | .vf _ => { g with vselVf := snap }))

/-- The objects a dump through the function writes, ascending (R271). -/
def State.dumpObjs (s : State) : Fn → List Nat
  | .pf => List.range 65536
  | .vf n => ((List.range 256).filter (fun b => (s.region n).ownsObj (256 * b))).flatMap (fun b =>
      (List.range 256).map (fun k => 256 * b + k))

/-- SYNC_DUMP (R271): checked against the length of the buffer; the records are written before it completes. -/
def execSyncDump (fn : Fn) (rg : RegionId) (tag : BitVec 16) (a : ArgBlock) (s : State) : Host.Outcome State Fault Refusal :=
  .next (mailCommand 0x0F .f [(0, 4), (8, 8)] (fun s c => some (32 * (s.dumpObjs c.fn).length)) fn rg tag a (fun _ s => s) s)

/-- SYNC_DUMP_COMPLETE: the records stand in host memory and the command completes with their number. The model takes every
record in this step (log entry 31). -/
def execSyncDumpComplete (fn : Fn) (s : State) : Host.Outcome State Fault Refusal :=
  let f := fnNo fn
  let m := s.mail f
  if m.busy = false ∨ m.curOp ≠ 0x0F then .next s
  else
    let objs := s.dumpObjs fn
    let at_ := s.hrefAddr { fn := fn, f := f, r := m.curRegion, a := m.curArgs }
    .next ((s.hostWrite at_ (objs.flatMap (fun o => s.objRecord (BitVec.ofNat 16 o)))).complete f eOk
      (some (BitVec.ofNat 32 objs.length)))

end Sys2Proof.Machine
end

