-- ==== Sys2Proof/Machine/Cadence.lean ====
section
/-!
DEFINITION. Sys2Proof/Machine/Cadence.lean: the beat counters, the time load, loss and return of the cadence
(12_links_and_cadence.md R334 to R340; 19_pins_and_package.md R469), and what each beat boundary does.
-/
namespace Sys2Proof.Machine
open Sys2Proof

/-- T, the full time (12 R338). -/
def Cadence.time (c : Cadence) : Nat := c.lap.toNat * 2 ^ 48 + c.beat.toNat

/-- bdiff (12 R339). -/
def bdiff (a b : BitVec 48) : Int :=
  let d := (a - b).toNat
  if d < 2 ^ 47 then Int.ofNat d else Int.ofNat d - Int.ofNat (2 ^ 48)

/-- An event time is checked against the time now (12 R340): the code of a refusal. -/
def Cadence.eventCheck (c : Cadence) (beat : BitVec 48) (lap : BitVec 16) : Option Nat :=
  let d := (lap.toNat * 2 ^ 48 + beat.toNat + 2 ^ 64 - c.time) % 2 ^ 64
  if c.locked = false then some eState
  else if d < 16 ∨ 2 ^ 47 < d then some eRange
  else none

/-- A value is pending (12 R338; 19 R469): it replaces what is pending, but for a value set in an earlier beat, which the
present beat may still load. -/
def Cadence.setPending (c : Cadence) (beat : BitVec 48) (lap : BitVec 16) (now : Nat) : Cadence :=
  { c with pending := ((c.pending.filter (fun p => decide (p.2.2 < now))).getLast?).toList ++ [(beat, lap, now)] }

/-- The value that a load beat takes: the last one accepted in an earlier beat (19 R469). -/
def Cadence.loadable (c : Cadence) (now : Nat) : Option (BitVec 48 × BitVec 16 × Nat) :=
  (c.pending.filter (fun p => decide (p.2.2 < now))).getLast?

/-- CADENCE_SET (12 R338). -/
def execCadenceSet (fn : Fn) (rg : RegionId) (tag : BitVec 16) (a : ArgBlock) (s : State) : Host.Outcome State Fault Refusal :=
  .next (mailCommand 0x07 .d [(0, 10)] noHref fn rg tag a (fun c s =>
    if argAt c.a 6 2 ≠ 0 then s.done c.f eBadarg
    else if s.frame.source = 1 ∨ s.cad.locked then s.done c.f eState
    else ({ s with cad := s.cad.setPending (BitVec.ofNat 48 (argAt c.a 0 6)) (BitVec.ofNat 16 (argAt c.a 8 2)) s.beats
      }).done c.f eOk) s)

/-- The cadence comes from the pins (12 R334; 19 R468). -/
def State.pinCadence (s : State) : Bool := s.frame.loaded && s.frame.source != 1

/-- The load beat qualifies (12 R336): an edge in each of the 16 beats before it; `edges` counts its own edge too. -/
def Cadence.qualifies (c : Cadence) : Bool := decide (17 ≤ c.edges)

/-- CADENCE_LOAD_BEAT (19 R469; 12 R336): within the beat that its BEAT_BOUNDARY began, the pending value is loaded if the beat
qualifies, and LOCKED sets. A value accepted in this beat waits for the next load beat. -/
def execCadenceLoadBeat (s : State) : Host.Outcome State Fault Refusal :=
  match s.cad.loadable s.beats with
  | none => .next s
  | some (beat, lap, _) =>
    if s.pinCadence = false ∨ s.cad.qualifies = false ∨ s.cadStopped = true then .next s
    else .next (loadBeats beat lap { s with cad := { s.cad with
      pending := s.cad.pending.filter (fun p => decide (s.beats ≤ p.2.2)), locked := true } })

/-- The loss is one (12 R337): under code 1, 64 beats without a valid CAD_TIME on a port that is not retraining; under codes 0
and 2 the command says that CADENCE_CLK showed no edge for 64 beats. -/
def State.lossDue (s : State) : Bool :=
  s.frame.loaded && !s.cad.holdover
  && (s.frame.source != 1 || (decide (64 ≤ s.cad.silent) && (s.port s.frame.sourcePort).st != .training))

/-- CADENCE_LOSS (12 R337). Before LOCKED sets it raises nothing; the run of edges that a load beat needs begins again. -/
def execCadenceLoss (s : State) : Host.Outcome State Fault Refusal :=
  if s.lossDue = false then .next s
  else
    let s := { s with cad := { s.cad with edges := 0, good := 0 } }
    if s.cad.locked then .next (({ s with cad := { s.cad with holdover := true } }).cadEvent 0) else .next s

/-- CADENCE_RECOVER (12 R337): the cadence returns with an error of `err` beats; HOLDOVER ends. Beyond 4,096 beats CAD_SLIP is raised
and LOCKED clears. The phase error that PHASE then shows is a free value (log entry 32). -/
def execCadenceRecover (err : BitVec 48) (s : State) : Host.Outcome State Fault Refusal :=
  if s.cad.holdover = false then .next s
  else
    let q := s.draw 16
    let s := { q.2 with cad := { s.cad with holdover := false, silent := 0, phase := q.1 } }
    if 4096 < err.toNat then .next (({ s with cad := { s.cad with locked := false, good := 0 } }).cadEvent 1) else .next s

/-- The cadence unit reset (18 R451): the counters and its CAD_STATUS fields return to zero; a pending value goes (log entry 33). -/
def resetCadence (s : State) : State := { s with cad := { Cadence.reset with evt := s.cad.evt } }

/-! ### A beat boundary -/

/-- The hub die's logic runs: after release step 2, and through a warm reset (18 R447, R448). -/
def State.hubRuns (s : State) : Bool := s.resets.pwrgood && (s.resets.warm || !s.resets.plan.contains 2)

/-- BEAT and LAP one further (12 R338). -/
def Cadence.advance (c : Cadence) : Cadence :=
  { c with beat := c.beat + 1, lap := if c.beat = BitVec.ofNat 48 (2 ^ 48 - 1) then c.lap + 1 else c.lap }

/-- What the cadence unit counts in a beat: edges of CADENCE_CLK (12 R336) or beats without CAD_TIME (R337). -/
def State.watchCadence (s : State) : Cadence :=
  let c := s.cad
  if s.pinCadence && !c.holdover then { c with edges := min 17 (c.edges + 1) }
  else if s.frame.loaded && s.frame.source == 1 && (s.port s.frame.sourcePort).st != .training then { c with silent := c.silent + 1 }
  else c

/-- The brake controller at a beat boundary (03 R100; 18 R458): the run count of freezes by a missing item, and frozen beats. -/
def Brake.beat (b : Brake) (wall : Nat) : Brake :=
  { b with
    run := if b.frozenAt wall then b.run + 1 else 0,
    beats := if b.frozenAt wall || b.limited then Word.satAdd b.beats 1 else b.beats }

/-- A beat boundary at or after L + 48 lets a CROSS window open (03 R89). While the region stands still before its cycle
`cycle`, only the cycles before that one have begun. -/
def Window.onBeat (w : Window) (cycle : Nat) (still : Bool) : Window := match w.next with
  | some (l, _) => if l + 48 < cycle ∨ (l + 48 = cycle ∧ still = false) then { w with beat := true } else w
  | none => w

/-- A region at a beat boundary. -/
def Region.onBeat (g : Region) (wall : Nat) : Region :=
  { g with brake := g.brake.beat wall, window := g.window.onBeat g.cycle g.frozen }

/-- BEAT_BOUNDARY: the present beat has had its 10, 9, 8 or 7 cycles of the tile clock (00 R8), and the next begins. While the
hub die is in reset, only time passes; a cadence unit that has stopped counts no beat (17 R436). -/
def execBeatBoundary (s : State) : Host.Outcome State Fault Refusal :=
  if s.beatDue = false then .next s else
  let s := { s with beats := s.beats + 1, beatAt := s.wall }
  if s.hubRuns = false then .next s
  else
    let s := if s.cadStopped then s else { s with cad := s.watchCadence.advance }
    let s := { s with
                      regions := Tab.mapVals (fun (_ : Nat) (g : Region) => g.onBeat s.wall) s.regions }
    .next (markBeat s)

end Sys2Proof.Machine
end

