-- ==== Sys2Proof/Machine/Channel.lean ====
section
/-!
DEFINITION. Sys2Proof/Machine/Channel.lean: the channel operations of the X slot and the events of channels
(10_sync_and_channels.md R272 to R279).
-/
namespace Sys2Proof.Machine
open Sys2Proof

/-- `s` with `f` applied to send channel `ch` of tile `t`. -/
def State.modChan (s : State) (t : TileId) (ch : BitVec 2) (f : Chan → Chan) : State :=
  s.modTile t (fun x => { x with chans := x.chans.put ch.toNat (f (x.chan ch.toNat)) })

/-- `s` with `f` applied to receive port `q` of tile `t`. -/
def State.modRx (s : State) (t : TileId) (q : Nat) (f : RxPort → RxPort) : State :=
  s.modTile t (fun x => { x with ports := x.ports.put q (f (x.rx q)) })

/-- The tile lies outside the region's rectangle, or its ID is illegal. -/
def outside (s : State) (g : Region) (d : TileId) : Bool :=
  badTileId s d.toNat || (match g.cfg with
    | some c => !c.has d
    | none => true)

/-- A closed channel becomes opening and its request is on its way (R274). -/
def openChan (t : TileId) (ch : BitVec 2) (d : TileId) (port : BitVec 3) (pc : BitVec 11) (s : State) : State :=
  s.modChan t ch (fun _ => { Chan.reset with st := .opening, dst := d, port := port, pc := pc })

/-- A message leaves on an open channel for a credit (R275). -/
def sendMsg (t : TileId) (ch : BitVec 2) (m : DWord) (s : State) : State :=
  s.modChan t ch (fun c => { c with credits := c.credits - 1, flight := c.flight ++ [m] })

/-- The operation that holds the tile's clock gate, if any, goes on if it now can; the tile issues from the next
cycle (R274, R275). -/
def retryGate (r : RegionId) (t : TileId) (s : State) : State :=
  let x := s.tile t
  let now := (s.region r).cycle
  let free (s : State) : State := s.modTile t (fun x => { x with ctl := { x.ctl with gate := none, next := max x.ctl.next (now + 1) } })
  match x.ctl.gate with
  | some (.send ch m) =>
    let c := x.chan ch.toNat
    if c.st = .open_ ∧ 0 < c.credits then free (sendMsg t ch m s) else s
  | some (.reopen ch d port pc) => if (x.chan ch.toNat).st = .closed then free (openChan t ch d port pc s) else s
  | none => s

/-- CHOPEN (R273, R274). The peer is g[RA][12:0]; bits 31:13 of the register are ignored, which no rule says of CHOPEN (log
entry 96). -/
def execChopen (t : TileId) (w : SlotWord) (s : State) : Host.Outcome State Fault Refusal :=
  .next (slotOp .x 0x20 t w (fun i _ => encoding 0x20 i.w (zeroAt i.w 0 12 && decide (Word.bits i.w 17 3 ≤ 4)))
    (fun i s => channelPhase i s (fun _ =>
      let x := s.tile i.t
      let d : TileId := (x.ctl.reg (raOf i.w)).extractLsb' 0 13
      let ch : BitVec 2 := i.w.extractLsb' 20 2
      let port : BitVec 3 := i.w.extractLsb' 17 3
      if outside s (s.region i.r) d then .fault s fBadTile d.toNat
      else if s.staleColumn i.r (colOf d) then .fault s fStaleUnit (1 + (colOf d <<< 8))
      else match (x.chan ch.toNat).st with
        | .closed => .ok (openChan i.t ch d port i.pc s)
        | .closing => .ok (i.ctl s (fun c => { c with gate := some (.reopen ch d port i.pc) }))
        | _ => .fault s fIllegalOp i.w.toNat)) s)

/-- CHSEND (R273, R275). -/
def execChsend (t : TileId) (w : SlotWord) (s : State) : Host.Outcome State Fault Refusal :=
  .next (slotOp .x 0x21 t w (fun i _ => encoding 0x21 i.w (zeroAt i.w 0 12 && zeroAt i.w 17 3 && raOf i.w % 2 == 0))
    (fun i s => channelPhase i s (fun _ =>
      let x := s.tile i.t
      let ch : BitVec 2 := i.w.extractLsb' 20 2
      let c := x.chan ch.toNat
      let m := x.ctl.pair (raOf i.w)
      let wait := Act.ok (i.ctl s (fun c => { c with gate := some (.send ch m) }))
      match c.st with
      | .open_ => if 0 < c.credits then .ok (sendMsg i.t ch m s) else wait
      | .opening => wait
      | _ => .fault s fIllegalOp i.w.toNat)) s)

/-- CHCLOSE (R273, R276). -/
def execChclose (t : TileId) (w : SlotWord) (s : State) : Host.Outcome State Fault Refusal :=
  .next (slotOp .x 0x22 t w (fun i _ => encoding 0x22 i.w (zeroAt i.w 0 20))
    (fun i s => channelPhase i s (fun _ =>
      let ch : BitVec 2 := i.w.extractLsb' 20 2
      match ((s.tile i.t).chan ch.toNat).st with
      | .closed => .ok s
      | .closing => .ok s
      | _ => .ok (s.modChan i.t ch (fun c => { c with st := .closing, marker := true })))) s)

/-- Pop one message of port `q` for the oldest CQROW that still wants one, or for a waiting CQRD (R277); VCQ feeds the
oldest asynchronous job that still wants values (07 R204). `n` bounds the messages. -/
def feedPort (r : RegionId) (t : TileId) (q : Nat) : Nat → State → State
  | 0, s => s
  | n + 1, s =>
    let x := s.tile t
    match x.cqrows.find? (fun k => k.q.toNat == q && decide (k.got.length < k.n)) with
    | some k =>
      match popPort r t q s with
      | none => s
      | some (m, s) => feedPort r t q n (s.modTile t (fun x =>
          { x with cqrows := x.cqrows.map (fun c => if c.op = k.op then { c with got := c.got ++ [m] } else c) }))
    | none =>
      if q = 4 then
        match x.vec.asyncs.find? (fun j => decide (j.vcq.length < j.need)) with
        | none => s
        | some j => match popPort r t q s with
          | none => s
          | some (m, s) => feedPort r t q n (s.modTile t (fun x => { x with vec := { x.vec with
              asyncs := x.vec.asyncs.map (fun c => if c.op = j.op then { c with vcq := c.vcq ++ [m] } else c) } }))
      else match x.ctl.run with
        | .waitPort p rd =>
          if p.toNat = q then
            match popPort r t q s with
            | none => s
            | some (m, s) =>
              let now := (s.region r).cycle
              s.modTile t (fun x => { x with ctl := { (x.ctl.setPair rd.toNat m now (now + 2)) with run := .running, next := now + 1 } })
          else s
        | _ => s

/-- CQROW (R273, R277): takes an entry of KIND W for its row and pops what is there. -/
def execCqrow (t : TileId) (w : SlotWord) (s : State) : Host.Outcome State Fault Refusal :=
  .next (slotOp .x 0x23 t w (fun i _ => encoding 0x23 i.w (zeroAt i.w 18 2 && zeroAt i.w 10 2))
    (fun i s => channelPhase i s (fun _ =>
      let row := rowField i.w
      let q : BitVec 2 := i.w.extractLsb' 20 2
      match writeRowFault row with
      | some c => .fault s c row
      | none => entryCheck i s 1 row (fun _ =>
          let s := i.tile s (fun x =>
            let y := x.allocate row row true x.ops
            { y with ops := x.ops + 1, cqrows := y.cqrows ++ [{ q := q, n := nOf i.w, row := row, op := x.ops, got := [] }] })
          .ok (feedPort i.r i.t q.toNat 64 s)))) s)

/-- The row a CQROW writes: message m in bytes 8m to 8m + 7, zero in the rest (R277). -/
def CqRow.data (k : CqRow) : Row :=
  BitVec.ofNat 4096 (k.got.foldr (fun m acc => m.toNat + acc <<< 64) 0)

/-- The region of a tile, where the fabric of the region moves: not frozen, and no slot of the tile's bundle given. -/
def State.moving (s : State) (t : TileId) : Option RegionId :=
  match s.between t with
  | none => none
  | some r => if (s.region r).frozen then none else some r

/-- Its bundle is being given. -/
def State.midBundle (s : State) (t : TileId) : Bool := (s.tile t).ctl.bundle.isSome

/-- CHAN_OPEN_REQUEST: the destination port binds the channel, or refuses it (R274). A channel closed while it was
opening is still bound first. -/
def execChanOpenRequest (t : TileId) (ch : BitVec 2) (s : State) : Host.Outcome State Fault Refusal :=
  match s.moving t with
  | none => .next s
  | some r =>
    let c := (s.tile t).chan ch.toNat
    if s.midBundle c.dst ∨ c.st ≠ .opening ∧ (c.st ≠ .closing ∨ ((s.tile c.dst).rx c.port.toNat).bound = some (t, ch)) then .next s
    else
      let g := s.region r
      if g.rank t < g.rank c.dst ∧ ((s.tile c.dst).rx c.port.toNat).bound.isNone then
        let s := s.modRx c.dst c.port.toNat (fun _ => { bound := some (t, ch), buf := [] })
        .next (retryGate r t (s.modChan t ch (fun c => { c with
          st := if c.st = .closing then .closing else .open_, credits := 8 })))
      else
        let s := s.modChan t ch (fun _ => Chan.reset)
        .next (s.raise r (some t) (some (.x, c.pc)) fChanRank (c.dst.toNat + (g.rank t <<< 16) + (g.rank c.dst <<< 32)))

/-- CHAN_MESSAGE_DELIVERY: the oldest message under way lands in the port's buffer (R275, R277). -/
def execChanMessageDelivery (t : TileId) (ch : BitVec 2) (s : State) : Host.Outcome State Fault Refusal :=
  match s.moving t with
  | none => .next s
  | some r =>
    let c := (s.tile t).chan ch.toNat
    match c.flight with
    | [] => .next s
    | m :: rest =>
      if s.midBundle c.dst then .next s else
      let s := s.modChan t ch (fun c => { c with flight := rest })
      let s := s.modRx c.dst c.port.toNat (fun x => { x with buf := x.buf ++ [m] })
      .next (feedPort r c.dst c.port.toNat 64 s)

/-- CHAN_CREDIT_RETURN: a credit is back at its channel (R275). -/
def execChanCreditReturn (t : TileId) (ch : BitVec 2) (s : State) : Host.Outcome State Fault Refusal :=
  match s.moving t with
  | none => .next s
  | some r =>
    if 0 < ((s.tile t).chan ch.toNat).back then
      .next (retryGate r t (s.modChan t ch (fun c => { c with back := c.back - 1, credits := c.credits + 1 })))
    else .next s

/-- CHAN_CLOSE_MARKER: the marker is at the head of the port's buffer: the port is unbound, the channel closed (R276). -/
def execChanCloseMarker (t : TileId) (port : BitVec 3) (s : State) : Host.Outcome State Fault Refusal :=
  match s.moving t with
  | none => .next s
  | some r =>
    let x := (s.tile t).rx port.toNat
    match x.bound with
    | none => .next s
    | some (src, ch) =>
      let c := (s.tile src).chan ch.toNat
      if s.midBundle src = false ∧ c.marker ∧ c.flight = [] ∧ x.buf = [] then
        let s := s.modRx t port.toNat (fun _ => RxPort.reset)
        .next (retryGate r src (s.modChan src ch (fun _ => Chan.reset)))
      else .next s

end Sys2Proof.Machine
end

