-- ==== Sys2Proof/Machine/SyncOps.lean ====
section
/-!
DEFINITION. Sys2Proof/Machine/SyncOps.lean: the S-slot sync operations (10 R255) and the events of sync objects: the
arrival of an operation, and the wakes of waiting tiles.
-/
namespace Sys2Proof.Machine
open Sys2Proof

/-- The object named by g[RA][15:0] (R255). -/
def objOperand (i : Site) (s : State) : BitVec 16 := ((s.tile i.t).ctl.reg (raOf i.w)).extractLsb' 0 16

/-- Put an operation on its way: it reaches its object 10 cy later (R252). -/
def sendSync (i : Site) (o : BitVec 16) (k : SyncKind) (s : State) : State :=
  s.modRegion i.r (fun g => { g with flights := g.flights ++ [{ due := i.now + 10, obj := o, src := .op i.t i.pc, kind := k }] })

/-- The check made at issue that the region owns the object (R251; 03 R480 item 6), and that its block is in service (01 R40). -/
def ownCheck (i : Site) (s : State) (o : BitVec 16) (k : Unit → Act) : Act :=
  if (s.region i.r).ownsObj o.toNat = false then .fault s fSyncMisuse o.toNat
  else if s.stale 2 (o.toNat / 256) then .fault s fStaleUnit (blockDetail o)
  else k ()

/-- The tile waits, gated. -/
def waitAs (i : Site) (run : Run) (s : State) : State := i.ctl s (fun c => { c with run := run })

/-- SSIG (R255, R258). -/
def execSsig (t : TileId) (w : SlotWord) (s : State) : Host.Outcome State Fault Refusal :=
  .next (slotOp .s 0x28 t w (fun i _ => encoding 0x28 i.w (zeroAt i.w 17 5 && !zeroAt i.w 0 12))
    (fun i s =>
      let o := objOperand i s
      ownCheck i s o (fun _ => .ok (sendSync i o (.ssig (immOf i.w)) s))) s)

/-- SSIGR (R255). -/
def execSsigr (t : TileId) (w : SlotWord) (s : State) : Host.Outcome State Fault Refusal :=
  .next (slotOp .s 0x29 t w (fun i _ => encoding 0x29 i.w (zeroAt i.w 17 5 && zeroAt i.w 0 7))
    (fun i s =>
      let o := objOperand i s
      let n := Word.bits ((s.tile i.t).ctl.reg (rbOf i.w)) 0 16
      ownCheck i s o (fun _ => .ok (sendSync i o (.ssig n) s))) s)

/-- SWAIT (R255, R259). -/
def execSwait (t : TileId) (w : SlotWord) (s : State) : Host.Outcome State Fault Refusal :=
  .next (slotOp .s 0x2A t w (fun i _ => encoding 0x2A i.w (zeroAt i.w 17 5 && !zeroAt i.w 0 12))
    (fun i s =>
      let o := objOperand i s
      ownCheck i s o (fun _ => .ok (waitAs i (.waitObj o.toNat) (sendSync i o (.swait (immOf i.w)) s)))) s)

/-- SREAD (R255, R256). -/
def execSread (t : TileId) (w : SlotWord) (s : State) : Host.Outcome State Fault Refusal :=
  .next (slotOp .s 0x2B t w (fun i _ => encoding 0x2B i.w (zeroAt i.w 0 12))
    (fun i s =>
      let o := objOperand i s
      ownCheck i s o (fun _ => .ok (sendSync i o (.sread (BitVec.ofNat 5 (rdOf i.w))) s))) s)

/-- No split-arrival record may be held (R262). -/
def noSplit (i : Site) (s : State) (o : BitVec 16) (k : Unit → Act) : Act :=
  if (s.tile i.t).split.isSome then .fault s fSyncMisuse o.toNat else k ()

/-- SBAR (R255, R261; 09 R239): the arrival carries the tile's next window as the bundle found it: an XSEL of the same bundle
is seen a cycle later (09 R230; 02 R49). -/
def execSbar (t : TileId) (w : SlotWord) (s : State) : Host.Outcome State Fault Refusal :=
  .next (slotOp .s 0x2C t w (fun i _ => encoding 0x2C i.w (zeroAt i.w 17 5 && zeroAt i.w 0 12))
    (fun i s =>
      let o := objOperand i s
      ownCheck i s o (fun _ => noSplit i s o (fun _ =>
        .ok (waitAs i (.waitBar o.toNat) (sendSync i o (.sbar (s.startTile i.t).exch.nextWin) s))))) s)

/-- SARR (R255, R262). -/
def execSarr (t : TileId) (w : SlotWord) (s : State) : Host.Outcome State Fault Refusal :=
  .next (slotOp .s 0x2D t w (fun i _ => encoding 0x2D i.w (zeroAt i.w 17 5 && zeroAt i.w 0 12))
    (fun i s =>
      let o := objOperand i s
      ownCheck i s o (fun _ => noSplit i s o (fun _ =>
        .ok (i.tile (sendSync i o .sarr s) (fun x => { x with split := some (o, none, i.now) }))))) s)

/-- SBWAIT (R255, R262). -/
def execSbwait (t : TileId) (w : SlotWord) (s : State) : Host.Outcome State Fault Refusal :=
  .next (slotOp .s 0x2E t w (fun i _ => encoding 0x2E i.w (zeroAt i.w 17 5 && zeroAt i.w 12 5 && zeroAt i.w 0 12))
    (fun i s => match (s.tile i.t).split with
      | none => .fault s fSyncMisuse 0
      | some q => .ok (waitAs i (.waitBar q.1.toNat) (sendSync i q.1 .sbwait s))) s)

/-- SCFG (R255, R257). -/
def execScfg (t : TileId) (w : SlotWord) (s : State) : Host.Outcome State Fault Refusal :=
  .next (slotOp .s 0x2F t w (fun i _ => encoding 0x2F i.w (zeroAt i.w 17 5 && zeroAt i.w 0 7))
    (fun i s =>
      let o := objOperand i s
      ownCheck i s o (fun _ => .ok (sendSync i o (.scfg ((s.tile i.t).ctl.reg (rbOf i.w))) s))) s)

/-- SYNC_OP_ARRIVAL: what is due at the object in one region cycle is processed (R252, R254). -/
def execSyncOpArrival (r : RegionId) (obj : BitVec 16) (s : State) : Host.Outcome State Fault Refusal :=
  let g := s.region r
  match g.frozen, firstDue g.flights obj g.cycle with
  | false, some d =>
    let here := g.flights.filter (fun f => decide (f.obj = obj ∧ f.due = d))
    let s := s.setRegion r { g with flights := g.flights.filter (fun f => !(decide (f.obj = obj ∧ f.due = d))) }
    .next (processObject r obj here s)
  | _, _ => .next s

/-- A tile goes on after a barrier wait: a pending vector mode takes effect (07 R205). -/
def Tile.afterBarrier (x : Tile) : Tile :=
  match x.vec.pending with
  | some m => { x with vec := { x.vec with mode := some m, pending := none } }
  | none => x

/-- A released tile may issue from cycle `n`. -/
def Tile.release48 (x : Tile) (n : Nat) : Tile :=
  match x.ctl.run with
  | .released _ =>
    let x := x.afterBarrier
    { x with ctl := { x.ctl with run := .running, next := n } }
  | _ => x

/-- RELEASE_WAKE: 48 cy after a release the waiting tiles may issue (R252, R261). The exchange barrier's tiles go on
when the window opens (R263). -/
def execReleaseWake (r : RegionId) (obj : BitVec 16) (s : State) : Host.Outcome State Fault Refusal :=
  let g := s.region r
  if g.frozen || (s.obj obj).xch then .next s
  else
    let tiles := dueReleases g obj
    let s := s.setRegion r { g with
      releases := g.releases.filter (fun e => !(e.1 == obj && decide (e.2.1 + 48 ≤ g.cycle))) }
    .next (tiles.foldl (fun s t => s.modTile t (fun x => x.release48 g.cycle)) s)

/-- WAITER_WAKE: 6 cy after its object satisfied it a tile may issue (R252). -/
def execWaiterWake (t : TileId) (s : State) : Host.Outcome State Fault Refusal :=
  match s.regionOf t with
  | none => .next s
  | some r =>
    let g := s.region r
    let x := s.tile t
    match x.ctl.run with
    | .waking n bar =>
      if g.frozen || decide (g.cycle < n) then .next s
      else
        let x := if bar then x.afterBarrier else x
        .next (s.setTile t { x with ctl := { x.ctl with run := .running, next := g.cycle } })
    | _ => .next s

end Sys2Proof.Machine
end

