-- ==== Sys2Proof/Machine/Exchange.lean ====
section
/-!
DEFINITION. Sys2Proof/Machine/Exchange.lean: the exchange operations of the X slot (09 R230) and the events of
exchange windows, receives and the brake.
-/
namespace Sys2Proof.Machine
open Sys2Proof

/-- A load of four SRB words into a register: W a multiple of 4, bits `lo` to `lo + n − 1` zero. -/
def loadEnc (op lo n : Nat) (w : SlotWord) : Option (Nat × Nat) := encoding op w (wField w % 4 == 0 && zeroAt w lo n)

/-- XRLD (R230). -/
def execXrld (t : TileId) (w : SlotWord) (s : State) : Host.Outcome State Fault Refusal :=
  .next (slotOp .x 0x01 t w (fun i _ => loadEnc 0x01 7 11 i.w)
    (fun i s => .ok (i.tile s (fun x =>
      let e := x.exch
      { x with exch := { e with xr := e.xr.put (reg4Of i.w) (BitVec.ofNat 128 (srbWords x.ctl.srb (wField i.w) 4)) } }))) s)

/-- XVLD (R230). -/
def execXvld (t : TileId) (w : SlotWord) (s : State) : Host.Outcome State Fault Refusal :=
  .next (slotOp .x 0x02 t w (fun i _ => loadEnc 0x02 7 11 i.w)
    (fun i s => .ok (i.tile s (fun x =>
      let e := x.exch
      { x with exch := { e with xv := e.xv.put (reg4Of i.w) (BitVec.ofNat 128 (srbWords x.ctl.srb (wField i.w) 4)) } }))) s)

/-- Outside an exchange phase the operation faults XWINDOW with its first row (03 R90). -/
def exchangePhase (i : Site) (s : State) (row : Nat) (k : Unit → Act) : Act :=
  if (s.region i.r).inExchange then k () else .fault s fXwindow row

/-- First of rows `row` to `row + n − 1` that a read may not name. -/
def firstBadRead (row n : Nat) : Option (Nat × Nat) :=
  if row + n ≤ 768 then none else some (fBadRow, (max row 768) % 1024)

/-- First of rows `row` to `row + n − 1` that a write may not name (02 R63). -/
def firstBadWrite (row n : Nat) : Option (Nat × Nat) :=
  if row + n ≤ 768 then none
  else (writeRowFault (max row 768)).map (fun c => (c, (max row 768) % 1024))

/-- The first illegal destination of a route rectangle, columns first (R233; 03 R108). -/
def badDest (s : State) (g : Region) (x : BitVec 128) : Option Nat :=
  let q := xrRect x
  let ids := (List.range (q.2.1 + 1 - q.1)).flatMap (fun c =>
    (List.range (q.2.2.2 + 1 - q.2.2.1)).map (fun w => (q.1 + c) * 64 + (q.2.2.1 + w)))
  ids.find? (fun v => badTileId s v || (match g.cfg with
    | some c => !c.has (BitVec.ofNat 13 v)
    | none => true))

/-- The injection port is still busy: a lower-level error (R234). -/
def portBusy (i : Site) (s : State) : Bool × State :=
  if i.now < (s.tile i.t).exch.sendFree then (true, s.hazard i.r i.t i.mark hSlotConflict 0x30) else (false, s)

/-- The rows of an on-device send as packets (R234; 03 R92). -/
def sendPackets (i : Site) (s : State) (x : BitVec 128) (n row : Nat) (junk : Bool) : List Packet :=
  let q := xrRect x
  let dests := rectTiles q.1 (q.2.1 + 1 - q.1) q.2.2.1 (q.2.2.2 + 1 - q.2.2.1)
  (List.range n).map (fun k =>
    let at_ := i.now + 16 * k
    { src := i.t, issue := i.now, k := k + 1, n := n, srcRow := row + k, readAt := at_, data := none,
      dests := dests.map (fun d => (d, at_ + rowLatency s i.t d, pathLinks s i.t d at_)),
      sig := if xrSigen x ∧ k + 1 = n then some (xrSigobj x) else none, pc := i.pc, junk := junk })

/-- DETAIL of a destination unit that is quarantined: a column of the rectangle, or the block of the signal (01 R40, R41). -/
def staleDest (s : State) (r : RegionId) (x : BitVec 128) : Option Nat :=
  let q := xrRect x
  match (List.range (q.2.1 + 1 - q.1)).find? (fun k => s.staleColumn r (q.1 + k)) with
  | some k => some (1 + ((q.1 + k) <<< 8))
  | none =>
    let b := (xrSigobj x).toNat / 256
    if xrSigen x && s.stale 2 b then some (2 + (b <<< 8)) else none

/-- DETAIL of a region's lane that is quarantined. -/
def staleLane (s : State) (r : RegionId) (p : PortId) : Option Nat := match (s.region r).lane p with
  | some v => let k := 8 * p.toNat + v.toNat
              if s.stale 6 k then some (6 + (k <<< 8)) else none
  | none => none

/-- An on-device send (R233, R234, R247). -/
def sendOn (i : Site) (x : BitVec 128) (n row : Nat) (s : State) : Act :=
  let g := s.region i.r
  match badDest s g x with
  | some v => .fault s fBadTile v
  | none =>
    if xrSigen x && !g.ownsObj (xrSigobj x).toNat then .fault s fSyncMisuse (xrSigobj x).toNat
    else match staleDest s i.r x with
    | some v => .fault s fStaleUnit v
    | none => rowCheck i s [(row, false)] (fun _ =>
      let b := portBusy i s
      let ps := sendPackets i b.2 x n row b.1
      let s := b.2.modRegion i.r (fun g => { g with packets := g.packets ++ ps })
      .ok (i.tile s (fun y => { y with exch := { y.exch with sendFree := i.now + 16 * n } })))

/-- An off-device send into reserved gate space (R243, R332). -/
def sendOff (i : Site) (x : BitVec 128) (n row : Nat) (s : State) : Act :=
  let g := s.region i.r
  let p := xrPort x
  if s.portEnabled p = false ∨ (g.lane p).isNone ∨ (s.port p).nbrDev ≠ xrRdev x ∨ (s.tile i.t).spare p < n then
    .fault s fIllegalOp i.w.toNat
  else match firstBadRead row n with
    | some f => .fault s f.1 f.2
    | none =>
      if badTileId s (xrRtile x).toNat then .fault s fBadTile (xrRtile x).toNat
      else match staleLane s i.r p with
      | some v => .fault s fStaleUnit v
      | none => rowCheck i s [(row, false)] (fun _ =>
        let b := portBusy i s
        .ok (i.tile b.2 (fun y => { y with exch := { y.exch with
          sendFree := i.now + 16 * n,
          gates := y.exch.gates ++ [{ at_ := i.now, n := n, row := row, dst := 0, xr := x, got := [], pc := i.pc,
                                      junk := b.1 }] } })))

/-- XSEND (R230, R233, R234, R243). -/
def execXsend (t : TileId) (w : SlotWord) (s : State) : Host.Outcome State Fault Refusal :=
  .next (slotOp .x 0x03 t w (fun i _ => encoding 0x03 i.w (zeroAt i.w 10 2))
    (fun i s => exchangePhase i s (rowField i.w) (fun _ =>
      let x := (s.tile i.t).exch.xr.get (reg4Of i.w)
      if xrLegal x = false then .fault s fIllegalOp i.w.toNat
      else if xrGate x then sendOff i x (nOf i.w) (rowField i.w) s
      else match firstBadRead (rowField i.w) (nOf i.w) with
        | some f => .fault s f.1 f.2
        | none => sendOn i x (nOf i.w) (rowField i.w) s)) s)

/-- Rows a static operation will write, each with its cycle (03 R103). -/
def Tile.expecting (x : Tile) (l : List (Nat × Nat)) (i : Site) : Tile :=
  { x with expect := x.expect ++ l.map (fun e => (e.1, e.2, i.now, i.pc)) }

/-- Arm a compiled receive (R235, R244; 02 R79). -/
def armReceive (i : Site) (x : BitVec 128) (n row : Nat) (s : State) : Act :=
  let y := (s.tile i.t).before (s.startTile i.t).ops
  let wn := xvRows x
  match (List.range (n * wn)).find? (fun k => y.sb.any (fun e => decide (e.2.first ≤ row + k) && decide (row + k ≤ e.2.last))) with
  | some k =>
    let e := (y.sb.find? (fun e => decide (e.2.first ≤ row + k) && decide (row + k ≤ e.2.last))).map (·.1)
    .fault s fRecvPending (row + k + (e.getD 0 <<< 16))
  | none =>
    let live := y.exch.armed.filter (fun a => a.done < a.n)
    let clash := decide (4 ≤ live.length) || live.any (fun a =>
      (List.range n).any (fun k => match a.rowAt (i.now + 16 * (k + 1)) with
        | some m => decide (a.done < m)
        | none => false))
    let s := if clash then s.hazard i.r i.t i.mark hSlotConflict 0x31 else s
    .ok (i.tile s (fun y =>
      let e := y.exch
      let z : Tile := { y with exch := { e with armed := e.armed ++ [{ at_ := i.now, xv := x, n := n, row := row, done := 0, base := none,
                                                                        key := y.vec.key, pc := i.pc, scale := none,
                                                                        got := [], junk := clash }] } }
      z.expecting ((List.range (n * wn)).map (fun k => (row + k, i.now + 16 * (k / wn + 1) - 1 + k % wn))) i))

/-- Declare a late item (R240, R301). -/
def declare (i : Site) (x : BitVec 128) (item : BitVec 16) (id n row : Nat) (dma : Bool) (s : State) : Act :=
  let y := s.tile i.t
  if (y.decl item).isSome then .fault s fIllegalOp i.w.toNat
  else
    let excess := decide (16 ≤ y.exch.decls.length)
    let s := if excess then s.hazard i.r i.t i.mark hSlotConflict 0x32 else s
    .ok (i.tile s (fun y =>
      let e := y.exch
      { y with
        ops := y.ops + 1,
        exch := { e with decls := e.decls ++ [{ id := id, pc := i.pc, junk := excess, item := item, n := n, row := row,
                                                xv := x, dma := dma, written := [], key := y.vec.key,
                                                port := none, scale := none, events := Events.none_ }] } }))

/-- XRECV (R230, R232, R235, R240, R244). -/
def execXrecv (t : TileId) (w : SlotWord) (s : State) : Host.Outcome State Fault Refusal :=
  .next (slotOp .x 0x04 t w (fun i _ => encoding 0x04 i.w (zeroAt i.w 10 2))
    (fun i s => exchangePhase i s (rowField i.w) (fun _ =>
      let y := s.tile i.t
      let x := y.exch.xv.get (reg4Of i.w)
      let n := nOf i.w
      let row := rowField i.w
      if xvLegal x n = false then .fault s fIllegalOp i.w.toNat
      else match firstBadWrite row (n * xvRows x) with
        | some f => .fault s f.1 f.2
        | none => match (if xvWiden x then firstBadRead (xvScrow x) 1 else none) with
          | some f => .fault s f.1 f.2
          | none =>
            if xvLate x then declare i x (xvItem x) y.ops n row false s
            else if badTileId s (xvSender x).toNat then .fault s fBadTile (xvSender x).toNat
            else armReceive i x n row s)) s)

/-- Marks stand by region cycle, those of one cycle in ascending tile ID: reservations are granted so (R243). -/
def DueMark.before (a b : DueMark) : Bool := decide (a.cyc < b.cyc) || (a.cyc == b.cyc && decide (a.tile.toNat < b.tile.toNat))

/-- Insert a mark in that order. -/
def insertMark (m : DueMark) : List DueMark → List DueMark
  | [] => [m]
  | h :: r => if m.before h then m :: h :: r else h :: insertMark m r

/-- Place a due mark in this cycle (R241; 03 R93). -/
def placeMark (i : Site) (kind : DueKind) (item : BitVec 16) (s : State) : State :=
  s.modRegion i.r (fun g =>
    let b := g.brake
    { g with brake := { b with marks := insertMark { tile := i.t, kind := kind, item := item, cyc := i.now } b.marks } })

/-- XDUE (R241). -/
def execXdue (t : TileId) (w : SlotWord) (s : State) : Host.Outcome State Fault Refusal :=
  .next (slotOp .x 0x05 t w
    (fun i _ => encoding 0x05 i.w (zeroAt i.w 16 4 && (match reg2Of i.w with
      | 0 => true
      | 1 => zeroAt i.w 6 10
      | 2 => zeroAt i.w 9 3 && decide (Word.bits i.w 12 4 ≤ 11)
      | _ => false)))
    (fun i s => exchangePhase i s 0 (fun _ =>
      let item : BitVec 16 := i.w.extractLsb' 0 16
      match reg2Of i.w with
      | 0 => match (s.tile i.t).decl item with
        | none => .fault s fIllegalOp i.w.toNat
        | some d =>
          let s := i.tile s (fun y =>
            let e := y.exch
            { y with exch := { e with leads := (d.row, d.n * (if d.dma then 1 else xvRows d.xv), item.toNat, i.now) :: e.leads } })
          .ok (placeMark i (.item d.id) item s)
      | 1 => .ok (placeMark i (.code (i.w.extractLsb' 0 6)) item s)
      | _ => .ok (placeMark i (.gate (i.w.extractLsb' 12 4) (Word.bits i.w 0 9 + 1)) item s))) s)

/-- XSEL (R239). -/
def execXsel (t : TileId) (w : SlotWord) (s : State) : Host.Outcome State Fault Refusal :=
  .next (slotOp .x 0x06 t w (fun i _ => encoding 0x06 i.w (zeroAt i.w 8 14))
    (fun i s => .ok (i.tile s (fun y => { y with exch := { y.exch with nextWin := i.w.extractLsb' 0 8 } }))) s)

/-- CLREQ (R230): the start of the load descriptor takes effect a cycle later. -/
def execClreq (t : TileId) (w : SlotWord) (s : State) : Host.Outcome State Fault Refusal :=
  .next (slotOp .x 0x07 t w (fun i _ => encoding 0x07 i.w (zeroAt i.w 6 16))
    (fun i s => .ok (s.modRegion i.r (fun g => { g with starts := g.starts ++ [(i.now, i.t, i.w.extractLsb' 0 6)] }))) s)

/-- XMOV (R230, R237). -/
def execXmov (t : TileId) (w : SlotWord) (s : State) : Host.Outcome State Fault Refusal :=
  .next (slotOp .x 0x08 t w (fun i _ => encoding 0x08 i.w (zeroAt i.w 10 2))
    (fun i s =>
      let n := Word.bits i.w 17 5 + 1
      let row := rowField i.w
      let dst := Word.bits ((s.tile i.t).ctl.reg (raOf i.w)) 0 10
      match firstBadRead row n with
      | some f => .fault s f.1 f.2
      | none => match firstBadWrite dst n with
        | some f => .fault s f.1 f.2
        | none => rowCheck i s [(row, false)] (fun _ =>
          .ok (i.tile s (fun y =>
            let e := y.exch
            let z : Tile := { y with exch := { e with moves := e.moves ++ [{ at_ := i.now, n := n, row := row, dst := dst,
                                                                              xr := 0, got := [], pc := i.pc,
                                                                              junk := false }] } }
            z.expecting ((List.range n).map (fun k => (dst + k, i.now + k + 2))) i)))) s)

/-! ### Windows (R236, R238, R239; 03 R87 to R89) -/

/-- EXCHANGE_WINDOW_OPEN: the phase opens on every tile 48 cy after the release; a CROSS window waits for a beat
boundary (03 R87, R89). It is due in one region cycle, E0, and an idle step performs it there. -/
def execExchangeWindowOpen (r : RegionId) (s : State) : Host.Outcome State Fault Refusal :=
  let g := s.region r
  match g.frozen, g.opening with
  | false, some win =>
    let s := s.setRegion r { g with
      window := { g.window with open_ := true, e0 := g.cycle, xlen := Word.bits (g.header win) 0 16, next := none, beat := false },
      releases := g.releases.filter (fun e => !(s.obj e.1).xch) }
    .next (g.tiles.foldl (fun s t => s.modTile t (fun x =>
      let y : Tile := { x with exch := { x.exch with win := win } }
      y.release48 g.cycle)) s)
  | _, _ => .next s

/-- What the end of a window does to a tile (R236, R240, R243): receives and declarations expire, unused reservations go. -/
def Tile.endWindow (x : Tile) : Tile :=
  let e := x.exch
  { x with exch := { e with
      armed := e.armed.filter (fun a => decide (a.n ≤ a.done)), decls := [],
      reserved := (List.range 12).foldl (fun m p => m.put p (m.get p - BitVec.ofNat 16 (x.spare (BitVec.ofNat 4 p)))) e.reserved } }

/-- Rows of armed receives outstanding at the end of a window fault, one for each receive (R236). -/
def expireReceives (r : RegionId) (t : TileId) (s : State) : State :=
  ((s.tile t).exch.armed.filter (fun a => decide (a.done < a.n))).foldl (fun s a =>
    s.raise r (some t) none fXunexpected (a.dest (a.done + 1) + ((xvSender a.xv).toNat <<< 16))) s

/-- EXCHANGE_WINDOW_END: in cycle E0 + XLEN (R236; 03 R88). -/
def execExchangeWindowEnd (r : RegionId) (s : State) : Host.Outcome State Fault Refusal :=
  let g := s.region r
  if g.frozen || !g.closing then .next s
  else
    let s := s.setRegion r { g with window := { g.window with open_ := false } }
    .next (g.tiles.foldl (fun s t => (expireReceives r t s).modTile t Tile.endWindow) s)

/-! ### Receives (R235, R236, R247) -/

/-- The armed cycle of row `k` of a receive has passed. -/
def Tile.armedDone (x : Tile) (at_ k : Nat) : Tile :=
  let e := x.exch
  { x with exch := { e with armed := e.armed.map (fun b => if b.at_ = at_ then { b with done := k } else b) } }

/-- A destination row of incoming row `k` is held by a busy entry: the row write has faulted (02 R79). -/
def Tile.receiveHeld (x : Tile) (a : Armed) (k : Nat) : Bool :=
  (List.range (xvRows a.xv)).any (fun m => (x.blocking (a.dest k + m) true).isSome)

/-- One arriving row is checked against the tile's armed receives (R236). A row that is not written signals nothing. -/
def acceptRow (r : RegionId) (t : TileId) (c : Nat) (p : Packet) (s : State) : State :=
  let x := s.tile t
  let src := p.src.toNat <<< 16
  match x.exch.armed.find? (fun a => (a.rowAt c).isSome && decide (a.done < (a.rowAt c).getD 0)) with
  | none => s.raise r (some t) none fXunexpected (p.srcRow % 1024 + src)
  | some a =>
    let k := (a.rowAt c).getD 0
    let s := s.modTile t (fun x => x.armedDone a.at_ k)
    if a.takes p k = false then s.raise r (some t) none fXunexpected (a.dest k + src)
    else if x.receiveHeld a k then s
    else match p.sig with
      | some o => s.modRegion r (fun g => { g with flights := g.flights ++
          [{ due := c + xvRows a.xv, obj := o, src := .tileSignal p.src, kind := .signal }] })
      | none => s

/-- COMPILED_ROW_ARRIVAL: the rows that complete at the tile in this cycle (R236). -/
def execCompiledRowArrival (t : TileId) (s : State) : Host.Outcome State Fault Refusal :=
  match s.regionOf t with
  | none => .next s
  | some r =>
    let g := s.region r
    if g.frozen then .next s
    else
      let here := g.arrivals t g.cycle
      let s := here.foldl (fun s p => acceptRow r t g.cycle p s) s
      .next (s.modRegion r (fun g' => g'.dropArrivals t g.cycle))

/-- ARMED_RECEIVE_MISSED: an armed cycle passes with no row completed (R236); the receive goes on with its next row. -/
def execArmedReceiveMissed (t : TileId) (s : State) : Host.Outcome State Fault Refusal :=
  match s.regionOf t with
  | none => .next s
  | some r =>
    let g := s.region r
    if g.frozen then .next s
    else .next ((g.missed (s.tile t) t).foldl (fun s a => (s.modTile t (fun x => x.armedDone a.at_ (a.done + 1))).raise r (some t) none
      fXunexpected (a.dest (a.done + 1) + ((xvSender a.xv).toNat <<< 16))) s)

/-- The signal of the last row of an off-device send, once the item is present (R247). -/
def itemSignal (r : RegionId) (t : TileId) (q : InRow) (s : State) : State :=
  match q.sig, (s.tile t).decl q.item with
  | some o, some d =>
    if d.complete && (s.region r).ownsObj o.toNat then landSignal r o (.remote q.dev q.port) s
    else if d.complete then s.raise r none none fSyncMisuse o.toNat
    else s
  | _, _ => s

/-- A row of a link leaves the inbound buffer: its lane has 33 more free units (12 R327, R328). -/
def freeInRow (r : RegionId) (q : InRow) (s : State) : State :=
  let s := s.modRegion r (fun g => { g with inRows := g.inRows.erase q })
  match (s.region r).lane q.port with
  | some v => s.modLane q.port v (fun l => { l with freed := l.freed + 33 })
  | none => s

/-- A row that has had its bank cycles leaves the inbound buffer: a link's row frees its lane's units. -/
def takeInRow (r : RegionId) (t : TileId) (q : InRow) (s : State) : State :=
  let s := s.modTile t (fun x => x.dropReq q.who)
  if q.decl.isSome then s.modRegion r (fun g => { g with inRows := g.inRows.erase q }) else freeInRow r q s

/-- A link's row of an item: the port it came by is noted, and its signal applied once the item is present (R247). -/
def noteInRow (r : RegionId) (t : TileId) (d : Decl) (q : InRow) (s : State) : State :=
  if q.decl.isSome then s
  else itemSignal r t q (s.modTile t (fun x =>
    let e := x.exch
    { x with exch := { e with decls := e.decls.map (fun c => if c.id = d.id then { c with port := some q.port } else c) } }))

/-- LATE_ITEM_ROW_WRITE: the first row that arrived of the item whose free bank cycles have come is written, once declared
(R240; 02 R70). A row beyond the declared N is not written and faults. A row of a DMA belongs to its own declaration; once
that has expired it is discarded (11 R301). -/
def execLateItemRowWrite (t : TileId) (item : BitVec 16) (s : State) : Host.Outcome State Fault Refusal :=
  match s.between t with
  | none => .next s
  | some r =>
    let x := s.tile t
    match ((s.region r).rowsFor t).find? (fun q => q.item == item && x.lateReady q) with
    | none => .next s
    | some q =>
      let s := takeInRow r t q s
      match x.declOf q with
      | none => .next s
      | some d =>
        if d.n ≤ q.k then .next (s.raise r (some t) none fXunexpected ((d.row + q.k) % 1024))
        else .next (noteInRow r t d q (writeLate r t d q.k q.data s))

/-! ### The brake (03 R94 to R100) -/

/-- A freeze of the region is counted when it begins (R100; 18 R458). -/
def Brake.counted (b : Brake) : Word := if b.frozen || b.limited then b.count else Word.satAdd b.count 1

/-- BRAKE_FREEZE: 24 wall cycles after the region was marked missing (03 R94) or limit-braked (18 R458). -/
def execBrakeFreeze (r : RegionId) (s : State) : Host.Outcome State Fault Refusal :=
  let g := s.region r
  let b := g.brake
  let b := match b.flips with
    | (w, true) :: rest => if w + 24 ≤ s.wall then { b with flips := rest, frozen := true, count := b.counted } else b
    | _ => b
  let b := match b.limitFlips with
    | (w, true) :: rest => if w + 24 ≤ s.wall then { b with limitFlips := rest, limited := true, count := b.counted } else b
    | _ => b
  .next (s.setRegion r { g with brake := b })

/-- BRAKE_THAW: 24 wall cycles after the last missing item became present (03 R94) or the limit brake ended (18 R458). -/
def execBrakeThaw (r : RegionId) (s : State) : Host.Outcome State Fault Refusal :=
  let g := s.region r
  let b := g.brake
  let b := match b.flips with
    | (w, false) :: rest => if w + 24 ≤ s.wall then { b with flips := rest, frozen := false } else b
    | _ => b
  let b := match b.limitFlips with
    | (w, false) :: rest => if w + 24 ≤ s.wall then { b with limitFlips := rest, limited := false } else b
    | _ => b
  .next (s.setRegion r { g with brake := b })

/-- BRAKE_TIMEOUT: the run count exceeds BRAKE_LIMIT (03 R100): charged to the tile of the oldest missing due mark, of those of
one region cycle the lowest tile's. The run count then begins again at zero. The rule says neither (log entry 97). -/
def execBrakeTimeout (r : RegionId) (s : State) : Host.Outcome State Fault Refusal :=
  let g := s.region r
  let b := g.brake
  if b.run ≤ b.limit.toNat then .next s
  else
    let s := s.setRegion r { g with brake := { b with run := 0 } }
    match b.marks with
    | [] => .next (s.raise r none none fBrakeTimeout 0)
    | m :: _ => .next (s.raise r (some m.tile) none fBrakeTimeout m.item.toNat)

end Sys2Proof.Machine
end

