-- ==== Sys2Proof/Machine/Dma.lean ====
section
/-!
DEFINITION. Sys2Proof/Machine/Dma.lean: the DMA operations of the X slot and their events (11_memory_tiers.md R297 to
R301), the scoreboard's events (02_tile.md R76, R77), the scrubber (02 R72 to R75) and the load engine (02 R64 to R66,
R80).
-/
namespace Sys2Proof.Machine
open Sys2Proof

/-! ### Issue -/

/-- DMLD (R297). -/
def execDmld (t : TileId) (w : SlotWord) (s : State) : Host.Outcome State Fault Refusal :=
  .next (slotOp .x 0x10 t w (fun i _ => loadEnc 0x10 7 12 i.w)
    (fun i s => .ok (i.tile s (fun x =>
      { x with dr := x.dr.put (reg3Of i.w) (BitVec.ofNat 128 (srbWords x.ctl.srb (wField i.w) 4)) }))) s)

/-- The DMA register holds what R298 allows for the operation. -/
def drLegal (op : DmaOp) (x : BitVec 128) : Bool :=
  Word.bits x 0 9 == 0 && Word.bits x 50 14 == 0 && (op == .xr || drItem x == 0)
  && (if op = .zf then decide (1 ≤ drStride x) && decide (drStride x ≤ 0x80000000) else drStride x % 512 == 0)

/-- The operation writes tile memory (R299). -/
def DmaOp.writesTile : DmaOp → Bool
  | .rd => true | .xr => true | _ => false

/-- Start a DMA of the tile (R297 to R301). -/
def startDma (i : Site) (op : DmaOp) (x : BitVec 128) (n row : Nat) (s : State) : State :=
  i.tile s (fun y => { y with
    ops := y.ops + 1,
    dmas := y.dmas ++ [{ id := y.ops, op := op, n := n, row := row, dr := x, pas := none, data := none, pc := i.pc }] })

/-- The checks of a DMA at issue and its start, in the order of 03 R480. -/
def dmaIssue (i : Site) (op : DmaOp) (n row : Nat) (s : State) : Act :=
  let x := (s.tile i.t).dr.get (reg3Of i.w)
  if drLegal op x = false then .fault s fIllegalOp i.w.toNat
  else match (if op = .zf then none else if op.writesTile then firstBadWrite row n else firstBadRead row n) with
    | some f => .fault s f.1 f.2
    | none =>
      if drSigen x && !(s.region i.r).ownsObj (drSigobj x).toNat then .fault s fSyncMisuse (drSigobj x).toNat
      else match op with
        | .zf =>
          if 4 ≤ (s.tile i.t).zeroFills then .block { Need.zero with zeroFills := true } else .ok (startDma i .zf x 0 0 s)
        | .xr =>
          match declare i 0 (drItem x) (s.tile i.t).ops n row true (startDma i .xr x n row s) with
          | .fault _ c d => .fault s c d
          | a => a
        | _ => entryCheck i s 1 row (fun _ =>
            let id := (s.tile i.t).ops
            .ok (i.tile (startDma i op x n row s) (fun y => y.allocate row (row + n - 1) op.writesTile id)))

/-- Fields of the row DMAs (R297). -/
def dmaEnc (op : Nat) (w : SlotWord) : Option (Nat × Nat) := encoding op w (zeroAt w 18 1 && zeroAt w 10 2)

/-- DMARD (R297). -/
def execDmard (t : TileId) (w : SlotWord) (s : State) : Host.Outcome State Fault Refusal :=
  .next (slotOp .x 0x11 t w (fun i _ => dmaEnc 0x11 i.w) (fun i s => dmaIssue i .rd (nOf i.w) (rowField i.w) s) s)

/-- DMAWR (R297). -/
def execDmawr (t : TileId) (w : SlotWord) (s : State) : Host.Outcome State Fault Refusal :=
  .next (slotOp .x 0x12 t w (fun i _ => dmaEnc 0x12 i.w) (fun i s => dmaIssue i .wr (nOf i.w) (rowField i.w) s) s)

/-- DMAACC (R297, R302). -/
def execDmaacc (t : TileId) (w : SlotWord) (s : State) : Host.Outcome State Fault Refusal :=
  .next (slotOp .x 0x13 t w (fun i _ => dmaEnc 0x13 i.w) (fun i s => dmaIssue i .acc (nOf i.w) (rowField i.w) s) s)

/-- DMAZF (R297, R301): in compute phases only; XWINDOW names no row. -/
def execDmazf (t : TileId) (w : SlotWord) (s : State) : Host.Outcome State Fault Refusal :=
  .next (slotOp .x 0x14 t w (fun i _ => encoding 0x14 i.w (zeroAt i.w 0 19))
    (fun i s => if (s.region i.r).inExchange then .fault s fXwindow 0 else dmaIssue i .zf 0 0 s) s)

/-- DMAXR (R297, R301): in exchange phases only. -/
def execDmaxr (t : TileId) (w : SlotWord) (s : State) : Host.Outcome State Fault Refusal :=
  .next (slotOp .x 0x15 t w (fun i _ => dmaEnc 0x15 i.w)
    (fun i s => exchangePhase i s (rowField i.w) (fun _ => dmaIssue i .xr (nOf i.w) (rowField i.w) s)) s)

/-! ### Completion (R299, R300) -/

/-- The channels a translated DMA uses. -/
def Dma.chans (d : Dma) : List MChan := ((d.pas.getD []).filterMap chanOf)

/-- An earlier DMA of the tile, not yet performed, uses a channel of this one, or has not been translated (R300). -/
def Tile.earlier (x : Tile) (d : Dma) : Bool :=
  x.dmas.any (fun e => decide (e.id < d.id) && !(e.op == .rd && e.data.isSome)
    && (e.pas.isNone || e.chans.any (fun c => d.chans.contains c)))

/-- The first quarantined channel of a DMA (01 R40). -/
def Dma.staleUnit (s : State) (d : Dma) : Option Nat := (d.pas.getD []).findSome? (fun pa => s.staleAt pa)

/-- The signal of a completed DMA (R298, R300). -/
def dmaSignal (r : RegionId) (t : TileId) (d : Dma) (s : State) : State :=
  if drSigen d.dr then landSignal r (drSigobj d.dr) (.tileSignal t) s else s

/-- Read the rows of a DMA: the address of the first poisoned line, or the rows (R309). -/
def dmaRows (m : Mem) (pas : List Nat) : Option Nat × List Row :=
  (pas.findSome? (fun pa => m.poisonedAt pa 512), pas.map m.readRow)

/-- Accumulate rows in order; stops at a poisoned line (R302, R309). -/
def accRows (r : RegionId) (bf16 : Bool) : List (Nat × Row) → State → Option Nat × State
  | [], s => (none, s)
  | (pa, v) :: rest, s =>
    match s.accumulate r bf16 pa (rowBytes v) with
    | (some l, s) => (some l, s)
    | (none, s) => accRows r bf16 rest s

/-- Perform a DMA's memory accesses. -/
def performDma (r : RegionId) (t : TileId) (d : Dma) (pas : List Nat) (s : State) : State :=
  let gone (s : State) : State := s.modDma t d.id (fun _ => none)
  let ue (l : Nat) (s : State) : State := (gone s).raise r (some t) (some (.x, d.pc)) fMemUe l
  match d.op with
  | .rd => match dmaRows s.mem pas with
    | (some l, _) => ue l s
    | (none, rows) => dmaSignal r t d (s.modDma t d.id (fun d => some { d with data := some rows }))
  | .xr => match dmaRows s.mem pas with
    | (some l, _) => ue l s
    | (none, rows) =>
      let ins : List InRow := rows.zipIdx.map (fun q =>
        { tile := t, item := drItem d.dr, k := q.2, data := q.1, sig := none, decl := some d.id, port := 0, dev := 0 })
      dmaSignal r t d (gone (s.modRegion r (fun g => { g with inRows := g.inRows ++ ins })))
  | .wr => match d.data with
    | none => s
    | some rows =>
      let m := (pas.zip rows).foldl (fun m q => m.write q.1 (rowBytes q.2)) s.mem
      dmaSignal r t d (gone { s with mem := m })
  | .acc => match d.data with
    | none => s
    | some rows => match accRows r (drBf16 d.dr) (pas.zip rows) s with
      | (some l, s) => ue l s
      | (none, s) => dmaSignal r t d (gone s)
  | .zf =>
    let m := pas.zipIdx.foldl (fun m q => m.zero q.1 (d.piece q.2)) s.mem
    (dmaSignal r t d (gone { s with mem := m })).noteClear r t

/-- DMA_COMPLETE (R300): the last memory access is performed and the signal applied, once the pages are translated, the
rows of a write are read, and the earlier DMAs of the tile into the channel are performed. -/
def execDmaComplete (t : TileId) (id : Nat) (s : State) : Host.Outcome State Fault Refusal :=
  match s.between t, (s.tile t).dmas.find? (fun d => d.id == id) with
  | some r, some d =>
    match d.pas with
    | none => .next s
    | some pas =>
      if (s.tile t).earlier d || (s.region r).brake.haltFrozen || (d.op == .rd && d.data.isSome) then .next s
      else match d.staleUnit s with
        | some u => .next ((s.modDma t id (fun _ => none)).raise r (some t) (some (.x, d.pc)) fStaleUnit u)
        | none => .next (performDma r t d pas s)
  | _, _ => .next s

/-- Clear every entry of an operation and let a stalled tile see it. -/
def clearOp (r : RegionId) (t : TileId) (op : Nat) (s : State) : State := (s.modTile t (fun x => x.release op)).noteClear r t

/-- The rows a write DMA takes from tile memory, or the poisoned word met (02 R73). -/
def captureRows (r : RegionId) (t : TileId) (site : Option (Slot × BitVec 11)) :
    List Nat → State → (Option (Nat × Nat) × List Row) × State
  | [], s => ((none, []), s)
  | row :: rest, s =>
    match s.readFree r t row site with
    | (_, some w, s) => ((some (row, w), []), s)
    | (v, none, s) =>
      let q := captureRows r t site rest s
      ((q.1.1, v :: q.1.2), q.2)

/-- The bank cycles of the operation with number `op`, a DMA's or a channel row's, have been given. -/
def Tile.opGranted (x : Tile) (op : Nat) : Bool := x.granted (.dma op) || x.granted (.cqrow op)

/-- The request of the operation is done with. -/
def dropOp (t : TileId) (op : Nat) (s : State) : State := s.modTile t (fun x => (x.dropReq (.dma op)).dropReq (.cqrow op))

/-- SCOREBOARD_CLEAR (02 R70, R76; 10 R277): the last row access of the operation that holds the entry completes, its free
bank cycles having come. -/
def execScoreboardClear (t : TileId) (e : BitVec 4) (s : State) : Host.Outcome State Fault Refusal :=
  match s.between t, (s.tile t).sb.find e.toNat with
  | some r, some en =>
    let x := s.tile t
    if x.opGranted en.op = false then .next s else
    let s := dropOp t en.op s
    match x.dmas.find? (fun d => d.id == en.op), x.cqrows.find? (fun k => k.op == en.op) with
    | some d, _ =>
      match d.op, d.data with
      | .rd, some rows =>
        let s := rows.zipIdx.foldl (fun s q => s.writeFree t (d.row + q.2) q.1) s
        .next (clearOp r t en.op (s.modDma t d.id (fun _ => none)))
      | .rd, none => .next s
      | _, some _ => .next s
      | _, none =>
        if d.pas.isNone then .next s
        else match captureRows r t (some (.x, d.pc)) ((List.range d.n).map (fun k => d.row + k)) s with
          | ((some (row, w), _), s) =>
            .next ((s.modDma t d.id (fun _ => none)).raise r (some t) (some (.x, d.pc)) fTmemPoison (row + (w <<< 16)))
          | ((none, rows), s) => .next (clearOp r t en.op (s.modDma t d.id (fun d => some { d with data := some rows })))
    | none, some k =>
      if k.got.length = k.n then
        let s := (s.writeFree t k.row k.data).modTile t (fun x => { x with cqrows := x.cqrows.filter (fun c => c.op ≠ k.op) })
        .next (clearOp r t en.op s)
      else .next s
    | none, none => .next s
  | _, _ => .next s

/-- STALL_RESUME (02 R77): the blocked bundle may issue in the fourth cycle after the last blocking entry cleared. -/
def execStallResume (t : TileId) (s : State) : Host.Outcome State Fault Refusal :=
  match s.moving t with
  | none => .next s
  | some r =>
    let x := s.tile t
    let now := (s.region r).cycle
    match x.ctl.run with
    | .stalled _ (some n) =>
      if n ≤ now then .next (s.setTile t { x with ctl := { x.ctl with run := .running, next := now } }) else .next s
    | _ => .next s

/-! ### The scrubber (02 R72 to R75) -/

/-- An upset strikes a place of `l` with key `same`: the second one in a SECDED word is a double-bit error (R62, R72). -/
def addUpset {α : Type} (same : α → Bool) (one two : α) (double : Bool) (l : List α) : List α :=
  (if double || l.any same then two else one) :: l.filter (fun u => !same u)

/-- An upset strikes tile memory. -/
def Tile.upset (x : Tile) (u : TmUpset) : Tile :=
  let row := u.row.toNat
  let word := u.word.toNat
  if row < 768 then
    { x with upsets := addUpset (fun v => v.1 == row && v.2.1 == word) (row, word, false) (row, word, true) u.double x.upsets }
  else x

/-- An upset strikes program memory. -/
def Tile.upsetCode (x : Tile) (u : PmUpset) : Tile :=
  let n := u.bundle.toNat
  { x with pmUpsets := addUpset (fun v => v.1 == n && v.2.1 == u.high) (n, u.high, false) (n, u.high, true) u.double x.pmUpsets }

/-- The upsets that struck a tile's memories. -/
def Tile.struck (x : Tile) (tm : List TmUpset) (pm : List PmUpset) : Tile := pm.foldl Tile.upsetCode (tm.foldl Tile.upset x)

/-- Tile-clock cycles since the tiles were released at step 8 of the reset order (R74). -/
def State.scrubClock (s : State) : Option Nat := s.tilesAt.map (fun w => s.wall - w)

/-- Number of the present window from 1 on; 0 while the tiles are held in reset. -/
def State.windowNo (s : State) : Nat := match s.scrubClock with
  | some n => n / 1024 + 1
  | none => 0

/-- Row that the walk of pass `pass` reads in bank `b` in its window `w`, a window behind for each that gave the bank no
cycle; none once the bank is done (R74, R75). -/
def TileHw.walkRow (h : TileHw) (pass w b : Nat) : Option Nat :=
  let k := w - (if h.pass = pass then Tab.get 0 h.behind b else 0)
  if pass = 0 ∨ 192 ≤ k then none else some (4 * k + b)

/-- Place of window number `n` in the present pass. -/
def State.passWindow (s : State) (n : Nat) : Nat := n - 1 - (s.scrubPass - 1) * 2 ^ 19

/-- The write-back slot holds a row of bank `b`. -/
def TileHw.backIn (h : TileHw) (b : Nat) : Bool := match h.wb with
  | some row => row % 4 == b
  | none => false

/-- The row of the write-back slot is rewritten with its single errors corrected (R72). -/
def rewriteRow (t : TileId) (s : State) : State :=
  match (s.tileHw t).wb with
  | none => s
  | some row => (s.modTile t (fun x => { x with upsets := x.upsets.filter (fun u => !(u.1 == row && !u.2.2)) })).modHw t
      (fun h => { h with wb := none })

/-- Bank `b` falls a window behind in pass `pass`. -/
def TileHw.fallBehind (h : TileHw) (pass b : Nat) : TileHw :=
  let old := if h.pass = pass then h.behind else []
  { h with pass := pass, behind := old.put b (Tab.get 0 old b + 1) }

/-- Does the scrubber have work in bank `b` in the present window: a row to write back, or the next row of the walk? -/
def State.scrubWork (s : State) (t : TileId) (b : Nat) : Bool :=
  let h := s.tileHw t
  h.backIn b || (h.walkRow s.scrubPass (s.passWindow s.windowNo) b).isSome

/-- The scrubber's cycle in bank `b` of this window (R70, R72, R74): the write-back slot first. A walk that a write-back held
up is a window behind. -/
def scrubBank (t : TileId) (b : Nat) (s : State) : State :=
  let h := s.tileHw t
  let row := h.walkRow s.scrubPass (s.passWindow s.windowNo) b
  let s := s.modHw t (fun h => { h with had := h.had ||| (1#4 <<< b) })
  if h.backIn b then
    let s := rewriteRow t s
    if row.isSome then s.modHw t (fun h => h.fallBehind s.scrubPass b) else s
  else match row with
    | some k => s.readEcc t k
    | none => s

/-- The banks in which the window that ends gave the walk no cycle. -/
def State.starvedBanks (s : State) (t : TileId) (n : Nat) : List Nat :=
  let h := s.tileHw t
  (List.range 4).filter (fun b => !h.had.getLsbD b && (h.walkRow s.scrubPass (s.passWindow n) b).isSome)

/-- A window of the tile's scrubber has ended and its end has not been noted. -/
def State.windowOver (s : State) (t : TileId) : Bool := decide ((s.tileHw t).window < s.windowNo)

/-- The end of the window the tile's scrubber was in (R75): the banks without a cycle in it fall behind, the window counts
once in LATE, and the detector reports each bank. A tile not yet followed was idle, so its banks have had their cycle unless
the new window begins in this cycle. -/
def endWindow (t : TileId) (s : State) : State :=
  let now := s.windowNo
  let first := decide ((s.scrubClock.getD 0) % 1024 = 0)
  let missed := if (s.tileHw t).window + 1 = now ∧ (s.tileHw t).window ≠ 0 then s.starvedBanks t (now - 1) else []
  let s := s.modHw t (fun h =>
    let h := missed.foldl (fun h b => h.fallBehind s.scrubPass b) h
    { h with window := now, had := if first then 0 else 0xF,
             late := if missed.isEmpty then h.late else if h.late = 0xFFFF then h.late else h.late + 1 })
  match s.regionOf t with
  | some r => missed.foldl (fun s b => s.hazard r t none hScrubStarved b) s
  | none => s

/-- SCRUB_WINDOW (R72, R74, R75): upsets strike the tile; a window that is over, 1,024 cy after the last, ends. -/
def execScrubWindow (t : TileId) (tm : List TmUpset) (pm : List PmUpset) (s : State) : Host.Outcome State Fault Refusal :=
  let s := s.modTile t (fun x => x.struck tm pm)
  .next (if s.windowOver t then endWindow t s else s)

/-- A pass is due: every 2^29 cy from the release of the tiles, the first with it (R74; log entry 12). -/
def State.passDue (s : State) : Bool := match s.scrubClock with
  | some n => decide (s.scrubPass * 2 ^ 29 ≤ n)
  | none => false

/-- SCRUB_PASS_START (R74): every tile's scrubber begins its walk again at row 0 of each bank. -/
def execScrubPassStart (s : State) : Host.Outcome State Fault Refusal :=
  .next (if s.passDue then { s with scrubPass := s.scrubPass + 1 } else s)

/-! ### The load engine (02 R64 to R66, R80; 17 R428) -/

/-- The empty slot. -/
def LoadDesc.zero : LoadDesc :=
  { src := 0, col := 0, nc := 0, row := 0, nr := 0, block0 := 0, nblk := 0, obj := 0, start := false }

/-- A slot's descriptor ends (R66, R80): the engine arrives at the barrier, a START begins its release. -/
def endDesc (r : RegionId) (slot : Nat) (d : LoadDesc) (s : State) : State :=
  let s := s.modRegion r (fun g => { g with
    running := g.running.drop (fun k => k == slot),
    loaded := if g.loaded.contains slot then g.loaded else slot :: g.loaded,
    startRel := if d.start then some g.cycle else g.startRel })
  if d.nblk = 0 then s else landArrival r d.obj s

/-- The deliveries of a descriptor: block by block to every tile of its rectangle. -/
def LoadDesc.deliveries (c : RegionCfg) (d : LoadDesc) : List (Nat × TileId) :=
  let tiles := rectTiles (c.col0 + d.col) d.nc (c.row0 + d.row) d.nr
  (List.range d.nblk).flatMap (fun b => tiles.map (fun t => (d.block0 + b, t)))

/-- Start a slot (17 R428): a running one is held to run once more; one that is all zero does nothing. -/
def startDesc (r : RegionId) (slot : Nat) (s : State) : State :=
  let g := s.region r
  match g.running.find slot, g.cfg with
  | some q, _ => s.setRegion r { g with running := g.running.put slot { q with again := true } }
  | none, some c =>
    let d := Tab.get LoadDesc.zero g.descs slot
    if d = LoadDesc.zero then s
    else
      let left := d.deliveries c
      let s := s.setRegion r { g with loaded := g.loaded.filter (fun k => k ≠ slot) }
      if left.isEmpty then endDesc r slot d s
      else s.modRegion r (fun g => { g with running := g.running.put slot { desc := d, left := left, again := false } })
  | none, none => s

/-- The 32 bundles of a block from its 512 bytes. -/
def blockBundles (v : Row) : List Bundle := (List.range 32).map (fun k => v.extractLsb' (128 * k) 128)

/-- A block of program memory is written (02 R62, R63). -/
def Tile.writeBlock (x : Tile) (b : Nat) (v : Row) : Tile :=
  { x with pm := x.pm.putList (32 * b) (blockBundles v), pmUpsets := x.pmUpsets.filter (fun u => u.1 / 32 ≠ b) }

/-- The tile takes a code-load block for the barrier (R65). -/
def Tile.takesCode (x : Tile) (obj : BitVec 16) : Bool := match x.ctl.run with
  | .entryHold => true
  | .waitBar o => o == obj.toNat
  | _ => false

/-- CODE_LOAD_BLOCK (R64 to R66, R296): the next block of the slot for tile `t` is fetched and delivered. -/
def execCodeLoadBlock (r : RegionId) (slot : BitVec 6) (t : TileId) (s : State) : Host.Outcome State Fault Refusal :=
  match (s.region r).running.find slot.toNat with
  | none => .next s
  | some q =>
    match q.left.find? (fun e => e.2 == t && !(s.region r).brake.haltFrozen) with
    | none => .next s
    | some e =>
      match s.engineWalk r (q.desc.src.toNat + 512 * (e.1 - q.desc.block0)) kRead with
      | (none, s) => .next s
      | (some pa, s) =>
        match s.mem.poisonedAt pa 512, s.staleAt pa with
        | some l, _ => .next (s.raise r none none fMemUe l)
        | none, some u => .next (s.raise r none none fStaleUnit u)
        | none, none =>
          if (s.tile t).takesCode q.desc.obj then
            let s := s.modTile t (fun x => x.writeBlock e.1 (s.mem.readRow pa))
            let left := q.left.erase e
            if left.isEmpty then
              let s := endDesc r slot.toNat q.desc s
              .next (if q.again then startDesc r slot.toNat s else s)
            else .next (s.modRegion r (fun g => { g with running := g.running.put slot.toNat { q with left := left } }))
          else .next (s.raise r (some t) none fCodeload e.1)

/-- A tile leaves entry hold in cycle `now`, from which its CYC counts (R46, R80). -/
def Tile.enter (x : Tile) (now : Nat) : Tile :=
  match x.ctl.run with
  | .entryHold => { x with ctl := { x.ctl with run := .running, pc := 0, next := now, origin := now }, written := [] }
  | _ => x

/-- ENTRY_HOLD_RELEASE (R80): 48 cy after the START descriptor ended, and at a clock step the region allows (18 R456),
every tile of the region issues bundle 0. -/
def execEntryHoldRelease (r : RegionId) (s : State) : Host.Outcome State Fault Refusal :=
  let g := s.region r
  if g.frozen || !s.entering g then .next s
  else
    let s := s.setRegion r { g with startRel := none }
    .next (g.tiles.foldl (fun s t => s.modTile t (fun x => x.enter g.cycle)) s)

end Sys2Proof.Machine
end

