-- ==== Sys2Proof/Machine/UpdUnit.lean ====
section
/-!
DEFINITION. Sys2Proof/Machine/UpdUnit.lean: the update units (13_training_state.md R344 to R359): shard blocks, the
arithmetic of the rules, narrow weights, and one step of a region.
-/
namespace Sys2Proof.Machine
open Sys2Proof

/-! ### Access through the region's tables (11 R296) -/

/-- The pieces of `n` bytes at `va` page by page: address and length; `k` bounds the pages. -/
def pagePieces : Nat → Nat → Nat → List (Nat × Nat)
  | 0, _, _ => []
  | k + 1, va, n =>
    let room := 0x200000 - va % 0x200000
    if n = 0 then []
    else if n ≤ room then [(va, n)]
    else (va, room) :: pagePieces k ((va + room) % 2 ^ 48) (n - room)

/-- What an access of an engine meets: the virtual address, fault code and DETAIL. -/
abbrev Trouble := Nat × Nat × Nat

/-- Read `n` bytes at device address `pa`: STALE_UNIT or MEM_UE stops it. -/
def State.readPa (s : State) (pa n : Nat) : Except Trouble (List Byte) :=
  match s.staleAt pa with
  | some d => .error (0, fStaleUnit, d)
  | none => match s.mem.poisonedAt pa n with
    | some l => .error (0, fMemUe, l)
    | none => .ok (s.mem.read pa n)

/-- Read the pieces of a range. -/
def readPieces (r : RegionId) : List (Nat × Nat) → State → Except Trouble (List Byte) × State
  | [], s => (.ok [], s)
  | (va, n) :: rest, s =>
    match s.translate r va kRead with
    | (.fault code detail, s) => (.error (va, code, detail), s)
    | (.ok pa, s) => match s.readPa pa n with
      | .error e => (.error e, s)
      | .ok b => match readPieces r rest s with
        | (.ok c, s) => (.ok (b ++ c), s)
        | (.error e, s) => (.error e, s)

/-- Read `n` bytes at virtual address `va` of region `r`. -/
def State.readVa (s : State) (r : RegionId) (va n : Nat) : Except Trouble (List Byte) × State :=
  readPieces r (pagePieces (n / 0x200000 + 2) (va % 2 ^ 48) n) s

/-- Write the pieces of a range. -/
def writePieces (r : RegionId) : List (Nat × Nat) → List Byte → State → Option Trouble × State
  | [], _, s => (none, s)
  | (va, n) :: rest, b, s =>
    match s.translate r va kWrite with
    | (.fault code detail, s) => (some (va, code, detail), s)
    | (.ok pa, s) => match s.staleAt pa with
      | some d => (some (va, fStaleUnit, d), s)
      | none => writePieces r rest (b.drop n) { s with mem := s.mem.write pa (b.take n) }

/-- Write bytes at virtual address `va` of region `r`. -/
def State.writeVa (s : State) (r : RegionId) (va : Nat) (b : List Byte) : Option Trouble × State :=
  writePieces r (pagePieces (b.length / 0x200000 + 2) (va % 2 ^ 48) b.length) b s

/-- The fault of an engine of the region: TILE_VALID 0 (R352; 11 R296, R309). -/
def engineFault (r : RegionId) (e : Trouble) (s : State) : State :=
  let walk := e.2.1 = fWalkFault ∨ e.2.1 = fWalkPool ∨ e.2.1 = fWalkIo
  (if walk then s.latchWalk r e.1 e.2.1 else s).raise r none none e.2.1 e.2.2

/-! ### Banks (R344, R345) -/

/-- Base of quarter `q` of LPDDR channel `c`. -/
def quarterBase (c q : Nat) : Nat := 0x8000000000 + c * 0x180000000 + q * 0x60000000

/-- LPDDR channels of a region, ascending. -/
def Region.lpChans (g : Region) : List Nat := match g.cfg with
  | some c => (List.range 64).filter (fun k => c.lpddr.getLsbD k)
  | none => []

/-- The contents of a bank of every channel of the region become undefined. -/
def veilBank (r : RegionId) (bank : Nat) (s : State) : State :=
  (s.region r).lpChans.foldl (fun s c => s.veil (quarterBase c bank) (quarterBase c (bank + 1))) s

/-! ### Shard blocks (R347, R348) -/

/-- `n` bytes of a shard block at offset `o`. -/
def blkAt (b : BitVec 1024) (o n : Nat) : Nat := Word.bits b (8 * o) (8 * n)

/-- RULE. -/
def blkRule (b : BitVec 1024) : Nat := blkAt b 0 1
/-- Narrow format. -/
def blkFmt (b : BitVec 1024) : Nat := Word.bits b 8 4
/-- NOEMIT. -/
def blkNoemit (b : BitVec 1024) : Bool := Word.bit b 15
/-- WCVT. -/
def blkCvt (b : BitVec 1024) : Nat := Word.bits b 16 6
/-- CHANNEL. -/
def blkChan (b : BitVec 1024) : Nat := blkAt b 3 1
/-- GFMT is BF16. -/
def blkBf16 (b : BitVec 1024) : Bool := Word.bit b 32
/-- GCLEAR. -/
def blkClear (b : BitVec 1024) : Bool := Word.bit b 33
/-- WMARGIN. -/
def blkMargin (b : BitVec 1024) : Nat := Word.bits b 34 2
/-- COUNT. -/
def blkCount (b : BitVec 1024) : Nat := blkAt b 8 4
/-- TSID. -/
def blkTsid (b : BitVec 1024) : Nat := Word.bits b 96 9
/-- ROWS. -/
def blkRows (b : BitVec 1024) : Nat := blkAt b 0x10 4
/-- COLS. -/
def blkCols (b : BitVec 1024) : Nat := blkAt b 0x14 4
/-- STATE_OFF. -/
def blkOff (b : BitVec 1024) : Nat := blkAt b 0x18 8
/-- GRAD_VA of step `s`. -/
def blkGrad (b : BitVec 1024) (s : Nat) : Nat := blkAt b (if s % 2 = 0 then 0x20 else 0x28) 8
/-- WOUT_VA. -/
def blkWout (b : BitVec 1024) : Nat := blkAt b 0x30 8
/-- SCALE_VA. -/
def blkScale (b : BitVec 1024) : Nat := blkAt b 0x38 8
/-- KEY. -/
def blkKey (b : BitVec 1024) : DWord := b.extractLsb' 512 64
/-- Bytes of the gradient buffer. -/
def blkGradBytes (b : BitVec 1024) : Nat := blkCount b * (if blkBf16 b then 2 else 4)

/-- Lengths of the arrays of a shard, in elements (R348). -/
def blkArrays (b : BitVec 1024) : List Nat :=
  let n := blkCount b
  match blkRule b with
  | 0 => [n]
  | 1 => [n, n]
  | 2 => [n, n]
  | 5 => [n, n]
  | 6 => [n, blkRows b, blkCols b]
  | _ => [n, n, n]

/-- The next multiple of 64. -/
def up64 (n : Nat) : Nat := (n + 63) / 64 * 64

/-- Offset of array `k` within the bank quarter (R348). -/
def blkArrayOff (b : BitVec 1024) (k : Nat) : Nat :=
  ((blkArrays b).take k).foldl (fun o n => up64 (o + 4 * n)) (blkOff b)

/-- End of the shard's state within the quarter. -/
def blkEnd (b : BitVec 1024) : Nat :=
  let k := (blkArrays b).length - 1
  blkArrayOff b k + 4 * (blkArrays b).getD k 0

/-- The block keeps R347, apart from CHANNEL. -/
def blkLegal (b : BitVec 1024) : Bool :=
  let adaf := blkRule b == 6
  let fmt := blkFmt b
  let d := (Format.ofCode fmt).getD .fp32
  decide (blkRule b < 7) && (fmt == 4 || fmt == 6 || fmt == 7) && Word.bits b 12 3 == 0
  && cvtLegal (blkCvt b) .fp32 d false && Word.bits b 22 2 == 0 && Word.bits b 36 4 == 0 && blkAt b 5 3 == 0
  && decide (1 ≤ blkCount b) && Word.bits b 105 7 == 0 && blkAt b 0x0E 2 == 0
  && (if adaf then blkRows b * blkCols b == blkCount b else blkRows b == 0 && blkCols b == 0)
  && blkOff b % 64 == 0 && blkAt b 0x20 8 % 64 == 0 && blkAt b 0x28 8 % 64 == 0 && blkWout b % 64 == 0
  && blkAt b 0x68 24 == 0
  && !((blkCvt b >>> 4) % 4 == 2 && !blkNoemit b && blkScale b % 4 != 0)

/-! ### Arithmetic on FP32 codes (R353): each operation counts its subflush -/

/-- A value of an operation, rounded once. -/
def updRound (x : Num) : StateM Nat Nat := fun n =>
  let r := tensorNum .fp32 x
  (r.1, n + r.2.subflush)

/-- The value of an FP32 code. -/
def val32 (c : Nat) : Num := decode .fp32 c
/-- a + b. -/
def uAdd (a b : Nat) : StateM Nat Nat := updRound (Num.add false (val32 a) (val32 b))
/-- a − b. -/
def uSub (a b : Nat) : StateM Nat Nat := updRound (Num.add false (val32 a) (val32 b).negate)
/-- a × b. -/
def uMul (a b : Nat) : StateM Nat Nat := updRound ((val32 a).mul (val32 b))
/-- a / b. -/
def uDiv (a b : Nat) : StateM Nat Nat := updRound ((val32 a).div (val32 b))
/-- √a. -/
def uSqrt (a : Nat) : StateM Nat Nat := updRound (val32 a).sqrt
/-- sign(a) (R354). -/
def uSign (a : Nat) : Nat := match val32 a with
  | .nan => encNan .fp32
  | .inf n => encFin .fp32 n 1 0
  | .fin n m _ => if m = 0 then 0 else encFin .fp32 n 1 0

/-- The code of 1. -/
def one32 : Nat := 0x3F800000

/-- An FP32 code as it is read: a subnormal becomes +0 and counts one subflush (04 R129). -/
def uRead (c : Nat) : StateM Nat Nat := fun n => if isSub .fp32 (val32 c) then (0, n + 1) else (c, n)

/-- The code of an integer (log entry 13). -/
def ofNat32 (k : Nat) : Nat := (tensorNum .fp32 (.fin false k 0)).1

/-- Bits of `t` from the most significant. -/
def bitsDown (t : Nat) : List Bool := ((List.range (bitLen t)).map (fun k => t.testBit k)).reverse

/-- β^t in FP64 by square-and-multiply from the most significant bit, each product rounded (R353). -/
def powFp64 (beta t : Nat) : Num :=
  let round (x : Num) : Num := decode .fp64 (ieeeNum .fp64 0 x).code
  let b := val32 beta
  (bitsDown t).foldl (fun p bit =>
    let q := round (p.mul p)
    if bit then round (q.mul b) else q) (.fin false 1 0)

/-- BC = RN32(1 − β^t). -/
def biasCorr (beta t : Nat) : Nat := (tensorNum .fp32 (Num.add false (.fin false 1 0) (powFp64 beta t).negate)).1

/-- The hyper-parameters of a block as the step reads them, and what one step fixes from them. -/
structure Hyper where
  lr : Nat
  b1 : Nat
  b2 : Nat
  eps : Nat
  wd : Nat
  gs : Nat
  clipd : Nat
  nb1 : Nat
  nb2 : Nat
  bc1 : Nat
  bc2 : Nat

/-- The hyper-parameters of a block for step `s`, with the subflushes of the words (R353). -/
def hyperOf (b : BitVec 1024) (s : Nat) : StateM Nat Hyper := do
  let lr ← uRead (blkAt b 0x4C 4)
  let b1 ← uRead (blkAt b 0x50 4)
  let b2 ← uRead (blkAt b 0x54 4)
  let eps ← uRead (blkAt b 0x58 4)
  let wd ← uRead (blkAt b 0x5C 4)
  let gs ← uRead (blkAt b 0x60 4)
  let clipd ← uRead (blkAt b 0x64 4)
  let nb1 ← uSub one32 b1
  let nb2 ← uSub one32 b2
  let t := (s + 1) % 2 ^ 64
  pure { lr := lr, b1 := b1, b2 := b2, eps := eps, wd := wd, gs := gs, clipd := clipd, nb1 := nb1, nb2 := nb2,
         bc1 := biasCorr b1 t, bc2 := biasCorr b2 t }

/-- One element of RULE 0 to 5 (R354): new w, m, v from g, w, m, v. -/
def updElem (rule : Nat) (h : Hyper) (g w m v : Nat) : StateM Nat (Nat × Nat × Nat) := do
  match rule with
  | 0 =>
    let a ← uMul h.wd w
    let a ← uAdd g a
    let a ← uMul h.lr a
    let w ← uSub w a
    pure (w, m, v)
  | 1 =>
    let a ← uMul h.wd w
    let g ← uAdd g a
    let a ← uMul h.b1 m
    let m ← uAdd a g
    let a ← uMul h.lr m
    let w ← uSub w a
    pure (w, m, v)
  | 2 =>
    let a ← uMul h.wd w
    let g ← uAdd g a
    let a ← uMul h.b1 m
    let m ← uAdd a g
    let a ← uMul h.b1 m
    let a ← uAdd g a
    let a ← uMul h.lr a
    let w ← uSub w a
    pure (w, m, v)
  | 5 =>
    let a ← uMul h.b1 m
    let c ← uMul h.nb1 g
    let c ← uAdd a c
    let a ← uMul h.wd w
    let a ← uAdd (uSign c) a
    let a ← uMul h.lr a
    let w ← uSub w a
    let a ← uMul h.b2 m
    let c ← uMul h.nb2 g
    let m ← uAdd a c
    pure (w, m, v)
  | rule =>
    let dec ← uMul h.wd w
    let g ← if rule = 3 then uAdd g dec else pure g
    let a ← uMul h.b1 m
    let c ← uMul h.nb1 g
    let m ← uAdd a c
    let a ← uMul h.b2 v
    let c ← uMul g g
    let c ← uMul h.nb2 c
    let v ← uAdd a c
    let a ← uDiv m h.bc1
    let c ← uDiv v h.bc2
    let c ← uSqrt c
    let c ← uAdd c h.eps
    let a ← uDiv a c
    let a ← if rule = 3 then pure a else uAdd a dec
    let a ← uMul h.lr a
    let w ← uSub w a
    pure (w, m, v)

/-- The code is a NaN or an infinity. -/
def nonFinite (c : Nat) : Bool := match val32 c with
  | .fin _ _ _ => false
  | _ => true

/-! ### ADAFACTOR (R355) -/

/-- RN of the exact sum of some codes. -/
def uSum (cs : List Nat) : StateM Nat Nat := updRound (exactSum (cs.map val32))

/-- g × g + EPS. -/
def sqEps (h : Hyper) (g : Nat) : StateM Nat Nat := do
  let a ← uMul g g
  uAdd a h.eps

/-- A factor: BETA2 × old + (1 − BETA2) × (sum / n). -/
def factor (h : Hyper) (old : Nat) (gs : List Nat) (n : Nat) : StateM Nat Nat := do
  let q ← gs.mapM (sqEps h)
  let t ← uSum q
  let t ← uDiv t (ofNat32 n)
  let a ← uMul h.b2 old
  let c ← uMul h.nb2 t
  uAdd a c

/-- u = g / sqrt((R' × C') / (rbar × BC2)). -/
def adaU (h : Hyper) (rbar g r c : Nat) : StateM Nat Nat := do
  let a ← uMul r c
  let d ← uMul rbar h.bc2
  let a ← uDiv a d
  let a ← uSqrt a
  uDiv g a

/-- The three passes: new masters, R and C. Element (i, j) is element i × COLS + j. -/
def adafactor (h : Hyper) (rows cols : Nat) (g w r c : List Nat) : StateM Nat (List Nat × List Nat × List Nat) := do
  let at_ (l : List Nat) (i : Nat) : Nat := l.getD i 0
  let r' ← (List.range rows).mapM (fun i => factor h (at_ r i) ((List.range cols).map (fun j => at_ g (i * cols + j))) cols)
  let c' ← (List.range cols).mapM (fun j => factor h (at_ c j) ((List.range rows).map (fun i => at_ g (i * cols + j))) rows)
  let t ← uSum r'
  let rbar ← uDiv t (ofNat32 rows)
  let us ← (List.range (rows * cols)).mapM (fun k => do
    let u ← adaU h rbar (at_ g k) (at_ r' (k / cols)) (at_ c' (k % cols))
    uMul u u)
  let ss ← uSum us
  let a ← uDiv ss (ofNat32 (rows * cols))
  let a ← uSqrt a
  let a ← uDiv a h.clipd
  let k := (ieeeNum .fp32 0 (Num.maxNum (.fin false 1 0) (val32 a))).code
  let w' ← (List.range (rows * cols)).mapM (fun n => do
    let u ← adaU h rbar (at_ g n) (at_ r' (n / cols)) (at_ c' (n % cols))
    let u ← uDiv u k
    let a ← uMul h.wd (at_ w n)
    let a ← uAdd u a
    let a ← uMul h.lr a
    uSub (at_ w n) a)
  pure (w', r', c')

/-! ### A shard (R350 step 4, R356) -/

/-- 32-bit codes of a byte string. -/
def words32 : List Byte → List Nat
  | a :: b :: c :: d :: r => leNat [a, b, c, d] :: words32 r
  | _ => []

/-- 16-bit codes of a byte string. -/
def words16 : List Byte → List Nat
  | a :: b :: r => leNat [a, b] :: words16 r
  | _ => []

/-- Bytes of 32-bit codes. -/
def bytes32 (cs : List Nat) : List Byte := cs.flatMap (leBytes 4)

/-- A gradient as an FP32 working value, with its events: BF16 is widened (04 R124, R129). -/
def gradRead (bf16 : Bool) (c : Nat) : Nat × Events :=
  if bf16 then cvt .bf16 (decode .bf16 c) .fp32 .sat .nearest .none_
  else if isSub .fp32 (val32 c) then (0, Events.sub1) else (c, Events.none_)

/-- What a shard's update gives: arrays by R348's order, elements left unchanged (UPD_NF), events. -/
structure ShardOut where
  arrays : List (List Nat)
  nf : Nat
  ev : Events

/-- The update of a shard of RULE 0 to 5, element by element. -/
def shardElems (rule : Nat) (h : Hyper) (g w m v : List Nat) : List (Nat × Nat × Nat) × Nat × Nat :=
  (List.range g.length).foldl (fun (acc : List (Nat × Nat × Nat) × Nat × Nat) i =>
    let q := (uMul (g.getD i 0) h.gs) acc.2.2
    let old := (w.getD i 0, m.getD i 0, v.getD i 0)
    if nonFinite q.1 then (acc.1 ++ [old], acc.2.1 + 1, q.2)
    else
      let z : (Nat × Nat × Nat) × Nat := (do
        let w ← uRead old.1
        let m ← uRead old.2.1
        let v ← uRead old.2.2
        updElem rule h q.1 w m v : StateM Nat _) q.2
      (acc.1 ++ [z.1], acc.2.1, z.2)) ([], 0, 0)

/-- The update of a shard for step `s` from its gradient codes and its arrays. -/
def shardUpdate (b : BitVec 1024) (s : Nat) (grad : List Nat) (arrays : List (List Nat)) : ShardOut :=
  let hq := (hyperOf b s) 0
  let h : Hyper := hq.1
  let gs := grad.map (gradRead (blkBf16 b))
  let g := gs.map (·.1)
  let ev := gs.foldl (fun (e : Events) x => e.add x.2) { Events.none_ with subflush := hq.2 }
  let w := arrays.getD 0 []
  let a1 := arrays.getD 1 []
  let a2 := arrays.getD 2 []
  if blkRule b = 6 then
    let q : List Nat × Nat := (g.mapM (fun x => uMul x h.gs) : StateM Nat _) 0
    if q.1.any nonFinite then { arrays := arrays, nf := g.length, ev := { ev with subflush := ev.subflush + q.2 } }
    else
      let z : (List Nat × List Nat × List Nat) × Nat := (do
        let w ← w.mapM uRead
        let r ← a1.mapM uRead
        let c ← a2.mapM uRead
        adafactor h (blkRows b) (blkCols b) q.1 w r c : StateM Nat _) q.2
      { arrays := [z.1.1, z.1.2.1, z.1.2.2], nf := 0, ev := { ev with subflush := ev.subflush + z.2 } }
  else
    let z := shardElems (blkRule b) h g w a1 a2
    let all := [z.1.map (·.1), z.1.map (·.2.1), z.1.map (·.2.2)]
    { arrays := all.take (blkArrays b).length, nf := z.2.1, ev := { ev with subflush := ev.subflush + z.2.2 } }

/-! ### Narrow weights (R357, R358) -/

/-- The 16 bits drawn for element `i` of the block with list index `idx` in step `s` (R358). -/
def emitDraw (b : BitVec 1024) (idx : Nat) (s i : Nat) : Nat :=
  ((spoke (blkKey b) (streamNo 2 (blkTsid b) idx (blkChan b)) (BitVec.ofNat 64 s) (BitVec.ofNat 32 (i / 4))).get (i % 4)).toNat % 65536

/-- The largest magnitude of some masters, subnormals flushed (04 R121). -/
def emitAmax (ws : List Nat) : Num :=
  ws.foldl (fun m c => if isSub .fp32 (val32 c) then m else amaxOf m (val32 c)) (.fin false 0 0)

/-- Codes, scale bytes and events of the emission of masters `ws` (R357). -/
def emitCodes (b : BitVec 1024) (idx s : Nat) (ws : List Nat) : List Nat × List Byte × Events :=
  let d := (Format.ofCode (blkFmt b)).getD .fp32
  let cv := blkCvt b
  let sc := (cv >>> 4) % 4
  let one (i : Nat) (scale : Scale) : Nat × Events :=
    cvt .fp32 (val32 (ws.getD i 0)) d (ovfOf cv) (dirOfCvt cv (emitDraw b idx s i)) scale
  let gather (l : List (Nat × Events)) : List Nat × Events := (l.map (·.1), l.foldl (fun (e : Events) x => e.add x.2) .none_)
  if sc = 1 then
    (List.range ((ws.length + 31) / 32)).foldl (fun (acc : List Nat × List Byte × Events) k =>
      let part := (ws.drop (32 * k)).take 32
      let e := scaleExp (emitAmax part) d (blkMargin b)
      let q : List Nat × Events := match e with
        | none => (part.map (fun _ => 0), Events.nans (part.filter nonFinite).length)
        | some x => gather ((List.range part.length).map (fun i => one (32 * k + i) (.pow x)))
      (acc.1 ++ q.1 ++ List.replicate (32 - part.length) 0, acc.2.1 ++ [BitVec.ofNat 8 (scaleCode e)], acc.2.2.add q.2))
      ([], [], .none_)
  else
    let scale : Scale := if sc = 2 then .ofTensor (blkAt b 0x48 4) else .none_
    let q := gather ((List.range ws.length).map (fun i => one i scale))
    (q.1, if sc = 2 then leBytes 4 (blkAt b 0x48 4) else [], q.2)

/-- Codes of `w` bits packed from the least significant end (04 R112). -/
def packCodes (w : Nat) (cs : List Nat) : List Byte :=
  leBytes ((cs.length * w + 7) / 8) (cs.zipIdx.foldl (fun x c => x + (c.1 <<< (w * c.2))) 0)

/-- The armed shards. -/
def Upd.shards (u : Upd) : List (BitVec 1024) := if u.armed then u.blocks else []

/-- Counters of a region after a shard (R356, R359). -/
def Upd.count (u : Upd) (nf : Nat) (e : Events) : Upd :=
  { u with nf := Word.satAdd u.nf nf, clip := Word.satAdd u.clip e.clip, uflow := Word.satAdd u.uflow e.uflow,
           nan := Word.satAdd u.nan e.nan, subflush := Word.satAdd u.subflush e.subflush }

/-- Emit the masters of a block for step `s`. -/
def emitShard (r : RegionId) (b : BitVec 1024) (idx s : Nat) (ws : List Nat) (st : State) : Option Trouble × State :=
  if blkNoemit b then (none, st)
  else
    let q := emitCodes b idx s ws
    let st := st.modRegion r (fun g => { g with upd := g.upd.count 0 q.2.2 })
    match st.writeVa r (blkWout b) (packCodes ((Format.ofCode (blkFmt b)).getD .fp32).width q.1) with
    | (some e, st) => (some e, st)
    | (none, st) => if q.2.1.isEmpty then (none, st) else st.writeVa r (blkScale b) q.2.1

/-- Read the arrays of a shard from a bank. -/
def readArrays (b : BitVec 1024) (bank : Nat) (s : State) : Except Trouble (List (List Nat)) :=
  (List.range (blkArrays b).length).mapM (fun k =>
    (s.readPa (quarterBase (blkChan b) bank + blkArrayOff b k) (4 * (blkArrays b).getD k 0)).map words32)

/-- Write the arrays of a shard into a bank. -/
def writeArrays (b : BitVec 1024) (bank : Nat) (as : List (List Nat)) (s : State) : State :=
  as.zipIdx.foldl (fun s a =>
    { s with mem := s.mem.write (quarterBase (blkChan b) bank + blkArrayOff b a.2) (bytes32 a.1) }) s

/-- The bytes of a gradient buffer as START_OBJ was met, from what it holds now: what lands later is not for this step (R351; 14
R372). -/
def gradSeen (r : RegionId) (b : BitVec 1024) (n : Nat) (now : List Byte) (s : State) : List Byte :=
  match (s.region r).upd.seen with
  | none => now
  | some m => match ({ s with mem := m }.readVa r (blkGrad b n) now.length).1 with
    | .ok gb => gb
    | .error _ => now

/-- What GCLEAR leaves of a gradient buffer: zeros; a byte that has changed since START_OBJ was met broke a duty, and is undefined
(R350, R351; log entry 100). -/
def gradLeft (seen now : List Byte) (s : State) : List Byte × State :=
  (List.zip seen now).foldl (fun acc q =>
    if q.1 = q.2 then (acc.1 ++ [0], acc.2) else let d := acc.2.draw 8
                                                 (acc.1 ++ [d.1], d.2)) ([], s)

/-- One shard of step `n` (R350 step 4). -/
def updShard (r : RegionId) (n idx : Nat) (b : BitVec 1024) (s : State) : Option Trouble × State :=
  let bytes := up64 (blkGradBytes b)
  match s.readVa r (blkGrad b n) bytes with
  | (.error e, s) => (some e, s)
  | (.ok now, s) => let gs := gradSeen r b n now s
    let gb := gs.take (blkGradBytes b)
    match s.stale 5 (blkChan b), readArrays b (n % 2) s with
    | true, _ => (some (0, fStaleUnit, 5 + (blkChan b <<< 8)), s)
    | _, .error e => (some e, s)
    | _, .ok as =>
      let o := shardUpdate b n (if blkBf16 b then words16 gb else words32 gb) as
      let s := writeArrays b ((n + 1) % 2) o.arrays s
      let s := s.modRegion r (fun g => { g with upd := g.upd.count o.nf o.ev })
      match emitShard r b idx n (o.arrays.getD 0 []) s with
      | (some e, s) => (some e, s)
      | (none, s) => if blkClear b then let q := gradLeft gs now s
                                        q.2.writeVa r (blkGrad b n) q.1 else (none, s)

/-- The blocks of a list in order, until one meets trouble. -/
def overBlocks (act : Nat → BitVec 1024 → State → Option Trouble × State) : List (BitVec 1024 × Nat) → State → Option Trouble × State
  | [], s => (none, s)
  | (b, idx) :: rest, s => match act idx b s with
    | (some e, s) => (some e, s)
    | (none, s) => overBlocks act rest s

/-- Bytes of narrow weights, and of scales, that a block's emission writes (R357). -/
def emitBytes (b : BitVec 1024) : Nat × Nat :=
  let n := blkCount b
  let w := ((Format.ofCode (blkFmt b)).getD .fp32).width
  match (blkCvt b >>> 4) % 4 with
  | 1 => (((n + 31) / 32 * 32 * w + 7) / 8, (n + 31) / 32)
  | 2 => ((n * w + 7) / 8, 4)
  | _ => ((n * w + 7) / 8, 0)

/-- The contents of a range of virtual addresses become undefined. -/
def State.veilVa (s : State) (r : RegionId) (va n : Nat) : State :=
  (pagePieces (n / 0x200000 + 2) (va % 2 ^ 48) n).foldl (fun s q => match (s.translate r q.1 kWrite).1 with
    | .ok pa => s.veil pa (pa + q.2)
    | .fault _ _ => s) s

/-- The narrow weights and scales of a block are undefined from START_OBJ on until its emission (R351; 14 R373). -/
def veilWeights (r : RegionId) (s : State) (b : BitVec 1024) : State :=
  if blkNoemit b then s
  else
    let n := emitBytes b
    (s.veilVa r (blkWout b) n.1).veilVa r (blkScale b) n.2

/-- Emission of every block of the armed list from a bank, as of step `n` (R366); a list that is not armed has none. -/
def emitAll (r : RegionId) (bank n : Nat) (s : State) : Option Trouble × State :=
  overBlocks (fun idx b s => match readArrays b bank s with
    | .error e => (some e, s)
    | .ok as => emitShard r b idx n (as.getD 0 []) s) (s.region r).upd.shards.zipIdx s

/-! ### The loop (R350) -/

/-- A step is in progress: step 1 is behind it. -/
def Upd.busy (u : Upd) : Bool := u.phase == .running || u.startMet

/-- The controller's waiter leaves START_OBJ; the one behind it may be served (10 R259). -/
def dropUpdWait (r : RegionId) (o : BitVec 16) (s : State) : State :=
  let x := s.obj o
  if x.waiters.any (fun w => w.tile.isNone) then
    serve r o (s.setObj o { x with waiters := x.waiters.filter (fun w => w.tile.isSome) })
  else s

/-- Step 1: the controller waits on START_OBJ, or stops if it is disarmed. -/
def updStep1 (r : RegionId) (s : State) : State :=
  let u := (s.region r).upd
  if u.armed = false ∨ u.disarm then
    s.modRegion r (fun g => { g with upd := { g.upd with armed := false, disarm := false, phase := .idle, startMet := false, seen := none } })
  else
    let s := s.modRegion r (fun g => { g with upd := { g.upd with phase := .waitStart, startMet := false, seen := none } })
    reach r u.startObj .engine (fun s => serve r u.startObj (appendWait r u.startObj .engine none u.startCount.toNat s)) s

/-- Step s − 2 is committed, for s = UPD_STEP (R350, R386); while step s − 2 exists once, nothing may overwrite it (15 R400). -/
def Region.commitMet (g : Region) : Bool :=
  g.fw.commitValid && ((g.fw.commitStep == g.upd.step - 2 && !g.fw.sole) || g.fw.commitStep == g.upd.step - 1)

/-- The context area of a step (15 R389, R390): each tile's last capture; CTX_MISS if one did not mark the step. -/
def writeContext (r : RegionId) (n bank : Nat) (s : State) : State :=
  let g := s.region r
  if g.fw.conf = false then s
  else
    let base := quarterBase g.fw.ctxChan.toNat bank + g.fw.ctxOff
    let entry (t : TileId) : List Byte :=
      let m := (s.tile t).markDone
      leBytes 2 t.toNat ++ leBytes 2 m.2.2.2.toNat ++ leBytes 4 m.1.toNat ++ leBytes 8 m.2.1.toNat ++ leBytes 8 m.2.2.1.toNat
        ++ List.replicate 8 0
    let s := { s with mem := s.mem.write base (g.tiles.flatMap entry) }
    if g.tiles.any (fun t => (s.tile t).markDone.1.toNat != n % 2 ^ 32) then s.fwEvent r 1 else s

/-- Trouble in a step: the region halts, its units stop, and the bank being written is undefined (R352). -/
def updTrouble (r : RegionId) (n : Nat) (e : Trouble) (s : State) : State :=
  veilBank r ((n + 1) % 2) (engineFault r e (s.modRegion r (fun g => { g with upd := { g.upd with phase := .cut, startMet := false } })))

/-- The hyper-parameter words of a block in memory replace those kept (R350 step 3, R351). -/
def readHyper (r : RegionId) (idx : Nat) (b : BitVec 1024) (s : State) : Option Trouble × State :=
  match s.readVa r ((s.region r).upd.listVa.toNat + 128 * idx + 0x48) 32 with
  | (.error e, s) => (some e, s)
  | (.ok w, s) => (none, s.modRegion r (fun g => { g with upd := { g.upd with
      blocks := g.upd.blocks.set idx (Word.put b (8 * 0x48) 256 (leNat w)) } }))

/-- Steps 2 and 3 of R350: the hyper-parameters are read and the context is written; the units run, and the narrow weights are
undefined until they have. -/
def updStart (r : RegionId) (s : State) : State :=
  let n := (s.region r).upd.step.toNat
  let s := s.modRegion r (fun g => { g with upd := { g.upd with phase := .running, startMet := false, doneBlocks := 0 } })
  match overBlocks (readHyper r) (s.region r).upd.blocks.zipIdx s with
  | (some e, s) => updTrouble r n e s
  | (none, s) => (s.region r).upd.blocks.foldl (veilWeights r) (writeContext r n ((n + 1) % 2) s)

/-- An export still reads the bank this step writes, or has still to begin (15 R392). -/
def Region.exportHolds (g : Region) : Bool :=
  (g.exp.running && g.exp.cur + 2 == g.upd.step && g.exp.left.any (fun q => q.2 != 7))
  || g.exp.want.any (fun w => w.1 + 2 == g.upd.step)

/-- Steps 4 and 5 of R350. -/
def updEnd (r : RegionId) (s : State) : State :=
  let u := (s.region r).upd
  let n := u.step.toNat
  match overBlocks (updShard r n) u.blocks.zipIdx s with
  | (some e, s) => updTrouble r n e s
  | (none, s) =>
    let s := s.modRegion r (fun g => { g with upd := { g.upd with step := g.upd.step + 1, doneBlocks := u.blocks.length } })
    updStep1 r (landSignal r u.doneObj .engine s)

end Sys2Proof.Machine
end

