-- ==== Sys2Proof/Machine/RegionUnit.lean ====
section
/-!
DEFINITION. Sys2Proof/Machine/RegionUnit.lean: what a rollback, a program load, grant and revoke share: the reset of
tiles, sync objects and gates (02 R82 to R84; 10 R268, R281; 09 R249), and the end of a halt (03 R105; 16 R413).
-/
namespace Sys2Proof.Machine
open Sys2Proof

/-- The tile holds a poisoned word in 32-row group `k`. -/
def Tile.groupPoisoned (x : Tile) (k : Nat) : Bool := x.poison.any (fun p => p.1 / 32 == k)

/-- Groups `p` selects, as the bits of RETAIN. -/
def groupMask (p : Nat → Bool) : BitVec 24 :=
  (List.range 24).foldl (fun m k => if p k then m ||| (1#24 <<< k) else m) 0

/-- A tile after a rollback (`roll`) or under a program load (02 R82, R83): what is pending is gone, unretained rows are zero,
the units are reset, and the tile is in entry hold. -/
def Tile.restart (x : Tile) (roll : Bool) : Tile :=
  let keep (k : Nat) : Bool := x.ctl.retain.getLsbD k && !x.groupPoisoned k
  let stays (row : Nat) : Bool := keep (row / 32)
  { x with
    ctl := { Ctl.reset with
      retain := if roll then groupMask keep else x.ctl.retain,
      retainLost := if roll then groupMask (fun k => x.ctl.retain.getLsbD k && x.groupPoisoned k) else x.ctl.retainLost },
    tm := x.tm.clear (fun row => !stays row), upsets := x.upsets.filter (fun u => stays u.1),
    poison := x.poison.filter (fun u => stays u.1), written := [], uses := [], reqs := [], expect := [], sb := [],
    matrix := { MatSt.reset with md := x.matrix.md },
    guards := if roll then .reset else { Guards.reset with seed := x.guards.seed },
    vec := if roll then { VecSt.reset with key := x.vec.key, pos := x.vec.pos, tsid := x.vec.tsid } else .reset,
    exch := .reset, dmas := [], chans := [], ports := [], cqrows := [], split := none, mark := [] }

/-- An object after a rollback or a program load (10 R268). -/
def SyncObj.restart (x : SyncObj) : SyncObj :=
  { SyncObj.reset with bar := x.bar, xch := x.xch, pcount := x.pcount, value := if x.bar then x.pcount else 0,
                       parEn := x.parEn, parentPort := x.parentPort, parentDev := x.parentDev, parentObj := x.parentObj }

/-- Objects of region `r` changed by `f`. -/
def State.mapObjs (s : State) (r : RegionId) (f : SyncObj → SyncObj) : State :=
  let g := s.region r
  { s with objs := Tab.mapVals (fun (k : Nat) (x : SyncObj) => if g.ownsObj k then f x else x) s.objs }

/-- Tiles of region `r` changed by `f`. -/
def State.mapTiles (s : State) (r : RegionId) (f : TileId → Tile → Tile) : State :=
  (s.region r).tiles.foldl (fun s t => s.modTile t (f t)) s

/-- The inbound buffer of a region's lane on a port is emptied, but for restore traffic of the freewheel: its space is freed
(12 R327; 09 R249; 15 R396). -/
def emptyInbound (r : RegionId) (p : PortId) (s : State) : State :=
  let g := s.region r
  match g.lane p with
  | none => s
  | some v =>
    let rows := g.inRows.filter (fun q => q.decl.isNone && q.port == p)
    let l := (s.port p).lane v
    let units := (l.rxq.filter (fun t => !t.fwMove)).foldl (fun n t => n + t.units) (33 * rows.length)
    if units = 0 then s
    else s.modLane p v (fun l => { l with rxq := l.rxq.filter (fun t => t.fwMove), freed := l.freed + BitVec.ofNat 16 units })

/-- Every port. -/
def allPorts : List PortId := (List.range 12).map (fun k => BitVec.ofNat 4 k)

/-- The gate buffers of the region are emptied in both directions (09 R249). -/
def emptyGates (r : RegionId) (s : State) : State :=
  let s := allPorts.foldl (fun s p => emptyInbound r p s) s
  s.modRegion r (fun g => { g with gateOut := [], inRows := [] })

/-- What a region has under way in its rectangle is gone: packets, windows, sync operations, releases, code loads, due marks. -/
def Region.quiet (g : Region) : Region :=
  { g with
    complete := false, window := .reset, flights := [], packets := [], links := [], running := [], starts := [], credits := [],
    loaded := [], startRel := none, touched := [], releases := [],
    brake := { g.brake with marks := [], missing := false, flips := [], frozen := false, run := 0 } }

/-- The region stands in entry hold, with its configuration kept. -/
def restartRegion (r : RegionId) (roll : Bool) (s : State) : State :=
  let s := s.mapTiles r (fun _ x => x.restart roll)
  let s := emptyGates r ((s.mapObjs r SyncObj.restart).modRegion r Region.quiet)
  let u := (s.region r).upd
  if u.phase = .waitStart ∧ u.startMet = false then updStep1 r s else s

/-- A halt that no fault causes: the records of the last halt go (17 R442), and the region stands. -/
def haltNow (r : RegionId) (s : State) : State :=
  s.modRegion r (fun g =>
    let f := if g.halting then g.faults else { g.faults with recs := [], lost := 0 }
    { g with faults := f, brake := { g.brake with haltAt := some (g.brake.haltAt.getD s.wall), haltFrozen := true, halted := true } })

/-- A halt ends (16 R413): everything thaws, and WALK_VA is armed again (11 R293). -/
def endHalt (r : RegionId) (s : State) : State :=
  s.modRegion r (fun g => { g with
    brake := { g.brake with haltAt := none, haltFrozen := false, halted := false }, mem := { g.mem with armed := true } })

end Sys2Proof.Machine
end

