-- ==== Sys2Proof/Machine/FwUnit.lean ====
section
/-!
DEFINITION. Sys2Proof/Machine/FwUnit.lean: the freewheel (15_checkpoint_restart.md R380 to R400): mirrors, moves, restores
and the sequence of a rollback; the end of a derailleur run.
-/
namespace Sys2Proof.Machine
open Sys2Proof

/-! ### Moves (R382, R383) -/

/-- TANDEM_PORTS, ascending. -/
def Fw.portList (f : Fw) : List PortId := allPorts.filter (fun p => f.ports.getLsbD p.toNat)

/-- ARGS of a move with MIRROR. -/
def fwArgs (off chan bank : Nat) (step : Nat) : Nat :=
  off % 2 ^ 32 + (chan <<< 32) + (bank <<< 40) + ((step % 65536) <<< 48)

/-- Send one move to the tandem. -/
def sendMove (r : RegionId) (p : PortId) (flags args : Nat) (data : List Byte) (s : State) : State :=
  s.sendTxn r p .fw 9 flags (s.region r).fw.tandem.toNat args data

/-- The pieces of `n` bytes of a channel, at most 512 each: offset and length. -/
def movePieces (n : Nat) : List (Nat × Nat) := (List.range ((n + 511) / 512)).map (fun k => (512 * k, min 512 (n - 512 * k)))

/-- Send `n` bytes of a quarter as data moves, dealt over the tandem ports in turn from move number `k`; a poisoned line
stops it. -/
def sendRange (r : RegionId) (flags chan quarter bank step n k : Nat) (s : State) : Option Trouble × State :=
  let base := quarterBase chan quarter
  let ports := (s.region r).fw.portList
  match s.readPa base n with
  | .error e => if n = 0 then (none, s) else (some e, s)
  | .ok b =>
    (none, (movePieces n).zipIdx.foldl (fun s q =>
      sendMove r (ports.getD ((k + q.2) % ports.length) 0) flags (fwArgs (q.1.1 / 64) chan bank step) ((b.drop q.1.1).take q.1.2) s) s)

/-- A mirror move that still waits to be sent (not an acknowledgement and not of a restore). -/
def isMirrorMove (q : TxnKind × Txn) : Bool :=
  q.1 == .fw && q.2.code == 9 && q.2.flags.testBit 1 && !q.2.flags.testBit 2 && !q.2.flags.testBit 3 && !q.2.flags.testBit 4

/-- A move of the derailleur that still waits to be sent. -/
def isDrlMove (q : TxnKind × Txn) : Bool := q.2.code == 9 && !q.2.flags.testBit 1

/-- Moves of the region of one sort that are not yet sent are discarded. -/
def dropMoves (r : RegionId) (gone : TxnKind × Txn → Bool) (s : State) : State :=
  allPorts.foldl (fun s p => match (s.region r).lane p with
    | some v => if ((s.port p).lane v).out.any gone then
        s.modLane p v (fun l => { l with out := l.out.filter (fun q => !gone q) }) else s
    | none => s) s

/-- The mirror in progress is abandoned; with `all`, one that waits for its commit too (R387, R388). -/
def fwAbandon (r : RegionId) (all : Bool) (s : State) : State :=
  let f := (s.region r).fw
  if (f.st = .mirroring ∨ f.st = .remirroring ∨ f.st = .awaiting) ∧ (all ∨ f.mirrorAcked = false) then
    (dropMoves r isMirrorMove s).modRegion r (fun g => { g with fw := { g.fw with
      st := .idle, wait := [], startBeat := none, stalled := false, mirrorAcked := false } })
  else s

/-- REMIRROR is set and COMMIT_VALID clears (R381, R387). -/
def fwForget (r : RegionId) (s : State) : State :=
  s.modRegion r (fun g => { g with fw := { g.fw with remirror := true, commitValid := false, sole := false } })

/-! ### Mirrors (R384 to R387) -/

/-- MIRROR_END of a channel for a list of blocks (R384). -/
def mirrorEndOf (g : Region) (blocks : List (BitVec 1024)) (c : Nat) : Nat :=
  let ends := (blocks.filter (fun b => blkChan b == c)).map blkEnd
  let ctx := if g.fw.conf && g.fw.ctxChan.toNat == c then [g.fw.ctxOff + 32 * g.tiles.length] else []
  up64 ((ends ++ ctx).foldl max 0)

/-- Every channel is acknowledged (R385): MIRROR_ACKED, and the arrival at COMMIT_OBJ. -/
def fwAcked (r : RegionId) (s : State) : State :=
  let s := s.modRegion r (fun g => { g with fw := { g.fw with
    mirrorAcked := true, sole := g.fw.sole && g.fw.st != .remirroring,
    st := if g.fw.st = .mirroring then .awaiting else g.fw.st } })
  landArrival r (s.region r).fw.obj s

/-- The data and DONE moves of each channel of a mirror. -/
def sendMirror (r : RegionId) (bank step : Nat) : List Nat → Nat → State → Option Trouble × State
  | [], _, s => (none, s)
  | c :: rest, k, s =>
    let n := Tab.get 0 (s.region r).fw.mirrorEnd c
    match sendRange r 2 c bank bank step n k s with
    | (some e, s) => (some e, s)
    | (none, s) =>
      let s := (s.region r).fw.portList.foldl (fun s p => sendMove r p 3 (fwArgs 0 c bank step) [] s) s
      sendMirror r bank step rest (k + (movePieces n).length) s

/-- A mirror of bank UPD_STEP mod 2 begins, as of step UPD_STEP − 1. -/
def fwMirror (r : RegionId) (re : Bool) (s : State) : State :=
  let g := s.region r
  let step := g.upd.step - 1
  let s := s.modRegion r (fun g => { g with fw := { g.fw with
    st := if re then .remirroring else .mirroring, mirrorStep := step, wait := g.lpChans, startBeat := some s.beats,
    stalled := false } })
  match sendMirror r (g.upd.step.toNat % 2) step.toNat g.lpChans 0 s with
  | (some e, s) => engineFault r e s
  | (none, s) => if g.lpChans.isEmpty then fwAcked r s else s

/-! ### The derailleur's end (13 R364, R365) -/

/-- A run ends: DRL_RUN completes; after a failure the read bank is undefined. -/
def drlEnd (r : RegionId) (code : Nat) (s : State) : State :=
  let g := s.region r
  if g.drl.st ≠ .running then s
  else
    let s := s.modRegion r (fun g => { g with drl := { g.drl with
      st := if code = eOk then .done else .failed, released := false, arrived := false } })
    let s := if code = eOk then s else veilBank r (g.upd.step.toNat % 2) s
    match g.drl.fn with
    | some f => s.finish (fnNo f) 0x16 code
    | none => s

/-! ### A rollback (R396 to R400) -/

/-- The command of a rollback or an adoption completes. -/
def fwFinish (r : RegionId) (code : Nat) (s : State) : State :=
  match (s.region r).fw.restore with
  | none => s
  | some q =>
    let s := s.modRegion r (fun g => { g with fw := { g.fw with restore := none, st := if g.fw.conf then .idle else .unconfigured } })
    s.finish (fnNo q.fn) (if q.adopt then 0x1A else 0x19) code

/-- The pages of a buffer are marked (R396 step 4; 11 R305). -/
def markBuffer (r : RegionId) : List (Nat × Nat) → State → Option Trouble × State
  | [], s => (none, s)
  | (va, _) :: rest, s => match s.translate r va kZero with
    | (.fault code detail, s) => (some (va, code, detail), s)
    | (.ok pa, s) => markBuffer r rest { s with mem := s.mem.mark (pageOf pa) }

/-- Both gradient buffers of a block are marked. -/
def markGrads (r : RegionId) (_ : Nat) (b : BitVec 1024) (s : State) : Option Trouble × State :=
  let n := blkGradBytes b
  match markBuffer r (pagePieces (n / 0x200000 + 2) (blkAt b 0x20 8 % 2 ^ 48) n) s with
  | (some e, s) => (some e, s)
  | (none, s) => markBuffer r (pagePieces (n / 0x200000 + 2) (blkAt b 0x28 8 % 2 ^ 48) n) s

/-- SPK_KEY, SPK_STREAM and SPK_POS of every tile come from the context area (R389, R396 step 5). -/
def restoreContext (r : RegionId) (b : List Byte) (s : State) : State :=
  (s.region r).tiles.zipIdx.foldl (fun s q =>
    let e := (b.drop (32 * q.2)).take 32
    s.modTile q.1 (fun x => { x with vec := { x.vec with
      key := BitVec.ofNat 64 (leAt e 8 8), pos := BitVec.ofNat 64 (leAt e 16 8), tsid := BitVec.ofNat 9 (leAt e 2 2) } })) s

/-- Steps 4 to 8 of R396 for target `n`; the configuration is reloaded from the hub's copies (17 R436). Trouble on the way leaves the region halted and ends the command (log entry 14). -/
def restoreFinish (r : RegionId) (s : State) : State :=
  match (s.region r).fw.restore with
  | none => s
  | some q =>
    let f := (s.region r).fw
    let bank := (q.target.toNat + 1) % 2
    let fail (e : Trouble) (s : State) : State := fwFinish r eNores (engineFault r e s)
    let s := s.parityClean (fun h => h.region == some r)
    match overBlocks (markGrads r) (s.region r).upd.shards.zipIdx s with
    | (some e, s) => fail e s
    | (none, s) => match s.readPa (quarterBase f.ctxChan.toNat bank + f.ctxOff) (32 * (s.region r).tiles.length) with
      | .error e => fail e s
      | .ok ctx =>
        let s := s.modRegion r (fun g => { g with
          upd := { g.upd with step := q.target + 1, phase := if g.upd.armed then .waitStart else .idle, startMet := false },
          fw := { g.fw with commitStep := q.target, commitValid := true, mirrorAcked := false,
                            remirror := g.fw.remirror || q.remirror, sole := g.fw.sole || q.remirror } })
        let s := restoreContext r ctx (restartRegion r true s)
        match emitAll r bank q.target.toNat s with
        | (some e, s) => fail e s
        | (none, s) =>
          let s := endHalt r s
          let s := if (s.region r).upd.armed then landSignal r (s.region r).upd.doneObj .engine s else s
          fwFinish r eOk s

/-- The update of step T + 2 has passed step 3 of R350 (R397). -/
def Upd.passed (u : Upd) (target : DWord) : Bool :=
  let d := u.step - (target + 2)
  (d == 0 && (u.phase == .running || u.phase == .cut)) || (d != 0 && decide (d.toNat < 2 ^ 63))

/-- The channels a restore pulls from the tandem (R397, R400). -/
def restorePulls (s : State) (r : RegionId) (target : DWord) (adopt : Bool) : List Nat :=
  let g := s.region r
  let bank := (target.toNat + 1) % 2
  g.lpChans.filter (fun c => adopt || g.upd.passed target
    || (s.mem.poisonedAt (quarterBase c bank) (Tab.get 0 g.fw.mirrorEnd c)).isSome)

/-- Steps 1 to 3 of R396 (R397, R400). -/
def restoreStart (r : RegionId) (fn : Fn) (target : DWord) (remirror adopt : Bool) (s : State) : State :=
  let pulls := restorePulls s r target adopt
  let s := dropMoves r isDrlMove (drlEnd r eTimeout (endExport r (fwAbandon r false (haltNow r s))))
  let bank := (target.toNat + 1) % 2
  let q : Restore := {
    fn := fn, target := target, remirror := remirror, adopt := adopt, wait := pulls, silent := pulls, done := [],
    left := pulls.map (fun c => (c, Tab.get 0 (s.region r).fw.mirrorEnd c)), since := s.beats }
  let s := s.modRegion r (fun g => { g with fw := { g.fw with restore := some q, st := .restoring } })
  if pulls.isEmpty then restoreFinish r s
  else match (s.region r).fw.portList.find? (fun p => (s.port p).st == .up) with
    | none => fwFinish r eNores s
    | some p => pulls.foldl (fun s c =>
        sendMove r p 0x1A (fwArgs 0 c bank target.toNat)
          (leBytes 64 (Tab.get 0 (s.region r).fw.mirrorEnd c / 64)) s) s

/-! ### Moves received (R382) -/

/-- What a move with MIRROR is for. -/
inductive MoveKind where
  | mirrorData | mirrorDone | mirrorAck | restoreRequest | restoreData | restoreDone | restoreRefuse
deriving DecidableEq, Repr

/-- The kind of a move by its FLAGS. -/
def moveKind (flags : Nat) : MoveKind :=
  if flags.testBit 4 then (if flags.testBit 5 then .restoreRefuse else .restoreRequest)
  else if flags.testBit 2 then .mirrorAck
  else if flags.testBit 3 then (if flags.testBit 0 then .restoreDone else .restoreData)
  else if flags.testBit 0 then .mirrorDone else .mirrorData

/-- A transaction is a freewheel move of the kind. -/
def isMove (k : MoveKind) : Txn → Bool := fun t => t.code == 9 && t.flags.testBit 1 && decide (moveKind t.flags = k)

/-- CHANNEL of a move. -/
def Txn.chan (t : Txn) : Nat := t.arg 32 6
/-- BANK of a move. -/
def Txn.bank (t : Txn) : Nat := t.arg 40 1
/-- STEP16 of a move. -/
def Txn.step16 (t : Txn) : Nat := t.arg 48 16

/-- The three conditions of R382. -/
def Region.takesMove (g : Region) (p : PortId) (t : Txn) : Bool :=
  g.fw.conf && t.sdev == g.fw.tandem && g.fw.ports.getLsbD p.toNat && g.lpChans.contains t.chan

/-- A move is discarded: FW_DROP. -/
def fwDrop (r : RegionId) (s : State) : State :=
  s.modRegion r (fun g => { g with fw := { g.fw with drop := Word.satAdd g.fw.drop 1 } })

/-- A data move's LEN and place are as R382 gives them. -/
def Txn.dataOk (t : Txn) : Bool :=
  decide (64 ≤ t.len) && t.len % 64 == 0 && decide (t.arg 0 32 * 64 + t.len ≤ 0x60000000)

/-- The data of a move is written at OFF × 64 of a quarter. -/
def writeMove (t : Txn) (quarter : Nat) (s : State) : State :=
  { s with mem := s.mem.write (quarterBase t.chan quarter + t.arg 0 32 * 64) t.data }

/-- A reply move of channel `c` has landed: what is left of the restore. -/
def Restore.landed (q : Restore) (c n : Nat) (done : Bool) : Restore :=
  let left := Tab.get 0 q.left c - n
  let dones := if done then c :: q.done else q.done
  { q with
    silent := q.silent.filter (fun k => k ≠ c), left := q.left.put c left, done := dones,
    wait := if dones.contains c ∧ left = 0 then q.wait.filter (fun k => k ≠ c) else q.wait }

/-- A restore move lands for a restore that waits for its channel; steps 4 to 8 follow the last. -/
def restoreMove (r : RegionId) (t : Txn) (done : Bool) (s : State) : State :=
  match (s.region r).fw.restore with
  | none => fwDrop r s
  | some q =>
    if q.wait.contains t.chan = false ∨ t.bank ≠ (q.target.toNat + 1) % 2 ∨ (done = false ∧ t.dataOk = false) then fwDrop r s
    else
      let s := if done then s else writeMove t t.bank s
      let q := q.landed t.chan (if done then 0 else t.len) done
      let s := s.modRegion r (fun g => { g with fw := { g.fw with restore := some q } })
      if q.wait.isEmpty then restoreFinish r s else s

/-- A restore request is answered (R397). -/
def answerRequest (r : RegionId) (p : PortId) (t : Txn) (s : State) : State :=
  let f := (s.region r).fw
  let n := leAt t.data 0 4 * 64
  let args := fwArgs 0 t.chan t.bank t.step16
  if t.len ≠ 64 then fwDrop r s
  else
    let refuse := sendMove r p 0x3A args [] s
    if f.acked.find (2 * t.chan + t.bank) ≠ some t.step16 ∨ 0x60000000 < n then refuse
    else match sendRange r 0x0A t.chan (2 + t.bank) t.bank t.step16 n 0 s with
      | (some _, _) => refuse
      | (none, s) => sendMove r p 0x0B args [] s

/-- A mirror DONE lands (R385): once one has landed on every tandem port, the channel is acknowledged. -/
def mirrorDone (r : RegionId) (p : PortId) (t : Txn) (s : State) : State :=
  let f := (s.region r).fw
  let key := 65536 * (2 * t.chan + t.bank) + t.step16
  let heard := if f.heard.contains (key, p) then f.heard else (key, p) :: f.heard
  if f.portList.all (fun k => heard.contains (key, k)) then
    let s := s.modRegion r (fun g => { g with fw := { g.fw with
      heard := heard.filter (fun h => h.1 ≠ key), acked := g.fw.acked.put (2 * t.chan + t.bank) t.step16 } })
    sendMove r p 7 (fwArgs 0 t.chan t.bank t.step16) [] s
  else s.modRegion r (fun g => { g with fw := { g.fw with heard := heard } })

/-- An acknowledgement lands (R385). -/
def mirrorAck (r : RegionId) (t : Txn) (s : State) : State :=
  let f := (s.region r).fw
  if (f.st = .mirroring ∨ f.st = .remirroring) ∧ f.mirrorAcked = false ∧ f.wait.contains t.chan
      ∧ t.step16 = f.mirrorStep.toNat % 65536 then
    let s := s.modRegion r (fun g => { g with fw := { g.fw with wait := g.fw.wait.filter (fun c => c ≠ t.chan) } })
    if (s.region r).fw.wait.isEmpty then fwAcked r s else s
  else s

end Sys2Proof.Machine
end

