-- ==== Sys2Proof/Machine/Power.lean ====
section
/-!
DEFINITION. Sys2Proof/Machine/Power.lean: the clock step, the power manager, limit brakes, die-to-die limits, calibration and
the regulators (18_reset_clocks_power.md R454 to R463, R482; 19_pins_and_package.md R475).
-/
namespace Sys2Proof.Machine
open Sys2Proof

/-! ### Clock steps (18 R454 to R456) -/

/-- CLOCK_FLOOR of a region. -/
def Region.floor (g : Region) : Nat := match g.cfg with
  | some c => c.floor
  | none => 3

/-- The GRANTED regions. -/
def State.granted (s : State) : List (Nat × Region) := s.regions.filter (fun e => e.2.st == .granted)

/-- F: the least CLOCK_FLOOR code among granted regions, 3 if there are none (18 R454). -/
def State.floorF (s : State) : Nat := s.granted.foldl (fun m e => min m e.2.floor) 3

/-- L = min(CEIL, F) (18 R454). -/
def State.floorL (s : State) : Nat := min s.power.ceil.toNat s.floorF

/-- SET_CLOCK (18 R455; 12 R340). -/
def execSetClock (fn : Fn) (rg : RegionId) (tag : BitVec 16) (a : ArgBlock) (s : State) : Host.Outcome State Fault Refusal :=
  .next (mailCommand 0x1B .d [(0, 1), (8, 10)] noHref fn rg tag a (fun c s =>
    let step := argAt c.a 0 1
    let beat : BitVec 48 := BitVec.ofNat 48 (argAt c.a 8 6)
    let lap : BitVec 16 := BitVec.ofNat 16 (argAt c.a 16 2)
    if step > 3 ∨ argAt c.a 14 2 ≠ 0 then s.done c.f eBadarg
    else if s.power.pend.isSome then s.done c.f eBusy
    else match s.cad.eventCheck beat lap with
      | some e => s.done c.f e
      | none => ({ s with power := { s.power with pend := some (BitVec.ofNat 2 step, beat, lap) } }).done c.f eOk) s)

/-- CLOCK_CEIL_EVENT: the pending SET_CLOCK fires in the first beat at or after its own (12 R339; 18 R455). -/
def execClockCeilEvent (s : State) : Host.Outcome State Fault Refusal :=
  match s.power.pend with
  | some (k, beat, _) =>
    if 0 ≤ bdiff s.cad.beat beat then .next { s with power := { s.power with ceil := k, pend := none } } else .next s
  | none => .next s

/-! ### Calibration (18 R461, R462, R482) -/

/-- Setpoint of die `d` at step `k` under user offsets `u`, in mV (18 R482). -/
def setpoint (u : Cells 32) (d k : Nat) : Int := Int.ofNat (Config.factorySetpoint d k).toNat + (u.get d).toInt

/-- The setpoints sent to the VCORE regulators for step `k` (18 R482; 19 R475; log entry 107). -/
def State.setpointsAt (s : State) (k : Nat) : List (BitVec 12) :=
  (List.range 4).map (fun d => BitVec.ofNat 12 (setpoint s.power.user d k).toNat)

/-- The regulators are sent the setpoints of the step in force, or where a faster step is due in this window the higher ones of that
step (18 R456). -/
def setRegulators (s : State) : State :=
  let k := match s.power.change with
    | some c => min c.toNat s.power.cur.toNat
    | none => s.power.cur.toNat
  { s with power := { s.power with vset := s.setpointsAt k } }

/-- CLOCK_STEP_CHANGE: beat 128 of the window after the decision; for a slower step VCORE is lowered with it (18 R456). -/
def execClockStepChange (s : State) : Host.Outcome State Fault Refusal :=
  match s.power.change with
  | some k =>
    if s.power.skip = false ∧ s.power.window = 0 ∧ 128 ≤ s.cad.beat.toNat % 1024 then
      .next (setRegulators { s with power := { s.power with cur := k, change := none } })
    else .next s
  | none => .next s

/-- The setpoints of die `d` under offsets `u` break R462: outside 0.65 V to 0.85 V, or more than 50 mV from a neighbour. -/
def badSetpoint (u : Cells 32) (d : Nat) : Bool :=
  (List.range 4).any (fun k =>
    let v := setpoint u d k
    decide (v < 650) || decide (850 < v)
    || (decide (0 < d) && decide (50 < (v - setpoint u (d - 1) k).natAbs))
    || (decide (d < 3) && decide (50 < (v - setpoint u (d + 1) k).natAbs)))

/-- Limit of an INDEX's offset; none where SET_CAL has no such index (18 R461). -/
def calLimit (i : Nat) : Option Nat :=
  if i < 4 then some 25
  else if i = 4 then some 20
  else if 0x10 ≤ i ∧ i ≤ 0x14 then some 80
  else if 0x100 ≤ i ∧ i < 0x130 then some 10
  else none

/-- Some region is granting, granted or revoking (16 R403). -/
def State.anyGranted (s : State) : Bool :=
  s.regions.any (fun e => e.2.st == .granted || e.2.st == .granting || e.2.st == .revoking)

/-- The "Accepted" condition of an INDEX (18 R461). -/
def State.calAccepted (s : State) (i : Nat) : Bool :=
  if i = 4 then !s.anyGranted
  else if 0x100 ≤ i then
    let st := (s.port (BitVec.ofNat 4 ((i - 0x100) / 4))).st
    st == .down || st == .training
  else true

/-- SET_CAL (18 R461, R462). A VCORE offset applies at the next window. -/
def execSetCal (fn : Fn) (rg : RegionId) (tag : BitVec 16) (a : ArgBlock) (s : State) : Host.Outcome State Fault Refusal :=
  .next (mailCommand 0x1D .d [(0, 2), (4, 4)] noHref fn rg tag a (fun c s =>
    let i := argAt c.a 0 2
    let v : Word := BitVec.ofNat 32 (argAt c.a 4 4)
    match calLimit i with
    | none => s.done c.f eBadarg
    | some n =>
      if n < v.toInt.natAbs then s.done c.f eRange
      else if s.calAccepted i = false then s.done c.f eState
      else if i < 4 then
        let u := s.power.userNext.put i v
        if badSetpoint u i then s.done c.f eRange else ({ s with power := { s.power with userNext := u } }).done c.f eOk
      else ({ s with power := { s.power with user := s.power.user.put i v } }).done c.f eOk) s)

/-- SET_POWER_CAP: 1,200 W to 2,400 W, from the next window (18 R463). -/
def execSetPowerCap (fn : Fn) (rg : RegionId) (tag : BitVec 16) (a : ArgBlock) (s : State) : Host.Outcome State Fault Refusal :=
  .next (mailCommand 0x1C .d [(0, 2)] noHref fn rg tag a (fun c s =>
    let w := argAt c.a 0 2
    if w < 1200 ∨ 2400 < w then s.done c.f eRange
    else ({ s with power := { s.power with capNext := some (BitVec.ofNat 12 w) } }).done c.f eOk) s)

/-! ### The power window (18 R457, R458, R460) -/

/-- Temperatures of a sample with the user offsets (18 R457, R461). -/
def sampleTemps (p : PowerSample) (u : Cells 32) : List (BitVec 16) :=
  [p.q0, p.q1, p.q2, p.q3, p.hub].zipIdx.map (fun e => e.1 + (u.get (0x10 + e.2)).setWidth 16)

/-- The hottest, in 1/16 degrees C. -/
def hottest (ts : List (BitVec 16)) : Int := ts.foldl (fun m t => max m t.toInt) (-32768)

/-- The sample stands in the registers. -/
def takeSample (p : PowerSample) (s : State) : State :=
  { s with power := { s.power with
      now := p.watts, temps := sampleTemps p s.power.user, vcore := [p.v0, p.v1, p.v2, p.v3] } }

/-- Duties changed by `f` in the granted regions that `who` selects. -/
def modDuty (who : Region → Bool) (f : Nat → Nat) (s : State) : State :=
  { s with regions := Tab.mapVals (fun (_ : Nat) (g : Region) =>
      if g.st == .granted && who g then { g with brake := { g.brake with duty := f g.brake.duty } } else g) s.regions }

/-- Some granted region that `who` selects has a duty that `p` accepts. -/
def State.anyDuty (s : State) (who : Region → Bool) (p : Nat → Bool) : Bool :=
  s.granted.any (fun e => who e.2 && p e.2.brake.duty)

/-- The step is to become `k`, clamped to L and F (18 R456, R457). -/
def stepTo (k : Nat) (s : State) : State :=
  let k := max (min k s.floorF) s.floorL
  if k = s.power.cur.toNat then s else { s with power := { s.power with change := some (BitVec.ofNat 2 k) } }

/-- The decision of R457. -/
def powerDecide (s : State) : State :=
  let now := s.power.now.toNat
  let cap := s.power.cap.toNat
  let cur := s.power.cur.toNat
  let f := s.floorF
  let inB (g : Region) : Bool := g.floor == f
  let notB (g : Region) : Bool := !inB g
  if cap < now ∨ 1600 < hottest s.power.temps then
    if cur < f then stepTo (cur + 1) s
    else if s.anyDuty inB (fun d => decide (d < 15)) then stepTo cur (modDuty inB (fun d => min (d + 1) 15) s)
    else stepTo cur (modDuty notB (fun d => min (d + 1) 15) s)
  else if now + 50 < cap ∧ hottest s.power.temps < 1520 then
    if s.anyDuty notB (fun d => decide (0 < d)) then stepTo cur (modDuty notB (fun d => d - 1) s)
    else if s.anyDuty inB (fun d => decide (0 < d)) then stepTo cur (modDuty inB (fun d => d - 1) s)
    else if s.floorL < cur then stepTo (cur - 1) s
    else stepTo cur s
  else stepTo cur s

/-- One boundary of R460: SKEW_LIMIT when it goes over, its bits held until it clears. -/
def skewBoundary (s : State) (b : Nat) : State :=
  let v := (Int.ofNat (s.power.vcore.getD b 0).toNat - Int.ofNat (s.power.vcore.getD (b + 1) 0).toNat).natAbs
  let t := ((s.power.temps.getD b 0).toInt - (s.power.temps.getD (b + 1) 0).toInt).natAbs
  let was := s.power.skewVolt.getLsbD b || s.power.skewTemp.getLsbD b
  let bit : BitVec 3 := 1#3 <<< b
  if 75 < v ∨ 320 < t then
    let s := { s with power := { s.power with
      skewVolt := if 75 < v then s.power.skewVolt ||| bit else s.power.skewVolt,
      skewTemp := if 320 < t then s.power.skewTemp ||| bit else s.power.skewTemp } }
    if was then s else s.hubEvent 3
  else if v ≤ 60 ∧ t ≤ 256 then
    { s with power := { s.power with skewVolt := s.power.skewVolt &&& ~~~bit, skewTemp := s.power.skewTemp &&& ~~~bit } }
  else s

/-- A boundary over its limit lies between two dies of the region (18 R460). -/
def State.skewed (s : State) (g : Region) : Bool :=
  (List.range 3).any (fun b => (s.power.skewVolt.getLsbD b || s.power.skewTemp.getLsbD b) && s.onDie g b && s.onDie g (b + 1))

/-- What begins with a window: the cap and the VCORE offsets set in the last one (18 R461, R463), and the voltage of a faster step
(R456). -/
def windowSettings (s : State) : State :=
  setRegulators { s with power := { s.power with
      window := 0, skip := false, cap := s.power.capNext.getD s.power.cap, capNext := none,
      user := (List.range 4).foldl (fun (u : Cells 32) k => u.put k (s.power.userNext.get k)) s.power.user } }

/-- The brakes of the window that begins (18 R458, R460). -/
def windowBrakes (s : State) : State :=
  relimitAll { s with
    hub := { s.hub with overAge := min 1024 (s.hub.overAge + 1) },
    regions := Tab.mapVals (fun (_ : Nat) (g : Region) => { g with brake := { g.brake with
      overAge := min 1024 (g.brake.overAge + 1), wholeWindow := s.skewed g,
      dutyOn := decide (s.cad.beat.toNat % 1024 < 64 * g.brake.duty) } }) s.regions }

/-- OVER_LIMIT for every granted region that is braked in the window (18 R458, R460; 19 R475). -/
def windowEvents (s : State) : State :=
  s.granted.foldl (fun s e =>
    if e.2.brake.duty ≠ 0 ∨ e.2.brake.wholeWindow = true ∨ s.vrHits e.2 = true then overLimit (BitVec.ofNat 6 e.1) s else s) s

/-- POWER_WINDOW: the end of one window and the start of the next. A window that a load of the beat counters cut short brings no
sample and no decision (18 R457). -/
def execPowerWindow (sample : PowerSample) (s : State) : Host.Outcome State Fault Refusal :=
  if s.power.window = 0 then .next s
  else if s.power.skip then .next (windowEvents (windowBrakes (windowSettings s)))
  else
    let s := powerDecide (takeSample sample s)
    .next (windowEvents (windowBrakes (windowSettings ((List.range 3).foldl skewBoundary s))))

/-- LIMIT_BRAKE_END: beat 64n of the window (18 R458). -/
def execLimitBrakeEnd (r : RegionId) (s : State) : Host.Outcome State Fault Refusal :=
  let b := (s.region r).brake
  if b.dutyOn ∧ 64 * b.duty ≤ s.cad.beat.toNat % 1024 then
    .next (relimit r (s.modRegion r (fun g => { g with brake := { g.brake with dutyOn := false } })))
  else .next s

/-! ### Regulators (19 R475) -/

/-- OVER_LIMIT for every granted region that `p` selects. -/
def limitRegions (p : Region → Bool) (s : State) : State :=
  s.granted.foldl (fun s e => if p e.2 then overLimit (BitVec.ofNat 6 e.1) s else s) s

/-- VR_FAULT: regulators 0 to 3 feed a die each, 4 every die. The die's halt is the brake of its regions (log entry 34). -/
def execVrFault (reg : BitVec 3) (s : State) : Host.Outcome State Fault Refusal :=
  if 4 < reg.toNat ∨ s.power.vrBad.getLsbD reg.toNat then .next s
  else
    let s := { s with power := { s.power with vrBad := s.power.vrBad ||| (1#5 <<< reg.toNat) } }
    .next (limitRegions (fun g => reg == 4 || s.onDie g reg.toNat) (relimitAll s))

/-- VR_FAULT_CLEAR: the regulator answers without fault. -/
def execVrFaultClear (reg : BitVec 3) (s : State) : Host.Outcome State Fault Refusal :=
  .next (relimitAll { s with power := { s.power with vrBad := s.power.vrBad &&& ~~~(1#5 <<< reg.toNat) } })

/-- VR_ALERT: VR_ALERT_N goes low. -/
def execVrAlert (s : State) : Host.Outcome State Fault Refusal :=
  if s.power.vrAlert then .next s
  else .next (limitRegions (fun _ => true) (relimitAll { s with power := { s.power with vrAlert := true } }))

/-- VR_ALERT_RELEASE: VR_ALERT_N returns high. -/
def execVrAlertRelease (s : State) : Host.Outcome State Fault Refusal :=
  .next (relimitAll { s with power := { s.power with vrAlert := false } })

end Sys2Proof.Machine
end

