-- ==== Sys2Proof/Machine/Region.lean ====
section
/-!
DEFINITION. Sys2Proof/Machine/Region.lean: halts, grant, revoke, root tables, program images and load descriptors
(16_regions_and_tenancy.md R402 to R414; 11_memory_tiers.md R295; 17_host_interface.md R428).
-/
namespace Sys2Proof.Machine
open Sys2Proof

/-- HALT_ENGAGE: 24 wall cycles after the halt's first fault everything of R96 freezes and stays frozen (03 R105); the freewheel
abandons its mirror (15 R388). -/
def execHaltEngage (r : RegionId) (s : State) : Host.Outcome State Fault Refusal :=
  let g := s.region r
  match g.brake.haltAt with
  | some w =>
    if w + 24 ≤ s.wall ∧ g.brake.halted = false then
      .next (fwAbandon r false (s.setRegion r { g with brake := { g.brake with haltFrozen := true, halted := true } }))
    else .next s
  | none => .next s

/-! ### Function-level reset (17 R422) -/

/-- The command that function `f` has in progress completes with E_STATE, and what it has not yet done is not done (17 R422, R424; log
entry 102). -/
def cancelCommand (f : Nat) (s : State) : State :=
  let m := s.mail f
  let r := m.curRegion
  if m.busy = false then s
  else
    let s := match m.curOp.toNat with
      | 0x01 => { s with frame := { s.frame with loading := none } }
      | 0x02 => { s with frame := { s.frame with loading := none } }
      | 0x08 => s.modRegion r (fun g => if g.st = RState.granting then { g with st := RState.configured, by_ := none } else g)
      | 0x10 => s.modRegion r (fun g => { g with loading := none })
      | 0x16 => drlEnd r eState s
      | 0x19 => fwFinish r eState s
      | 0x1A => fwFinish r eState s
      | _ => s
    s.done f eState

/-- A function-level reset. -/
def flr (fn : Fn) (s : State) : State := functionReset fn (cancelCommand (fnNo fn) s)

/-- FLR. One that arrives during a fuse pulse is held until the pulse has ended, as any reset is (18 R446). -/
def execFlr (fn : Fn) (s : State) : Host.Outcome State Fault Refusal :=
  .next (if s.fuses.pulse.isSome || s.fuses.revokePulse.isSome then
      { s with resets := { s.resets with heldFlr := s.resets.heldFlr ++ [fn] } }
    else flr fn s)

/-! ### What grant, revoke and a warm reset clear (16 R404 steps 2 to 5) -/

/-- Everything waiting or received on the region's lane of a port is gone (16 R404 step 5; 09 R249). -/
def flushLane (r : RegionId) (p : PortId) (s : State) : State :=
  let s := emptyInbound r p s
  match (s.region r).lane p with
  | none => s
  | some v =>
    let l := (s.port p).lane v
    if l.out.isEmpty && l.rxq.isEmpty then s
    else s.modLane p v (fun l => { l with
      out := [], rxq := [], freed := l.freed + BitVec.ofNat 16 (l.rxq.foldl (fun n t => n + t.units) 0) })

/-- Tiles, sync objects and gates of the region (16 R404 steps 2, 3 and 5; 02 R81; 10 R268). -/
def clearUnits (r : RegionId) (s : State) : State :=
  let g := s.region r
  let mine (k : Nat) : Bool := match g.cfg with
    | some c => c.has (BitVec.ofNat 13 k)
    | none => false
  let s := allPorts.foldl (fun s p => flushLane r p s) s
  let s := { s with tiles := s.tiles.drop mine, undo := s.undo.drop mine, objs := s.objs.drop g.ownsObj }
  s.modRegion r (fun g => { g with gateOut := [], inRows := [] })

/-- Every page of the region's channels is marked (16 R404 step 4; 11 R306). -/
def markMemory (r : RegionId) (s : State) : State := match (s.region r).cfg with
  | some c => { s with mem := s.mem.markChannels c.ownsChan }
  | none => s

/-- On every UP port the credits of the region's lane are whole (12 R328). -/
def State.creditsWhole (s : State) (r : RegionId) : Bool :=
  allPorts.all (fun p => match (s.region r).lane p with
    | some v =>
      let l := (s.port p).lane v
      (s.port p).st != .up || (l.part.isEmpty && decide (l.sent ≤ l.peerFreed))
    | none => true)

/-! ### Grant (16 R404) -/

/-- The rectangle includes a parked column (01 R21). -/
def State.hasParked (s : State) (c : RegionCfg) : Bool :=
  s.fuses.parked.any (fun k => decide (c.col0 ≤ k) && decide (k < c.col0 + c.ncols))

/-- REGION_GRANT: the checks of R404 in order; the region then is GRANTING. -/
def execRegionGrant (fn : Fn) (rg : RegionId) (tag : BitVec 16) (a : ArgBlock) (s : State) : Host.Outcome State Fault Refusal :=
  .next (mailCommand 0x08 .p [] noHref fn rg tag a (fun c s =>
    let g := s.region c.r
    if s.frame.loading.isSome || s.fuses.pulse.isSome then s.done c.f eBusy
    else match g.st, g.cfg with
      | .configured, some q =>
        if s.hasParked q then s.done c.f eNores else s.setRegion c.r { g with st := .granting, by_ := some c.fn }
      | _, _ => s.done c.f eState) s)

/-- A region as grant leaves it: the registers of its window at their reset values but for MEM_ROOT (11 R310), its epoch and its
digest (01 R38, R39). -/
def Region.granted (g : Region) : Region :=
  { Region.reset with
    cfg := g.cfg, st := .granted, by_ := g.by_, epoch := g.epoch, digest := g.digest, mem := { MemRegs.reset with root := g.mem.root } }

/-- The latched halves without those of region `r`. -/
def Latches.forget (l : Latches) (r : RegionId) : Latches :=
  let gone (k : Nat) : Bool := k == r.toNat
  { l with updHi := l.updHi.drop gone, commitHi := l.commitHi.drop gone, commitBeat := l.commitBeat.drop gone,
           expHi := l.expHi.drop gone }

/-- The mailbox of the region's function and the latched halves at their reset values, in the region's own window and in the copies
that the provider's readers see (13 R367; 15 R401; 17 R438, R441). -/
def resetWindow (r : RegionId) (s : State) : State :=
  let f := 1 + r.toNat
  { s with hub := { s.hub with
      mail := s.hub.mail.put f Mailbox.reset,
      latches := Tab.mapVals (fun (_ : Nat) (l : Latches) => l.forget r) (s.hub.latches.put f Latches.reset) } }

/-- GRANT_COMPLETE: steps 1 to 7 of R404. It waits for quarantined units (01 R43) and whole credits. -/
def execGrantComplete (r : RegionId) (s : State) : Host.Outcome State Fault Refusal :=
  if (s.region r).st ≠ .granting ∨ s.unitsWait r = true ∨ s.creditsWhole r = false then .next s
  else
    let s := markMemory r (clearUnits r s)
    let s := s.modRegion r Region.granted
    let s := resetWindow r (flr (.vf r) (s.parityClean (fun h => h.region == some r && h.loc.toNat / 2 ^ 24 != 2)))
    .next ((relimit r (recordUnits r s)).doneAll (s.inFlightOf 0x08 r) eOk)

/-! ### Revoke (16 R406, R407) -/

/-- A code-9 move, of the derailleur or of the freewheel, that still waits to be sent. -/
def isAnyMove (q : TxnKind × Txn) : Bool := q.2.code == 9

/-- The commands about a region that a revoke ends: SYNC_SET, LOAD_PROGRAM, DRL_RUN, ROLLBACK and ADOPT (R407; log entry 102). Those of
the region's own function are ended whatever they are (R406 step 1). -/
def revokedOps : List Nat := [0x0E, 0x10, 0x16, 0x19, 0x1A]

/-- What a revoke ends at once: commands, units, moves and an export; the function's handles are freed (17 R431). -/
def stopRegion (r : RegionId) (s : State) : State :=
  let s := fwFinish r eState (drlEnd r eState (endExport r (fwAbandon r true (haltNow r s))))
  let s := s.modRegion r (fun g => { g with
    loading := none, upd := { g.upd with armed := false, phase := .idle, startMet := false, disarm := false, seen := none } })
  let s := revokedOps.foldl (fun s op => s.doneAll (s.inFlightOf op r) eState) (dropMoves r isAnyMove s)
  (s.done (1 + r.toNat) eState).freeHandles (1 + r.toNat)

/-- REGION_REVOKE: its checks, then steps 1 and 2 of R406. -/
def execRegionRevoke (fn : Fn) (rg : RegionId) (tag : BitVec 16) (a : ArgBlock) (s : State) : Host.Outcome State Fault Refusal :=
  .next (mailCommand 0x09 .p [] noHref fn rg tag a (fun c s =>
    let g := s.region c.r
    if s.frame.loading.isSome ∨ g.st = .granting then s.done c.f eBusy
    else if g.st ≠ .granted then s.done c.f eState
    else stopRegion c.r (s.setRegion c.r { g with st := .revoking })) s)

/-- A region as revoke leaves it: its section, its registers and MEM_ROOT are kept, everything it ran is gone, its epoch goes on
(16 R406, R414; 11 R295; 18 R457). -/
def Region.revoked (g : Region) : Region :=
  { Region.reset with
    cfg := g.cfg, st := .configured, epoch := g.epoch + 1, digest := g.digest, evtVf := g.evtVf, evtPf := g.evtPf, fwVf := g.fwVf,
    fwPf := g.fwPf, faults := g.faults, mem := { g.mem with tlb := [] }, upd := g.upd, drl := g.drl,
    fw := { g.fw with st := if g.fw.conf then .idle else .unconfigured }, exp := g.exp, vselVf := g.vselVf, vselPf := g.vselPf,
    brake := { Brake.reset with
      limit := g.brake.limit, count := g.brake.count, beats := g.brake.beats, overAge := g.brake.overAge } }

/-- REVOKE_COMPLETE: steps 3 to 5 of R406. -/
def execRevokeComplete (r : RegionId) (s : State) : Host.Outcome State Fault Refusal :=
  if (s.region r).st ≠ .revoking ∨ s.creditsWhole r = false then .next s
  else
    let s := (markMemory r (clearUnits r s)).modRegion r Region.revoked
    .next (s.doneAll (s.inFlightOf 0x09 r) eOk)

/-! ### Root tables (11 R295) -/

/-- MMU_ROOT. -/
def execMmuRoot (fn : Fn) (rg : RegionId) (tag : BitVec 16) (a : ArgBlock) (s : State) : Host.Outcome State Fault Refusal :=
  .next (mailCommand 0x0A .p [(0, 8)] noHref fn rg tag a (fun c s =>
    let g := s.region c.r
    let root := argAt c.a 0 8
    match g.st, g.cfg with
    | .configured, some q =>
      if root % 1024 ≠ 0 ∨ q.inPool root = false then s.done c.f eRange
      else ((s.setRegion c.r { g with mem := { g.mem with root := BitVec.ofNat 40 root, tlb := [] } }).regionClean c.r 3 0x0A).done c.f eOk
    | _, _ => s.done c.f eState) s)

/-- MMU_INVAL: no walk is under way between two commands of this model, so it completes at once. -/
def execMmuInval (fn : Fn) (rg : RegionId) (tag : BitVec 16) (a : ArgBlock) (s : State) : Host.Outcome State Fault Refusal :=
  .next (mailCommand 0x0B .p [] noHref fn rg tag a (fun c s =>
    (s.modRegion c.r (fun g => { g with mem := { g.mem with tlb := [] } })).done c.f eOk) s)

/-! ### Program images (16 R409 to R414) -/

/-- Code sections of an image, as 16-byte entries. -/
def progSections (img : List Byte) : List (List Byte) :=
  (List.range (leAt img 0x0C 2)).map (fun k => (img.drop (leAt img 0x18 4 + 16 * k)).take 16)

/-- One section obeys R410. -/
def sectionOk (c : RegionCfg) (len : Nat) (e : List Byte) : Bool :=
  let nc := leAt e 1 1
  let nr := leAt e 3 1
  let nb := leAt e 5 1
  let src := leAt e 8 4
  decide (1 ≤ nc) && decide (leAt e 0 1 + nc ≤ c.ncols) && decide (1 ≤ nr) && decide (leAt e 2 1 + nr ≤ c.nrows)
  && decide (1 ≤ nb) && decide (leAt e 4 1 + nb ≤ 64) && leAt e 6 2 == 0 && src % 512 == 0 && decide (src + 512 * nb ≤ len)
  && leAt e 12 4 == 0

/-- Orders 6 to 8 of R411 over a whole image. -/
def progCheck (c : RegionCfg) (img : List Byte) : Option Nat :=
  let len := img.length
  let rank := leAt img 0x14 4
  let sec := leAt img 0x18 4
  let nsec := leAt img 0x0C 2
  if leAt img 0 4 ≠ 0x50535946 ∨ leAt img 4 2 ≠ 1 ∨ leAt img 6 2 ≠ 0 ∨ leAt img 0x0E 1 ≠ c.ncols ∨ leAt img 0x0F 1 ≠ c.nrows
      ∨ leAt img 0x1C 36 ≠ 0 then some eBadarg
  else if leAt img 0x10 4 ≠ c.tag.toNat then some eDigest
  else if nsec = 0 ∨ 4096 < nsec ∨ rank % 16 ≠ 0 ∨ sec % 16 ≠ 0 ∨ len < rank + 2 * (c.ncols * c.nrows) ∨ len < sec + 16 * nsec
      ∨ (progSections img).all (sectionOk c len) = false then some eBadarg
  else none

/-- Every tile of the region is in entry hold or has ended, or the region is halted (16 R411 order 3). -/
def State.loadIdle (s : State) (r : RegionId) : Bool :=
  let g := s.region r
  g.brake.halted || g.tiles.all (fun t => match (s.tile t).ctl.run with
    | .entryHold => true
    | .ended => true
    | _ => false)

/-- LOAD_PROGRAM (16 R411): the whole image is read, and its header and tables are copied and checked, before any tile changes. -/
def execLoadProgram (fn : Fn) (rg : RegionId) (tag : BitVec 16) (a : ArgBlock) (s : State) : Host.Outcome State Fault Refusal :=
  .next (mailCommand 0x10 .r [(0, 12)] noHref fn rg tag a (fun c s =>
    let g := s.region c.r
    let va := argAt c.a 0 8
    let len := argAt c.a 8 4
    if g.loading.isSome || g.fw.restore.isSome then s.done c.f eBusy
    else if s.loadIdle c.r = false then s.done c.f eNotidle
    else if va % 512 ≠ 0 ∨ 2 ^ 48 ≤ va ∨ len % 16 ≠ 0 ∨ len < 64 ∨ 0x10000000 < len then s.done c.f eRange
    else match s.readVa c.r va 64 with
      | (.error e, s) => (engineFault c.r e s).done c.f eBadarg
      | (.ok h, s) =>
        if leAt h 8 4 ≠ len then s.done c.f eRange
        else match s.readVa c.r va len, g.cfg with
          | (.error e, s), _ => (engineFault c.r e s).done c.f eBadarg
          | (.ok _, s), none => s.done c.f eState
          | (.ok img, s), some q => match progCheck q img with
            | some e => s.done c.f e
            | none => s.modRegion c.r (fun g => { g with
                loading := some { fn := c.fn, va := va, image := img, halted := g.brake.halted } })) s)

/-- The tile's program memory from the sections that cover it, in table order; `col` and `row` are relative (16 R410). -/
def progTile (img : List Byte) (col row : Nat) (x : Tile) : Tile :=
  (progSections img).foldl (fun x e =>
    let c0 := leAt e 0 1
    let r0 := leAt e 2 1
    if c0 ≤ col ∧ col < c0 + leAt e 1 1 ∧ r0 ≤ row ∧ row < r0 + leAt e 3 1 then
      (List.range (leAt e 5 1)).foldl (fun x b =>
        x.writeBlock (leAt e 4 1 + b) (BitVec.ofNat 4096 (leAt img (leAt e 8 4 + 512 * b) 512))) x
    else x) { x with pm := [], pmUpsets := [] }

/-- `new` with `n` bytes from `lo` on as in `old`. -/
def keepBytes (old : List Byte) (lo n : Nat) (new : List Byte) : List Byte :=
  new.take lo ++ (old.drop lo).take n ++ new.drop (lo + n)

/-- The image as read: its header, rank table and section table as they were copied and checked, its code as it stands now (R411,
R414). -/
def ProgLoad.asRead (q : ProgLoad) (c : RegionCfg) (now : List Byte) : List Byte :=
  let img := q.image
  keepBytes img (leAt img 0x18 4) (16 * leAt img 0x0C 2)
    (keepBytes img (leAt img 0x14 4) (2 * (c.ncols * c.nrows)) (keepBytes img 0 64 now))

/-- A halt that a load found ends (R413): a run that it cut short has failed, and a step that it cut short runs again, with the
gradients that stand now. -/
def resumeHalted (r : RegionId) (s : State) : State :=
  let s := drlEnd r eTimeout s
  endHalt r (s.modRegion r (fun g => { g with
    upd := if g.upd.phase = .cut then { g.upd with phase := .waitStart, startMet := true, seen := some s.mem } else g.upd }))

/-- A load that passed its checks is applied: R83 for every tile, the ranks and the code; PROG_DIGEST covers the image as read (R412 to
R414). -/
def applyProgram (r : RegionId) (c : RegionCfg) (img : List Byte) (s : State) : State :=
  let s := (restartRegion r false s).mapTiles r (fun t x => progTile img (colOf t - c.col0) (rowOf t - c.row0) x)
  s.modRegion r (fun g => { g with
    loading := none, prog := true, progDigest := BitVec.ofNat 384 (leNat (sha384 img)),
    ranks := (List.range (c.ncols * c.nrows)).map (fun k => BitVec.ofNat 16 (leAt img (leAt img 0x14 4 + 2 * k) 2)) })

/-- PROGRAM_LOAD_COMPLETE: the code is read and the load is applied, in one step (log entry 71). -/
def execProgramLoadComplete (r : RegionId) (s : State) : Host.Outcome State Fault Refusal :=
  match (s.region r).loading, (s.region r).cfg with
  | some q, some c => match s.readVa r q.va q.image.length with
    | (.error e, s) =>
      .next (((engineFault r e s).modRegion r (fun g => { g with loading := none })).finish (fnNo q.fn) 0x10 eBadarg)
    | (.ok now, s) =>
      let s := applyProgram r c (q.asRead c now) s
      .next ((if q.halted then resumeHalted r s else s).finish (fnNo q.fn) 0x10 eOk)
  | _, _ => .next s

/-! ### Load descriptors (17 R428) -/

/-- The descriptor an argument block spells. -/
def descOf (a : ArgBlock) : LoadDesc :=
  { src := BitVec.ofNat 48 (argAt a 0 8), col := argAt a 8 1, nc := argAt a 9 1, row := argAt a 10 1, nr := argAt a 11 1,
    block0 := argAt a 12 1, nblk := argAt a 13 1, obj := BitVec.ofNat 16 (argAt a 14 2), start := Word.bit a 136 }

/-- The argument checks in the order of the table: the code of the first that fails. A SRC_VA beyond the 48-bit space is out of range
(log entry 35). -/
def descCheck (g : Region) (q : RegionCfg) (a : ArgBlock) : Option Nat :=
  let d := descOf a
  if argAt a 0 8 % 512 ≠ 0 ∨ 2 ^ 48 ≤ argAt a 0 8 then some eRange
  else if d.nc = 0 ∨ d.nr = 0 ∨ q.ncols < d.col + d.nc ∨ q.nrows < d.row + d.nr then some eRange
  else if 64 < d.block0 + d.nblk ∨ (d.nblk = 0 ∧ d.start = false) then some eRange
  else if d.nblk ≠ 0 ∧ g.ownsObj d.obj.toNat = false then some eOwner
  else if 63 < argAt a 16 1 then some eRange
  else if 4 ≤ argAt a 17 1 then some eBadarg
  else if (g.running.find (argAt a 16 1)).isSome then some eBusy
  else none

/-- LOAD_DESC: the slot is written, and started with GO. -/
def execLoadDesc (fn : Fn) (rg : RegionId) (tag : BitVec 16) (a : ArgBlock) (s : State) : Host.Outcome State Fault Refusal :=
  .next (mailCommand 0x11 .r [(0, 18)] noHref fn rg tag a (fun c s =>
    let g := s.region c.r
    match g.cfg with
    | none => s.done c.f eState
    | some q => match descCheck g q c.a with
      | some e => s.done c.f e
      | none =>
        let slot := argAt c.a 16 1
        let s := s.setRegion c.r { g with descs := g.descs.put slot (descOf c.a) }
        (if Word.bit c.a 137 then startDesc c.r slot s else s).done c.f eOk) s)

end Sys2Proof.Machine
end

