-- ==== Sys2Proof/Machine/Frame.lean ====
section
/-!
DEFINITION. Sys2Proof/Machine/Frame.lean: the frame loader (01_fabric_and_frame.md R26 to R39), the fuse commands (R18 to R23, R31,
R32), the identity (12_links_and_cadence.md R324) and LINK_RETRAIN (R320).
-/
namespace Sys2Proof.Machine
open Sys2Proof

/-! ### Fields of a frame image (01 R26, R27) -/

/-- A section table entry: TYPE, REGION, OFFSET, LENGTH, and whether its must-be-zero bytes are zero. -/
structure FrameEntry where
  type : Nat
  region : Nat
  off : Nat
  len : Nat
  zeros : Bool
deriving DecidableEq, Repr

/-- Entry `k`. -/
def entryAt (img : List Byte) (k : Nat) : FrameEntry :=
  let o := 0x40 + 16 * k
  { type := leAt img o 1, region := leAt img (o + 1) 1, off := leAt img (o + 4) 4, len := leAt img (o + 8) 4,
    zeros := leAt img (o + 2) 2 == 0 && leAt img (o + 12) 4 == 0 }

/-- Number of sections. -/
def frameCount (img : List Byte) : Nat := leAt img 0x0C 2

/-- Every entry that lies within `len` bytes. -/
def frameEntries (img : List Byte) (len : Nat) : List FrameEntry :=
  ((List.range (frameCount img)).filter (fun k => decide (0x40 + 16 * (k + 1) ≤ len))).map (entryAt img)

/-- The bytes of a section. -/
def FrameEntry.bytes (e : FrameEntry) (img : List Byte) : List Byte := (img.drop e.off).take e.len

/-- The REGION section and the tile map of the bytes (01 R29, R30). -/
def parseRegion (b m : List Byte) : RegionCfg :=
  { col0 := leAt b 1 1, ncols := leAt b 2 1, row0 := leAt b 3 1, nrows := leAt b 4 1, floor := leAt b 5 1,
    debug := (leAt b 6 2).testBit 0, tag := BitVec.ofNat 32 (leAt b 8 4), sync := BitVec.ofNat 256 (leAt b 0x10 32),
    hbm := BitVec.ofNat 256 (leAt b 0x30 32), lpddr := BitVec.ofNat 64 (leAt b 0x50 8), poolBase := leAt b 0x58 8,
    poolSize := leAt b 0x60 8, vlane := (b.drop 0x68).take 12,
    tileMap := m.flatMap (fun x => [x.extractLsb' 0 4, x.extractLsb' 4 4]), raw := b ++ m }

/-! ### Orders 5 to 8 of R33: the header and the signature -/

/-- The must-be-zero fields of the header (01 R33 order 6). -/
def headerZeros (whole : Bool) (img : List Byte) : Bool :=
  leAt img 6 2 / 2 == 0 && leAt img 0x12 2 == 0 && leAt img 0x2B 21 == 0
  && (if whole then leAt img 0x20 8 == 0 else leAt img 0x14 4 == 0)

/-- MAGIC, VERSION, WHOLE and the must-be-zero fields. -/
def headerOk (whole : Bool) (img : List Byte) : Bool :=
  leAt img 0 4 == 0x46535946 && leAt img 4 2 == 1 && ((leAt img 6 2).testBit 0 == whole) && headerZeros whole img

/-- GRADES, COLUMNS and DIE_SPLIT of the header fit the part (01 R26, R33 order 7). -/
def gradeOk (s : State) (img : List Byte) : Bool :=
  (leAt img 0x0E 1).testBit Config.grade.val && decide (leAt img 0x0E 1 < 8) && leAt img 0x10 2 == s.columns
  && leAt img 0x28 1 == s.dieStart 1 && leAt img 0x29 1 == s.dieStart 2 && leAt img 0x2A 1 == s.dieStart 3

/-- A REGION section whose rectangle exceeds SIZE_COLUMNS. -/
def rectTooWide (s : State) (img : List Byte) : Bool :=
  (frameEntries img img.length).any (fun e => e.type == 2 && decide (e.off + 5 ≤ img.length)
    && decide (s.columns < leAt img (e.off + 1) 1 + leAt img (e.off + 2) 1))

/-- The key slot and the signature (01 R31). -/
def keyOk (s : State) (img : List Byte) : Bool :=
  let k := leAt img 0x0F 1
  decide (k < 4) && !s.fuses.revoked.getLsbD k && signedBy img (Config.keyHash k)

/-- The region a region frame is for (01 R33): the first REGION or TILE_MAP entry within both lengths, if it is one of 64. -/
def frameRegion (img : List Byte) (len : Nat) : Option RegionId :=
  match (frameEntries img (min len (leAt img 8 4))).find? (fun e => e.type == 2 || e.type == 3) with
  | some e => if e.region < 64 then some (BitVec.ofNat 6 e.region) else none
  | none => none

/-! ### Order 10 of R33: the layout -/

/-- An entry is well formed and lies between the table and the signature block. -/
def entryOk (img : List Byte) (e : FrameEntry) : Bool :=
  e.zeros && decide (1 ≤ e.type) && decide (e.type ≤ 3) && (if e.type = 1 then e.region == 0 else decide (e.region < 64))
  && e.off % 16 == 0 && decide (0x40 + 16 * frameCount img ≤ e.off) && decide (e.off + e.len + 192 ≤ img.length)
  && (if e.type = 3 then true else e.len == 128)

/-- Two sections do not overlap. -/
def disjointEntries (a b : FrameEntry) : Bool := decide (a.off + a.len ≤ b.off) || decide (b.off + b.len ≤ a.off)

/-- `p` holds of every two elements of a list at different places. -/
def pairwiseAll {α : Type} (p : α → α → Bool) : List α → Bool
  | [] => true
  | x :: r => r.all (p x) && pairwiseAll p r

/-- The section entries of a type. -/
def ofType (es : List FrameEntry) (k : Nat) : List FrameEntry := es.filter (fun e => e.type == k)

/-- Every region configured has one REGION and one TILE_MAP section (01 R27). -/
def pairedRegions (es : List FrameEntry) : Bool :=
  let a := (ofType es 2).map (·.region)
  let b := (ofType es 3).map (·.region)
  a.all b.contains && b.all a.contains && pairwiseAll (fun x y => x != y) a && pairwiseAll (fun x y => x != y) b

/-- The section table (01 R26, R27). -/
def tableOk (whole : Bool) (img : List Byte) : Bool :=
  let n := frameCount img
  let es := frameEntries img img.length
  decide (1 ≤ n) && decide (n ≤ 129) && decide (0x40 + 16 * n + 192 ≤ img.length) && es.length == n && es.all (entryOk img)
  && pairwiseAll disjointEntries es && pairedRegions es
  && (if whole then (ofType es 1).length == 1 else (ofType es 1).length == 0 && (ofType es 2).length == 1)

/-- A DEVICE section (01 R28). -/
def deviceOk (b : List Byte) : Bool :=
  let ports := leAt b 0 2
  let src := leAt b 2 1
  let port := leAt b 3 1
  decide (ports < 4096) && decide (src ≤ 2) && decide (port < 12)
  && (if src = 1 then ports.testBit port else port == 0)
  && (List.range 12).all (fun p => decide (((List.range 8).foldl (fun n v => n + leAt b (4 + 8 * p + v) 1) 0) ≤ 64))
  && leAt b 0x64 28 == 0

/-- Bytes of HBM. -/
def hbmSize : Nat := 256 * 0x60000000

/-- The channel lies over part of the pool of the section. -/
def RegionCfg.poolMeets (c : RegionCfg) (k : Nat) : Bool :=
  decide (c.poolBase < (k + 1) * 0x60000000) && decide (k * 0x60000000 < c.poolBase + c.poolSize)

/-- A REGION section (01 R29; 11 R294); the bytes are 128. -/
def regionOk (n : Nat) (b : List Byte) (c : RegionCfg) : Bool :=
  leAt b 0 1 == n && c.col0 % 2 == 0 && c.ncols % 2 == 0 && decide (2 ≤ c.ncols) && c.row0 % 8 == 0 && decide (c.row0 ≤ 40)
  && c.nrows % 8 == 0 && decide (8 ≤ c.nrows) && decide (c.row0 + c.nrows ≤ 48) && decide (c.floor ≤ 3)
  && decide (leAt b 6 2 < 2) && leAt b 0x0C 4 == 0 && c.poolBase % 0x200000 == 0 && c.poolSize % 0x200000 == 0
  && decide (0x200000 ≤ c.poolSize) && decide (c.poolBase + c.poolSize ≤ hbmSize)
  && !(decide (c.poolBase < 0x0C00000000) && decide (frameStoreBase < c.poolBase + c.poolSize))
  && (List.range 256).all (fun k => !(c.hbm.getLsbD k && c.poolMeets k))
  && c.vlane.all (fun x => Word.bits x 3 4 == 0) && leAt b 0x74 12 == 0

/-- A TILE_MAP section (01 R30). -/
def mapOk (c : RegionCfg) (m : List Byte) : Bool :=
  m.length == c.ncols * c.nrows / 2 && m.all (fun x => !x.getLsbD 3 && !x.getLsbD 7)

/-- The regions an image configures, with their sections. -/
def imageRegions (img : List Byte) : List (Nat × RegionCfg) :=
  let es := frameEntries img img.length
  (ofType es 2).filterMap (fun e => ((ofType es 3).find? (fun m => m.region == e.region)).map (fun m =>
    (e.region, parseRegion (e.bytes img) (m.bytes img))))

/-- Every section obeys its rules (01 R28 to R30). -/
def sectionsOk (img : List Byte) : Bool :=
  let es := frameEntries img img.length
  (ofType es 1).all (fun e => deviceOk (e.bytes img))
  && (ofType es 2).all (fun e => (ofType es 3).all (fun m => m.region != e.region ||
      (let c := parseRegion (e.bytes img) (m.bytes img)
       regionOk e.region (e.bytes img) c && mapOk c (m.bytes img))))

/-! ### Order 11 of R33: overlaps -/

/-- Two sections share no tile, block, channel or lane, and neither owns a channel with the other's pool. -/
def apart (a b : RegionCfg) : Bool :=
  (decide (a.col0 + a.ncols ≤ b.col0) || decide (b.col0 + b.ncols ≤ a.col0) || decide (a.row0 + a.nrows ≤ b.row0)
    || decide (b.row0 + b.nrows ≤ a.row0))
  && a.sync &&& b.sync == 0 && a.hbm &&& b.hbm == 0 && a.lpddr &&& b.lpddr == 0
  && (List.range 12).all (fun p =>
    let x := a.vlane.getD p 0
    let y := b.vlane.getD p 0
    !(x.getLsbD 7 && y.getLsbD 7 && x.toNat % 8 == y.toNat % 8))
  && (List.range 256).all (fun k => !(a.hbm.getLsbD k && b.poolMeets k) && !(b.hbm.getLsbD k && a.poolMeets k))

/-- No conflict within the image, with the other loaded sections (for a region frame), or with a parked column. -/
def noConflict (s : State) (whole : Bool) (img : List Byte) : Bool :=
  let rs := imageRegions img
  pairwiseAll (fun x y => apart x.2 y.2) rs && rs.all (fun x => !s.hasParked x.2)
  && (whole || rs.all (fun x => s.regions.all (fun e => e.1 == x.1 || (match e.2.cfg with
      | some c => apart x.2 c
      | none => true))))

/-- The orders of R33 that the header and the section table decide, 3 and 5 to 7: the code of the first that fails. `len` is the length
the command named. -/
def headerCheck (s : State) (whole : Bool) (len : Nat) (img : List Byte) : Option Nat :=
  let busy : Bool := !whole && (match frameRegion img len with
    | some r => (s.region r).st == .granted || (s.region r).st == .granting || (s.region r).st == .revoking
    | none => false)
  let h := leAt img 8 4
  if busy then some eState
  else if h ≠ len ∨ 0x1000000 < h ∨ h < 256 ∨ h % 16 ≠ 0 then some eRange
  else if headerOk whole img = false then some eBadarg
  else if gradeOk s img = false then some eGrade
  else none

/-- The orders that the whole image decides: the rectangles of order 7, and 8 to 11. -/
def imageCheck (s : State) (whole : Bool) (img : List Byte) : Option Nat :=
  if rectTooWide s img = true then some eGrade
  else if keyOk s img = false then some eAuth
  else if whole = false ∧ leAt img 0x20 8 ≠ s.frame.id.toNat then some eDigest
  else if tableOk whole img = false ∨ sectionsOk img = false then some eBadarg
  else if noConflict s whole img = false then some eNores
  else none

/-- The orders 3 and 5 to 11 of R33 for a whole image. -/
def frameCheck (s : State) (whole : Bool) (len : Nat) (img : List Byte) : Option Nat :=
  (headerCheck s whole len img).or (imageCheck s whole img)

/-- The header and the section table are among the bytes fetched. -/
def tableFetched (len : Nat) (img : List Byte) : Bool :=
  decide (0x40 ≤ img.length) && decide (min len (0x40 + 16 * frameCount img) ≤ img.length)

/-- The code of a load whose fetch failed: that of a header check that fails, if the header and the section table were fetched; else
E_TIMEOUT (R33; log entry 36). -/
def shortCode (s : State) (whole : Bool) (len : Nat) (img : List Byte) : Nat :=
  if tableFetched len img then (headerCheck s whole len img).getD eTimeout else eTimeout

/-! ### Taking effect (01 R34, R36, R38, R39) -/

/-- The section of region `n`, with its digest and new epoch; MEM_ROOT stays and the translation cache is emptied (11 R295, R310). -/
def configureRegion (c : RegionCfg) (r : RegionId) (s : State) : State :=
  recordUnits r ((s.parityClean (fun h => h.region == some r && h.loc.toNat / 2 ^ 24 == 2)).modRegion r (fun g => { g with
    cfg := some c, st := .configured, by_ := none, epoch := g.epoch + 1,
    digest := BitVec.ofNat 384 (leNat (sha384 c.raw)), mem := { g.mem with tlb := [] } }))

/-- A region the whole frame does not configure. -/
def unconfigureRegion (r : RegionId) (s : State) : State :=
  s.modRegion r (fun g => { g with
    cfg := none, st := .unconfigured, by_ := none, epoch := g.epoch + 1, digest := 0, mem := { g.mem with tlb := [] } })

/-- Every region's number, 0 to 63. -/
def allRegions : List RegionId := (List.range 64).map (fun k => BitVec.ofNat 6 k)

/-- PORT_ENABLE takes effect on a port (12 R321). -/
def enablePort (on : BitVec 12) (p : PortId) (s : State) : State :=
  let x := s.port p
  if on.getLsbD p.toNat then
    if x.st = .down then startTraining p (s.setPort p { x with full := true }) else s
  else if x.st = .down then s
  else s.setPort p { x with st := .down, lanesOk := 0, lanes := [], buf := [], resend := [], nakSeq := none, replayAt := none }

/-- The frame store's record of an image's sections (01 R36). -/
def storeSections (img : List Byte) : List (Byte × RegionId × List Byte) :=
  (frameEntries img img.length).map (fun e => (BitVec.ofNat 8 e.type, BitVec.ofNat 6 e.region, e.bytes img))

/-- A whole frame takes effect. Device-scope units that had stopped run again (17 R436). -/
def applyWhole (img : List Byte) (s : State) : State :=
  let rs := imageRegions img
  let dev := match ofType (frameEntries img img.length) 1 with
    | e :: _ => e.bytes img
    | [] => []
  let on : BitVec 12 := BitVec.ofNat 12 (leAt dev 0 2)
  let s := { s with stopped := [], parity := s.parity.filter (fun h => h.region.isSome), frame := { s.frame with
    loaded := true, id := BitVec.ofNat 64 (leAt img 0x18 8), tag := BitVec.ofNat 32 (leAt img 0x14 4), epoch := s.frame.epoch + 1,
    portEnable := on, source := BitVec.ofNat 2 (leAt dev 2 1), sourcePort := BitVec.ofNat 4 (leAt dev 3 1),
    vlShare := (List.range 96).map (fun k => leAt dev (4 + k) 1), store := storeSections img } }
  let s := allRegions.foldl (fun s r => match rs.find? (fun e => e.1 == r.toNat) with
    | some e => configureRegion e.2 r s
    | none => unconfigureRegion r s) s
  allPorts.foldl (fun s p => enablePort on p s) s

/-- A region frame takes effect. -/
def applyRegion (img : List Byte) (s : State) : State :=
  (imageRegions img).foldl (fun s e =>
    let r : RegionId := BitVec.ofNat 6 e.1
    configureRegion e.2 r { s with frame := { s.frame with
      store := s.frame.store.filter (fun q => q.1 == 1 || q.2.1 != r) ++ storeSections img } }) s

/-- LOAD_FRAME and LOAD_REGION_FRAME: orders 1, 2 and 4 of R33, decided without the image. -/
def loadFrame (op : Nat) (whole : Bool) (fn : Fn) (rg : RegionId) (tag : BitVec 16) (a : ArgBlock) (s : State) : State :=
  mailCommand op .d [(0, 4), (8, 12)] (fun _ c => some (argAt c.a 16 4)) fn rg tag a (fun c s =>
    if s.frame.loading.isSome || s.fuses.pulse.isSome then s.done c.f eBusy
    else if whole && s.anyGranted then s.done c.f eNotidle
    else if !whole && !s.frame.loaded then s.done c.f eState
    else { s with frame := { s.frame with loading := some (c.fn, whole, argAt c.a 16 4) } }) s

/-- LOAD_FRAME (01 R33). -/
def execLoadFrame (fn : Fn) (rg : RegionId) (tag : BitVec 16) (a : ArgBlock) (s : State) : Host.Outcome State Fault Refusal :=
  .next (loadFrame 0x01 true fn rg tag a s)

/-- LOAD_REGION_FRAME (01 R33). -/
def execLoadRegionFrame (fn : Fn) (rg : RegionId) (tag : BitVec 16) (a : ArgBlock) (s : State) : Host.Outcome State Fault Refusal :=
  .next (loadFrame 0x02 false fn rg tag a s)

/-- FRAME_LOAD_COMPLETE: `image` is what was fetched from host memory, shorter than its length where the fetch failed (log entry
36). The first failing order of R33 is reported, or the frame takes effect. -/
def execFrameLoadComplete (image : List Byte) (s : State) : Host.Outcome State Fault Refusal :=
  match s.frame.loading with
  | none => .next s
  | some (fn, whole, len) =>
    let s := { s with frame := { s.frame with loading := none } }
    let op := if whole then 0x01 else 0x02
    if image.length ≠ len then .next (s.finish (fnNo fn) op (shortCode s whole len image))
    else match frameCheck s whole len image with
      | some e => .next (s.finish (fnNo fn) op e)
      | none => .next ((if whole then applyWhole image s else applyRegion image s).finish (fnNo fn) op eOk)

/-! ### Fuses (01 R19 to R21, R32) -/

/-- The physical column of die `d` that carries its `k`-th number: bit positions from `n` below 34. -/
def nthBit (x : BitVec 34) : Nat → Nat → Nat
  | _, 0 => 34
  | k, n + 1 =>
    let p := 33 - n
    if x.getLsbD p then (if k = 0 then p else nthBit x (k - 1) n) else nthBit x k n

/-- Die and physical column of a logical column (01 R16). -/
def State.physical (s : State) (col : Nat) : Nat × Nat :=
  let d := s.dieOf col
  (d, nthBit (Tab.get 0 s.fuses.used d) (col - s.dieStart d) 34)

/-- RETIRE_COLUMN: the checks of R20 in order; the column is held in reset and the fuse pulse begins. -/
def execRetireColumn (fn : Fn) (rg : RegionId) (tag : BitVec 16) (a : ArgBlock) (s : State) : Host.Outcome State Fault Refusal :=
  .next (mailCommand 0x03 .d [(0, 2)] noHref fn rg tag a (fun c s =>
    let col := argAt c.a 0 2
    if s.frame.loading.isSome || s.fuses.pulse.isSome then s.done c.f eBusy
    else if s.columns ≤ col then s.done c.f eRange
    else if s.fuses.parked.contains col then s.done c.f eState
    else if s.regions.any (fun e => (e.2.st == .granted || e.2.st == .granting || e.2.st == .revoking) && (match e.2.cfg with
        | some q => decide (q.col0 ≤ col) && decide (col < q.col0 + q.ncols)
        | none => false)) then s.done c.f eNotidle
    else if 8 ≤ s.fuses.entries.length then s.done c.f eNores
    else { s with fuses := { s.fuses with pulse := some (c.fn, col) } }) s)

/-- The entry of a pulse is used from now on, and its column parked (01 R20, R21). -/
def programEntry (col : Nat) (ok : Bool) (s : State) : State :=
  let q := s.physical col
  { s with fuses := { s.fuses with
    entries := s.fuses.entries ++ [{ die := q.1, col := q.2, ok := ok }], parked := s.fuses.parked ++ [col], pulse := none } }

/-- REVOKE_KEY (01 R32). A slot already revoked completes with E_OK (log entry 37). -/
def execRevokeKey (fn : Fn) (rg : RegionId) (tag : BitVec 16) (a : ArgBlock) (s : State) : Host.Outcome State Fault Refusal :=
  .next (mailCommand 0x04 .d [(0, 1)] noHref fn rg tag a (fun c s =>
    let k := argAt c.a 0 1
    if 3 < k then s.done c.f eRange
    else if s.fuses.revoked.getLsbD k then s.done c.f eOk
    else if popCount s.fuses.revoked.toNat 4 = 3 then s.done c.f eState
    else { s with fuses := { s.fuses with revokePulse := some (c.fn, BitVec.ofNat 2 k) } }) s)

/-! ### Identity and retraining (12 R320, R324) -/

/-- SET_IDENTITY. -/
def execSetIdentity (fn : Fn) (rg : RegionId) (tag : BitVec 16) (a : ArgBlock) (s : State) : Host.Outcome State Fault Refusal :=
  .next (mailCommand 0x05 .d [(0, 8)] noHref fn rg tag a (fun c s =>
    let dev := argAt c.a 0 2
    let x := argAt c.a 2 1
    let y := argAt c.a 3 1
    let z := argAt c.a 4 1
    let xd := argAt c.a 5 1
    let yd := argAt c.a 6 1
    let zd := argAt c.a 7 1
    if s.anyGranted then s.done c.f eNotidle
    else if dev = 0xFFFF then s.done c.f eBadarg
    else if xd = 0 ∨ 16 < xd ∨ yd = 0 ∨ 32 < yd ∨ zd = 0 ∨ 32 < zd ∨ xd ≤ x ∨ yd ≤ y ∨ zd ≤ z then s.done c.f eRange
    else ({ s with ident := {
      dev := BitVec.ofNat 16 dev, ident := true, x := BitVec.ofNat 4 x, y := BitVec.ofNat 5 y, z := BitVec.ofNat 5 z,
      xd := BitVec.ofNat 4 (xd - 1), yd := BitVec.ofNat 5 (yd - 1), zd := BitVec.ofNat 5 (zd - 1) } }).done c.f eOk) s)

/-- LINK_RETRAIN: the named ports train on all four lanes (12 R320); it completes when they begin (log entry 38). -/
def execLinkRetrain (fn : Fn) (rg : RegionId) (tag : BitVec 16) (a : ArgBlock) (s : State) : Host.Outcome State Fault Refusal :=
  .next (mailCommand 0x06 .d [(0, 2)] noHref fn rg tag a (fun c s =>
    let ps := argAt c.a 0 2
    if 4096 ≤ ps ∨ allPorts.any (fun p => ps.testBit p.toNat && !s.portEnabled p) then s.done c.f eBadarg
    else (allPorts.foldl (fun s p => if ps.testBit p.toNat then
        startTraining p (s.modPort p (fun x => { x with full := true })) else s) s).done c.f eOk) s)

end Sys2Proof.Machine
end

