-- ==== Sys2Proof/Machine/Links.lean ====
section
/-!
DEFINITION. Sys2Proof/Machine/Links.lean: the commands of the link ports and the transactions that arrive by them
(12_links_and_cadence.md).
-/
namespace Sys2Proof.Machine
open Sys2Proof

/-! ### Flits -/

/-- FRAME_SLOT_SEND (R316): the flit of the next slot leaves; `frac` is the time within the beat, in 1/1,024 bt. -/
def execFrameSlotSend (p : PortId) (frac : BitVec 10) (s : State) : Host.Outcome State Fault Refusal := .next (sendSlot p frac s)

/-- A flit of the stream reaches port `p`: its codewords are corrected as far as R312 allows; `act` sees whether it touches one that
is not, and the port. A port that does not run receives nothing. -/
def receiveFlit (p : PortId) (errs : List (BitVec 10)) (act : Bool → Port → State → State) (s : State) : State :=
  if (s.port p).running then
    let q := (s.port p).takeFec errs s.beats
    act q.1 q.2 s
  else s

/-- A sequenced flit is received (R318): checked, its ACK taken, its content unpacked if it is the expected one. -/
def takeSequenced (p : PortId) (type : Nat) (f : Flit) (errs : List (BitVec 10)) (s : State) : State :=
  receiveFlit p errs (fun ue x s =>
    let good := flGood type f ue
    let q := acceptSeq good f (if good then takeAck f s.beats x else x)
    let s := s.setPort p q.2
    if q.1 && type == tData then rxContent p f s else s) s

/-- DATA_FLIT (R318). -/
def execDataFlit (p : PortId) (f : Flit) (errs : List (BitVec 10)) (s : State) : Host.Outcome State Fault Refusal :=
  .next (takeSequenced p tData f errs s)

/-- IDLE_FLIT (R318). -/
def execIdleFlit (p : PortId) (f : Flit) (errs : List (BitVec 10)) (s : State) : Host.Outcome State Fault Refusal :=
  .next (takeSequenced p tIdle f errs s)

/-- HOLD_FLIT (R319): it carries ACK and NAK and no sequence number. -/
def execHoldFlit (p : PortId) (f : Flit) (errs : List (BitVec 10)) (s : State) : Host.Outcome State Fault Refusal :=
  .next (receiveFlit p errs (fun ue x s => s.setPort p (if flGood tHold f ue then takeAck f s.beats x else x)) s)

/-- CTRL_FLIT (R317, R323, R328, R335): credits, timestamps, the cadence, and the hello if it is present. A bad one does
nothing. -/
def execCtrlFlit (p : PortId) (f : Flit) (errs : List (BitVec 10)) (frac : BitVec 10) (s : State) :
    Host.Outcome State Fault Refusal :=
  .next (receiveFlit p errs (fun ue x s =>
    if flGood tCtrl f ue = false then s.setPort p x
    else
      let now := s.stampNow frac
      let x := takeCredit f (takeAck f s.beats x)
      let s := s.setPort p { x with peer := some (BitVec.ofNat 64 (flAt f 0x48 8), s.steadyNow frac) }
      let s := if Word.bit f (8 * 0x28) then takeHello p f now s else s
      takeCadence p f now s) s)

/-! ### Retrains (R319 to R322) -/

/-- REPLAY_TIMEOUT (R319): one SEQ NAKed 8 times, or 2 µs (250 bt) without delivery. -/
def execReplayTimeout (p : PortId) (s : State) : Host.Outcome State Fault Refusal :=
  let x := s.port p
  let late : Bool := match x.replayAt with
    | some b => decide (b + 250 ≤ s.beats)
    | none => false
  if x.running && (decide (8 ≤ x.nakCount) || late) then .next (startTraining p s) else .next s

/-- LANE_SIGNAL_LOSS (R320). -/
def execLaneSignalLoss (p : PortId) (lane : BitVec 2) (s : State) : Host.Outcome State Fault Refusal := .next (badLane p lane s)

/-- LANE_UE_THRESHOLD (R320): the lane took part in more than 16 uncorrectable codewords in the last 1,024 beats. -/
def execLaneUeThreshold (p : PortId) (lane : BitVec 2) (s : State) : Host.Outcome State Fault Refusal :=
  .next (if (s.port p).ueOver lane.toNat s.beats then badLane p lane s else s)

/-- LINK_TRAINING_DONE (R320, R321): `bad` are the lanes training found bad. The sender replays what is not acknowledged. -/
def execLinkTrainingDone (p : PortId) (bad : BitVec 4) (s : State) : Host.Outcome State Fault Refusal :=
  let x := s.port p
  if x.st ≠ .training then .next s
  else
    let base : BitVec 4 := if x.full then 0xF else x.lanesOk
    let ok := base &&& ~~~bad
    let s := s.setPort p { x with lanesOk := ok, full := false, resend := x.buf, lastHello := s.beats }
    let s := if ok = base then s else s.portEvent p 0
    if (s.port p).lanesInUse < 2 then .next (failPort p s) else .next (enterChecked p s)

/-- TRAINING_TIMEOUT (R321): 30 µs (3,750 bt). -/
def execTrainingTimeout (p : PortId) (s : State) : Host.Outcome State Fault Refusal :=
  let x := s.port p
  if x.st = .training ∧ x.trainAt + 3750 ≤ s.beats then .next (failPort p s) else .next s

/-- HELLO_TIMEOUT (R321): 4,096 bt. -/
def execHelloTimeout (p : PortId) (s : State) : Host.Outcome State Fault Refusal :=
  let x := s.port p
  if x.running ∧ x.lastHello + 4096 ≤ s.beats then .next (failPort p s) else .next s

/-! ### Transactions (R326, R327, R330, R331) -/

/-- A row taken from the lane belongs to a declared item and has still to be written: what came after it on the lane waits, since
transactions of a lane take effect in order (R331). A row that waits for a declaration holds nothing up (R240), nor does a halted
region's, whose rows are not written. -/
def State.laneWaits (s : State) (p : PortId) (v : Lane) : Bool := match s.laneOwner p v with
  | none => false
  | some r =>
    let g := s.region r
    !g.brake.halted && g.inRows.any (fun q => q.decl.isNone && q.port == p && ((s.tile q.tile).declOf q).isSome)

/-- The oldest transaction of lane `v` of port `p`, if `want` accepts it and nothing before it has still to take effect. -/
def State.headTxn (s : State) (p : PortId) (v : Lane) (want : Txn → Bool) : Option Txn :=
  match ((s.port p).lane v).rxq with
  | [] => none
  | t :: _ => if want t && !s.laneWaits p v then some t else none

/-- `s` without the oldest transaction of the lane. -/
def popTxn (p : PortId) (v : Lane) (s : State) : State := s.modLane p v (fun l => { l with rxq := l.rxq.drop 1 })

/-- The oldest transaction of the lane, if `want` accepts it, is performed by `act` for the region that owns the lane, and
its space freed; if no region may take it, it is discarded (R326). -/
def perform (p : PortId) (v : Lane) (want : Txn → Bool) (act : RegionId → Txn → State → State) (s : State) : State :=
  match s.headTxn p v want with
  | none => s
  | some t =>
    let s := popTxn p v s
    match s.admits p v t with
    | none => dropTxn p v t s
    | some r => freeUnits p v t.units (act r t s)

/-- The transaction has code `c`. -/
def isCode (c : Nat) : Txn → Bool := fun t => t.code == c

/-- ROW_WR: the row waits in the inbound buffer for its declaration, and holds its space (R327, R240). One for a tile
outside the region is discarded. -/
def execRowWr (p : PortId) (v : Lane) (s : State) : Host.Outcome State Fault Refusal :=
  match s.headTxn p v (isCode 1) with
  | none => .next s
  | some t =>
    let s := popTxn p v s
    let tile : TileId := BitVec.ofNat 13 (t.arg 0 13)
    match s.admits p v t with
    | none => .next (dropTxn p v t s)
    | some r =>
      if s.regionOf tile = some r then
        .next (s.modRegion r (fun g => { g with inRows := g.inRows ++ [{
          tile := tile, item := BitVec.ofNat 16 (t.arg 16 16), k := t.arg 32 16, data := BitVec.ofNat 4096 (leNat t.data),
          sig := if t.flags % 2 = 1 then some (BitVec.ofNat 16 (t.arg 48 16)) else none, decl := none, port := p,
          dev := t.sdev }] }))
      else .next (dropTxn p v t s)

/-- The pieces of `n` bytes at `va`, page by page: address and length. -/
def pieces (va n : Nat) : List (Nat × Nat) :=
  let room := 0x200000 - va % 0x200000
  if n ≤ room then [(va, n)] else [(va, room), ((va + room) % 2 ^ 48, n - room)]

/-- MEM_REJ to the sender (R333). A walk that met poison has no REASON: a free value (log entry 6). -/
def rejectMem (r : RegionId) (p : PortId) (dev : BitVec 16) (va kind code detail : Nat) (s : State) : State :=
  let q := s.draw 3
  let reason := if code = fMemUe then q.1.toNat else (detail >>> 42) % 8
  (if code = fMemUe then q.2 else s).sendTxn r p .unit 8 0 dev.toNat (va + (reason <<< 48) + (kind <<< 51)) []

/-- Translate every piece; the first failure faults the region and tells the sender. -/
def translatePieces (r : RegionId) (p : PortId) (dev : BitVec 16) (kind : Nat) :
    List (Nat × Nat) → State → Option (List (Nat × Nat)) × State
  | [], s => (some [], s)
  | (va, n) :: rest, s =>
    match s.translate r va kind with
    | (.fault code detail, s) =>
      (none, rejectMem r p dev va kind code detail ((s.latchWalk r va code).raise r none none code detail))
    | (.ok pa, s) => match translatePieces r p dev kind rest s with
      | (some l, s) => (some ((pa, n) :: l), s)
      | (none, s) => (none, s)

/-- Perform a remote write or accumulation at device addresses. -/
def performPieces (r : RegionId) (acc : Option Bool) : List (Nat × Nat) → List Byte → State → State
  | [], _, s => s
  | (pa, n) :: rest, b, s =>
    let s := match s.staleAt pa with
      | some d => s.raise r none none fStaleUnit d
      | none => match acc with
        | none => { s with mem := s.mem.write pa (b.take n) }
        | some bf16 => match s.accumulate r bf16 pa (b.take n) with
          | (some l, s) => s.raise r none none fMemUe l
          | (none, s) => s
    performPieces r acc rest (b.drop n) s

/-- A remote memory transaction: translated whole, then performed (R296, R302, R333). -/
def remoteMem (p : PortId) (acc : Bool) (r : RegionId) (t : Txn) (s : State) : State :=
  let kind := if acc then kAcc else kWrite
  match translatePieces r p t.sdev kind (pieces (t.arg 0 48 / 64 * 64) t.len) s with
  | (none, s) => s
  | (some l, s) => performPieces r (if acc then some (t.flags % 2 == 1) else none) l t.data s

/-- MEM_WR (R330). -/
def execMemWr (p : PortId) (v : Lane) (s : State) : Host.Outcome State Fault Refusal :=
  .next (perform p v (isCode 2) (remoteMem p false) s)

/-- MEM_ACC (R302, R330). -/
def execMemAcc (p : PortId) (v : Lane) (s : State) : Host.Outcome State Fault Refusal :=
  .next (perform p v (isCode 3) (remoteMem p true) s)

/-- SIG (R330, R481). -/
def execSig (p : PortId) (v : Lane) (s : State) : Host.Outcome State Fault Refusal :=
  .next (perform p v (isCode 4) (fun r t s =>
    let o : BitVec 16 := BitVec.ofNat 16 (t.arg 0 16)
    let src := SigSrc.remote t.sdev p
    if (s.region r).ownsObj o.toNat then landSignal r o src s else misuse r o src s) s)

/-- Aborts to the parent and to every recorded child of an object (R266). -/
def sendAborts (r : RegionId) (o : BitVec 16) (s : State) : State :=
  let x := s.obj o
  let tag := (s.region r).tag.toNat
  let s := if x.parEn then
      s.sendTxn r x.parentPort .unit 7 0 x.parentDev.toNat (x.parentObj.toNat + (tag <<< 32)) []
    else s
  x.children.foldl (fun s c => s.sendTxn r c.port .unit 7 0 c.dev.toNat (c.obj.toNat + (tag <<< 32)) []) s

/-- TAG_MISMATCH with the received tag, and the aborts (R266). -/
def tagFault (r : RegionId) (o : BitVec 16) (tag : Nat) (s : State) : State :=
  sendAborts r o (s.raise r none none fTagMismatch (o.toNat + (tag <<< 32)))

/-- A barrier message to object OBJ of the region: owned, and of the region's own tag (R266); a quarantined block
accepts none (01 R40). -/
def barrierMessage (p : PortId) (act : BitVec 16 → SigSrc → State → State) (r : RegionId) (t : Txn) (s : State) : State :=
  let o : BitVec 16 := BitVec.ofNat 16 (t.arg 0 16)
  let src := SigSrc.remote t.sdev p
  if (s.region r).ownsObj o.toNat = false then misuse r o src s
  else if t.arg 32 32 ≠ (s.region r).tag.toNat then tagFault r o (t.arg 32 32) s
  else reach r o src (act o src) s

/-- BAR_ARR (R265): the child is recorded and its arrival counted. -/
def execBarArr (p : PortId) (v : Lane) (s : State) : Host.Outcome State Fault Refusal :=
  .next (perform p v (isCode 5) (fun r t s => barrierMessage p (fun o src s =>
    let x := s.obj o
    if arriveRefused r o s || decide (16 ≤ x.children.length) then misuse r o src s
    else
      let child : Child := { port := p, dev := t.sdev, obj := BitVec.ofNat 16 (t.arg 16 16) }
      arrive r o src none none (s.setObj o { x with children := x.children ++ [child] })) r t s) s)

/-- BAR_REL (R264): counted as the last arrival. -/
def execBarRel (p : PortId) (v : Lane) (s : State) : Host.Outcome State Fault Refusal :=
  .next (perform p v (isCode 6) (fun r t s => barrierMessage p (fun o src s =>
    if (s.obj o).bar = false then misuse r o src s
    else releaseBarrier r o (s.region r).countCycle (s.setObj o ((s.obj o).stamp s src))) r t s) s)

/-- BAR_ABORT (R266). -/
def execBarAbort (p : PortId) (v : Lane) (s : State) : Host.Outcome State Fault Refusal :=
  .next (perform p v (isCode 7) (fun r t s =>
    let o : BitVec 16 := BitVec.ofNat 16 (t.arg 0 16)
    if (s.region r).ownsObj o.toNat then tagFault r o (t.arg 32 32) s else misuse r o (.remote t.sdev p) s) s)

/-- MEM_REJ (R333). -/
def execMemRej (p : PortId) (v : Lane) (s : State) : Host.Outcome State Fault Refusal :=
  .next (perform p v (isCode 8) (fun r _ s =>
    (s.modRegion r (fun g => { g with mem := { g.mem with rej := Word.satAdd g.mem.rej 1 } })).regionEvent r 3) s)

end Sys2Proof.Machine
end

