-- ==== Sys2Proof/Machine/Update.lean ====
section
/-!
DEFINITION. Sys2Proof/Machine/Update.lean: the commands of the update units and of the derailleur (13_training_state.md
R349 to R366).
-/
namespace Sys2Proof.Machine
open Sys2Proof

/-! ### Arming and the loop -/

/-- A structure of the issuer that a command reads before it changes anything. None can be read while the region is halted, whose
memory accepts no traffic of it (03 R109; log entry 101). -/
def State.readArg (s : State) (r : RegionId) (va n : Nat) : Option (List Byte) × State :=
  if (s.region r).brake.halted then (none, s)
  else match s.readVa r va n with
    | (.ok b, s) => (some b, s)
    | (.error _, _) => (none, s)

/-- The shard blocks of a list. -/
def cutBlocks (n : Nat) (b : List Byte) : List (BitVec 1024) :=
  (List.range n).map (fun k => BitVec.ofNat 1024 (leAt b (128 * k) 128))

/-- Two blocks of one channel share bytes of their state. -/
def blkOverlap (a b : BitVec 1024) : Bool :=
  blkChan a == blkChan b && decide (blkOff a < blkEnd b) && decide (blkOff b < blkEnd a)

/-- Some two blocks of a list overlap. -/
def anyOverlap : List (BitVec 1024) → Bool
  | [] => false
  | b :: r => r.any (blkOverlap b) || anyOverlap r

/-- The list is armed, and the freewheel fixes its extents (15 R384, R387). -/
def armList (r : RegionId) (va startObj startCount doneObj : Nat) (blocks : List (BitVec 1024)) (s : State) : State :=
  let g := s.region r
  let s := if g.fw.st = .remirroring then fwAbandon r true s else s
  let s := dropUpdWait r g.upd.startObj s
  let s := s.modRegion r (fun g => { g with
    upd := { g.upd with
      armed := true, blocks := blocks, listVa := BitVec.ofNat 48 va, startObj := BitVec.ofNat 16 startObj,
      startCount := BitVec.ofNat 16 startCount, doneObj := BitVec.ofNat 16 doneObj, disarm := false },
    fw := { g.fw with remirror := true, mirrorEnd := g.lpChans.map (fun c => (c, mirrorEndOf g blocks c)) } })
  updStep1 r s

/-- UPD_LIST (R349). -/
def execUpdList (fn : Fn) (rg : RegionId) (tag : BitVec 16) (a : ArgBlock) (s : State) : Host.Outcome State Fault Refusal :=
  .next (mailCommand 0x12 .r [(0, 16)] noHref fn rg tag a (fun c s =>
    let g := s.region c.r
    let va := argAt c.a 0 8
    let n := argAt c.a 8 2
    let startObj := argAt c.a 0x0A 2
    let startCount := argAt c.a 0x0C 2
    let doneObj := argAt c.a 0x0E 2
    if g.upd.busy ∨ g.drl.st = .running then s.done c.f eBusy
    else if va % 128 ≠ 0 ∨ 2 ^ 48 ≤ va ∨ n = 0 ∨ 8192 < n ∨ startCount = 0 then s.done c.f eRange
    else match s.readArg c.r va (128 * n) with
      | (none, s) => s.done c.f eBadarg
      | (some b, s) =>
        let blocks := cutBlocks n b
        if g.ownsObj startObj = false ∨ g.ownsObj doneObj = false
            ∨ blocks.any (fun b => !g.lpChans.contains (blkChan b)) = true then s.done c.f eOwner
        else if blocks.any (fun b => !blkLegal b) then s.done c.f eBadarg
        else if blocks.any (fun b => decide (0x60000000 < blkEnd b)) then s.done c.f eRange
        else if anyOverlap blocks then s.done c.f eBadarg
        else ((armList c.r va startObj startCount doneObj blocks s).regionClean c.r 3 0x12).done c.f eOk) s)

/-- UPD_SET_STEP (R350; 15 R387). -/
def execUpdSetStep (fn : Fn) (rg : RegionId) (tag : BitVec 16) (a : ArgBlock) (s : State) : Host.Outcome State Fault Refusal :=
  .next (mailCommand 0x13 .r [(0, 8)] noHref fn rg tag a (fun c s =>
    let g := s.region c.r
    if g.upd.busy ∨ g.drl.st = .running then s.done c.f eBusy
    else (fwForget c.r (s.modRegion c.r (fun g => { g with upd := { g.upd with step := BitVec.ofNat 64 (argAt c.a 0 8) } }))).done
      c.f eOk) s)

/-- The controller stands at step 1: START_OBJ is not met, or a derailleur run holds it there (R350, R361). -/
def Region.atStep1 (g : Region) : Bool := g.upd.phase == .waitStart && (!g.upd.startMet || g.drl.st == .running)

/-- UPD_DISARM (R350): at step 1 the loop stops now, otherwise when the step ends. -/
def execUpdDisarm (fn : Fn) (rg : RegionId) (tag : BitVec 16) (a : ArgBlock) (s : State) : Host.Outcome State Fault Refusal :=
  .next (mailCommand 0x14 .r [] noHref fn rg tag a (fun c s =>
    let g := s.region c.r
    if g.upd.armed = false then s.done c.f eState
    else
      let s := s.modRegion c.r (fun g => { g with upd := { g.upd with disarm := true } })
      let s := if g.atStep1 then updStep1 c.r (dropUpdWait c.r g.upd.startObj s) else s
      s.done c.f eOk) s)

/-- UPD_EMIT (R366): the read bank's weights, as step UPD_STEP − 1 emitted them (log entry 15). A halted region's memory and sync
blocks take none of it (03 R109; log entry 101). -/
def execUpdEmit (fn : Fn) (rg : RegionId) (tag : BitVec 16) (a : ArgBlock) (s : State) : Host.Outcome State Fault Refusal :=
  .next (mailCommand 0x15 .r [] noHref fn rg tag a (fun c s =>
    let g := s.region c.r
    if g.upd.armed = false ∨ g.brake.halted = true then s.done c.f eState
    else if g.upd.busy ∨ g.drl.st = .running then s.done c.f eBusy
    else match emitAll c.r (g.upd.step.toNat % 2) (g.upd.step - 1).toNat s with
      | (some e, s) => (engineFault c.r e s).done c.f eBadarg
      | (none, s) => (landSignal c.r g.upd.doneObj .engine s).done c.f eOk) s)

/-- UPD_STEP_START (R350 steps 1 to 3): START_OBJ was met, no run is in progress, step s − 2 is committed. -/
def execUpdStepStart (r : RegionId) (s : State) : Host.Outcome State Fault Refusal :=
  let g := s.region r
  if g.st = .granted ∧ g.brake.halted = false ∧ g.upd.phase = .waitStart ∧ g.upd.startMet = true ∧ g.drl.st ≠ .running
      ∧ g.commitMet = true then .next (updStart r s)
  else .next s

/-- UPD_STEP_END (R350 steps 4 and 5). -/
def execUpdStepEnd (r : RegionId) (s : State) : Host.Outcome State Fault Refusal :=
  let g := s.region r
  if g.st = .granted ∧ g.brake.halted = false ∧ g.upd.phase = .running ∧ g.exportHolds = false then .next (updEnd r s)
  else .next s

/-! ### The derailleur (R361 to R365) -/

/-- `n` bytes of an entry at offset `o`. -/
def entAt (e : BitVec 256) (o n : Nat) : Nat := Word.bits e (8 * o) (8 * n)
/-- KIND. -/
def entKind (e : BitVec 256) : Nat := entAt e 0 1
/-- PORT. -/
def entPort (e : BitVec 256) : PortId := BitVec.ofNat 4 (entAt e 1 1)
/-- ROUND. -/
def entRound (e : BitVec 256) : Nat := entAt e 2 2
/-- LEN. -/
def entLen (e : BitVec 256) : Nat := entAt e 4 4
/-- SRC. -/
def entSrc (e : BitVec 256) : Nat := entAt e 8 8
/-- DST. -/
def entDst (e : BitVec 256) : Nat := entAt e 16 8
/-- DDEV. -/
def entDdev (e : BitVec 256) : BitVec 16 := e.extractLsb' 192 16

/-- An entry keeps R362: its kind, and zero where its kind has no field. -/
def entLegal (e : BitVec 256) : Bool :=
  entAt e 30 2 == 0 && match entKind e with
    | 1 => decide (entAt e 1 1 < 12) && entLen e % 64 == 0 && entAt e 26 4 == 0
    | 2 => entAt e 1 1 == 0 && entLen e % 64 == 0 && entAt e 24 6 == 0
    | 3 => entAt e 1 1 == 0 && entLen e == 0 && entSrc e == 0 && entDst e == 0 && entAt e 24 2 == 0
           && Word.bits e (8 * 26 + 12) 4 == 0 && Word.bits e (8 * 28 + 12) 4 == 0
    | _ => false

/-- Entries in round order, each round opened by its one ROUND entry: `next` is the round not yet opened. -/
def roundsOk (rounds : Nat) : Nat → List (BitVec 256) → Bool
  | next, [] => next == rounds
  | next, e :: r =>
    if entKind e = 3 then entRound e == next && decide (next < rounds) && roundsOk rounds (next + 1) r
    else entRound e + 1 == next && roundsOk rounds next r

/-- The range lies whole in channels or quarters that `ok` accepts: pieces of 1.5 GiB by number, LPDDR from 1,024 on. -/
def rangeIn (ok : Nat → Bool) (lo n : Nat) : Bool :=
  let unit (a : Nat) : Option Nat :=
    if inFrameStore a then none
    else if a < 0x6000000000 then some (a / 0x60000000)
    else if 0x8000000000 ≤ a ∧ a < 0xE000000000 then some (1024 + (a - 0x8000000000) / 0x60000000)
    else none
  if n = 0 then (match unit lo with
    | some u => ok u
    | none => false)
  else match unit lo, unit (lo + n - 1) with
    | some a, some b => (decide (b < 1024) || decide (1024 ≤ a)) && (List.range (b + 1 - a)).all (fun k => ok (a + k))
        && (decide (frameStoreBase ≥ lo + n) || decide (0x0C00000000 ≤ lo))
    | _, _ => false

/-- Quarter `q` of an owned LPDDR channel, by the numbers of `rangeIn`. -/
def Region.ownsQuarter (g : Region) (q u : Nat) : Bool := decide (1024 ≤ u) && (u - 1024) % 4 == q && g.lpChans.contains ((u - 1024) / 4)

/-- An owned HBM channel. -/
def Region.ownsHbm (g : Region) (u : Nat) : Bool := decide (u < 256) && (match g.cfg with
  | some c => c.hbm.getLsbD u
  | none => false)

/-- `lo` up to `lo + n` lies in the read bank or the scratch window (R363). -/
def drlRange (g : Region) (scr size lo n : Nat) : Bool :=
  rangeIn (g.ownsQuarter (g.upd.step.toNat % 2)) lo n || (decide (scr ≤ lo) && decide (lo + n ≤ scr + size))

/-- The checks of R363 on a table, in the order of its rows. -/
def drlCheck (s : State) (r : RegionId) (h : List Byte) (es : List (BitVec 256)) : Nat :=
  let g := s.region r
  let rounds := leAt h 6 2
  let obj := leAt h 0x0E 2
  let scr := leAt h 0x10 8
  let size := leAt h 0x18 8
  let sends := es.filter (fun e => entKind e = 1)
  let copies := es.filter (fun e => entKind e = 2)
  if !es.all entLegal || !roundsOk rounds 0 es then eBadarg
  else if !rangeIn (fun u => g.ownsHbm u || g.ownsQuarter ((g.upd.step.toNat + 1) % 2) u) scr size then eRange
  else if sends.any (fun e => !drlRange g scr size (entSrc e) (entLen e) || decide (size < entDst e + entLen e))
      || copies.any (fun e => !drlRange g scr size (entSrc e) (entLen e) || !drlRange g scr size (entDst e) (entLen e)) then eRange
  else if sends.any (fun e => entDdev e != (s.port (entPort e)).nbrDev || (g.lane (entPort e)).isNone) then eBadarg
  else if !g.ownsObj obj || !(s.obj (BitVec.ofNat 16 obj)).bar then eOwner
  else eOk

/-- The header keeps R362. -/
def drlHeader (h : List Byte) : Bool :=
  leAt h 0 4 == 0x52445946 && leAt h 4 2 == 1 && decide (1 ≤ leAt h 6 2) && decide (leAt h 6 2 ≤ 4096)
  && decide (1 ≤ leAt h 8 4) && decide (leAt h 8 4 ≤ 1048576) && leAt h 0x10 8 % 64 == 0 && leAt h 0x18 8 % 64 == 0
  && leAt h 0x20 32 == 0

/-- ARGS of a move with MIRROR clear (R365). -/
def drlArgs (off round tid : Nat) : Nat := off % 2 ^ 32 + (round <<< 32) + (tid <<< 48)

/-- One SEND of a round: moves of up to 512 bytes. -/
def drlSend (r : RegionId) (e : BitVec 256) (s : State) : Option Trouble × State :=
  match s.readPa (entSrc e) (entLen e) with
  | .error t => (some t, s)
  | .ok b => (none, (movePieces (entLen e)).foldl (fun s q =>
      s.sendTxn r (entPort e) .unit 9 0 (entDdev e).toNat
        (drlArgs ((entDst e + q.1) / 64) (entRound e) (s.region r).drl.tid.toNat) ((b.drop q.1).take q.2)) s)

/-- One COPY. -/
def drlCopy (e : BitVec 256) (s : State) : Option Trouble × State :=
  match s.readPa (entSrc e) (entLen e) with
  | .error t => (some t, s)
  | .ok b => (none, { s with mem := s.mem.write (entDst e) b })

/-- Do the entries of a round of one kind, until one meets trouble. -/
def overEntries (act : BitVec 256 → State → Option Trouble × State) : List (BitVec 256) → State → Option Trouble × State
  | [], s => (none, s)
  | e :: rest, s => match act e s with
    | (some t, s) => (some t, s)
    | (none, s) => overEntries act rest s

/-- The entries of the present round of a kind. -/
def Drl.nowEntries (d : Drl) (kind : Nat) : List (BitVec 256) :=
  d.entries.filter (fun e => entRound e == d.round && entKind e == kind)

/-- Ports of a mask of the present ROUND entry, at byte `o`. -/
def Drl.roundPorts (d : Drl) (o : Nat) : List PortId := match d.nowEntries 3 with
  | e :: _ => allPorts.filter (fun p => (entAt e o 2).testBit p.toNat)
  | [] => []

/-- Steps 3 to 5 of R364: once every DONE is in, the copies, then the arrival. -/
def drlProgress (r : RegionId) (s : State) : State :=
  let d := (s.region r).drl
  if d.st = .running ∧ d.arrived = false ∧ (d.roundPorts 28).all (fun p => d.dones.contains (p.toNat, d.round)) = true then
    match overEntries drlCopy (d.nowEntries 2) s with
    | (some t, s) => engineFault r t s
    | (none, s) => landArrival r d.obj (s.modRegion r (fun g => { g with drl := { g.drl with arrived := true } }))
  else s

/-- Steps 1 and 2 of R364 for the present round, and what follows at once. -/
def drlRound (r : RegionId) (s : State) : State :=
  let d := (s.region r).drl
  match overEntries (drlSend r) (d.nowEntries 1) s with
  | (some t, s) => engineFault r t s
  | (none, s) =>
    let s := (d.roundPorts 26).foldl (fun s p =>
      s.sendTxn r p .unit 9 1 (s.port p).nbrDev.toNat (drlArgs 0 d.round d.tid.toNat) []) s
    drlProgress r s

/-- The barrier of a round was released: the next round begins, or the run ends. -/
def drlNext (r : RegionId) (s : State) : State :=
  let d := (s.region r).drl
  if d.st ≠ .running ∨ d.released = false then s
  else if d.round + 1 < d.rounds then
    drlRound r (s.modRegion r (fun g => { g with drl := { g.drl with
      round := d.round + 1, arrived := false, released := false, since := s.beats } }))
  else drlEnd r eOk s

/-- DRL_RUN (R361 to R364). -/
def execDrlRun (fn : Fn) (rg : RegionId) (tag : BitVec 16) (a : ArgBlock) (s : State) : Host.Outcome State Fault Refusal :=
  .next (mailCommand 0x16 .r [(0, 8)] noHref fn rg tag a (fun c s =>
    let g := s.region c.r
    let va := argAt c.a 0 8
    if g.upd.busy ∨ g.drl.st = .running then s.done c.f eBusy
    else if va % 64 ≠ 0 ∨ 2 ^ 48 ≤ va then s.done c.f eRange
    else match s.readArg c.r va 64 with
      | (none, s) => s.done c.f eBadarg
      | (some h, s) =>
        if drlHeader h = false then s.done c.f eBadarg
        else match s.readArg c.r (va + 64) (32 * leAt h 8 4) with
          | (none, s) => s.done c.f eBadarg
          | (some b, s) =>
            let es := (List.range (leAt h 8 4)).map (fun k => BitVec.ofNat 256 (leAt b (32 * k) 32))
            let code := drlCheck s c.r h es
            if code ≠ eOk then s.done c.f code
            else
              let s := fwForget c.r (fwAbandon c.r true s)
              drlRound c.r (s.modRegion c.r (fun g => { g with drl := { g.drl with
                st := .running, round := 0, rounds := leAt h 6 2, tid := BitVec.ofNat 16 (leAt h 0x0C 2),
                obj := BitVec.ofNat 16 (leAt h 0x0E 2), scrBase := leAt h 0x10 8, scrSize := leAt h 0x18 8, entries := es,
                dones := [], arrived := false, released := false, since := s.beats, fn := some c.fn } }))) s)

/-- A derailleur move is a code-9 transaction with MIRROR clear. -/
def isDrl (done : Bool) : Txn → Bool := fun t => t.code == 9 && !t.flags.testBit 1 && t.flags.testBit 0 == done

/-- A move is discarded and counted, and a run ends with the code (R365). -/
def drlDrop (r : RegionId) (code : Nat) (s : State) : State :=
  drlEnd r code (s.modRegion r (fun g => { g with drl := { g.drl with drop := Word.satAdd g.drl.drop 1 } }))

/-- The move belongs to another table, or to none here. -/
def Drl.strange (d : Drl) (t : Txn) : Bool := d.st != .running || t.arg 48 16 != d.tid.toNat

/-- DRL_MOVE (R365). -/
def execDrlMove (p : PortId) (v : Lane) (s : State) : Host.Outcome State Fault Refusal :=
  .next (perform p v (isDrl false) (fun r t s =>
    let d := (s.region r).drl
    if d.strange t then drlDrop r eDigest s
    else if d.scrSize < t.arg 0 32 * 64 + t.len ∨ t.len = 0 ∨ t.len % 64 ≠ 0 then drlDrop r eRange s
    else { s with mem := s.mem.write (d.scrBase + t.arg 0 32 * 64) t.data }) s)

/-- DRL_MOVE_DONE (R364). -/
def execDrlMoveDone (p : PortId) (v : Lane) (s : State) : Host.Outcome State Fault Refusal :=
  .next (perform p v (isDrl true) (fun r t s =>
    if (s.region r).drl.strange t then drlDrop r eDigest s
    else drlProgress r (s.modRegion r (fun g => { g with drl := { g.drl with
      dones := (p.toNat, t.arg 32 16) :: g.drl.dones } }))) s)

/-- DRL_ROUND_TIMEOUT (R365): 1 s is 125,000,000 bt. -/
def execDrlRoundTimeout (r : RegionId) (s : State) : Host.Outcome State Fault Refusal :=
  let d := (s.region r).drl
  if d.st = .running ∧ d.since + 125000000 ≤ s.beats then .next (drlEnd r eTimeout s) else .next s

end Sys2Proof.Machine
end

