-- ==== Sys2Proof/Machine/Freewheel.lean ====
section
/-!
DEFINITION. Sys2Proof/Machine/Freewheel.lean: the commands of the freewheel, of export and of rollback
(15_checkpoint_restart.md R381 to R400).
-/
namespace Sys2Proof.Machine
open Sys2Proof

/-! ### Configuration (R381) -/

/-- A mirror is in progress: begun and not committed. -/
def Fw.mirrors (f : Fw) : Bool := f.st == .mirroring || f.st == .remirroring || f.st == .awaiting

/-- FW_CONFIG. -/
def execFwConfig (fn : Fn) (rg : RegionId) (tag : BitVec 16) (a : ArgBlock) (s : State) : Host.Outcome State Fault Refusal :=
  .next (mailCommand 0x17 .r [(0, 20)] noHref fn rg tag a (fun c s =>
    let g := s.region c.r
    let dev := argAt c.a 0 2
    let mask : BitVec 16 := BitVec.ofNat 16 (argAt c.a 2 2)
    let obj := argAt c.a 4 2
    let share := argAt c.a 6 1
    let chan := argAt c.a 7 1
    let off := argAt c.a 8 8
    let limit := argAt c.a 0x10 4
    let ports := allPorts.filter (fun p => mask.getLsbD p.toNat)
    if g.upd.busy || g.drl.st == .running || g.fw.mirrors || g.fw.restore.isSome then s.done c.f eBusy
    else if 4096 ≤ mask.toNat ∨ ports.length = 0 ∨ 2 < ports.length
        ∨ ports.any (fun p => !s.portEnabled p || (g.lane p).isNone || (s.port p).nbrDev.toNat != dev) = true then s.done c.f eBadarg
    else if g.ownsObj obj = false ∨ (s.obj (BitVec.ofNat 16 obj)).bar = false then s.done c.f eOwner
    else if share = 0 ∨ 16 < share then s.done c.f eRange
    else if g.lpChans.contains chan = false then s.done c.f eOwner
    else if off % 64 ≠ 0 ∨ 0x60000000 < off + 32 * g.tiles.length ∨ limit < 125000 ∨ 16777215 < limit then s.done c.f eRange
    else
      ((s.regionClean c.r 3 0x17).modRegion c.r (fun g => { g with fw := { g.fw with
        conf := true, tandem := BitVec.ofNat 16 dev, ports := mask, obj := BitVec.ofNat 16 obj, share := share,
        ctxChan := BitVec.ofNat 6 chan, ctxOff := off, limit := limit, st := .idle, commitValid := false, mirrorAcked := false,
        remirror := true, sole := false, startBeat := none, stalled := false } })).done c.f eOk) s)

/-! ### Mirrors (R385 to R388) -/

/-- The freewheel may begin a mirror. -/
def Region.fwReady (g : Region) : Bool :=
  decide (g.st = .granted) && !g.brake.halted && g.fw.conf && g.fw.st == .idle && !g.fw.mirrorAcked && decide (g.drl.st ≠ .running)

/-- FW_MIRROR_START (R385): step s = UPD_STEP − 1 has ended, s − 1 is committed, REMIRROR is clear. -/
def execFwMirrorStart (r : RegionId) (s : State) : Host.Outcome State Fault Refusal :=
  let g := s.region r
  if g.fwReady && !g.fw.remirror && g.fw.commitValid && g.fw.commitStep == g.upd.step - 2 then .next (fwMirror r false s)
  else .next s

/-- FW_REMIRROR_START (R387). -/
def execFwRemirrorStart (r : RegionId) (s : State) : Host.Outcome State Fault Refusal :=
  let g := s.region r
  if g.fwReady && g.fw.remirror && g.upd.armed && (!g.fw.commitValid || g.fw.commitStep == g.upd.step - 1) then
    .next (fwMirror r true s)
  else .next s

/-- FW_STALL (R388). -/
def execFwStall (r : RegionId) (s : State) : Host.Outcome State Fault Refusal :=
  let f := (s.region r).fw
  match f.startBeat with
  | some b =>
    if f.mirrors ∧ f.stalled = false ∧ b + f.limit ≤ s.beats then
      .next ((s.modRegion r (fun g => { g with fw := { g.fw with stalled := true } })).fwEvent r 0)
    else .next s
  | none => .next s

/-! ### Moves received (R382, R385, R397) -/

/-- A move of the kind is taken if the conditions of R382 hold, and discarded if not. -/
def takeMove (k : MoveKind) (p : PortId) (v : Lane) (act : RegionId → Txn → State → State) (s : State) : State :=
  perform p v (isMove k) (fun r t s =>
    if (s.region r).takesMove p t && decide (t.flags < 64) then act r t s else fwDrop r s) s

/-- FW_MIRROR_DATA: written in the mirror quarter 2 + BANK. -/
def execFwMirrorData (p : PortId) (v : Lane) (s : State) : Host.Outcome State Fault Refusal :=
  .next (takeMove .mirrorData p v (fun r t s => if t.dataOk then writeMove t (2 + t.bank) s else fwDrop r s) s)

/-- FW_MIRROR_DONE. -/
def execFwMirrorDone (p : PortId) (v : Lane) (s : State) : Host.Outcome State Fault Refusal :=
  .next (takeMove .mirrorDone p v (fun r t s => mirrorDone r p t s) s)

/-- FW_MIRROR_ACK. -/
def execFwMirrorAck (p : PortId) (v : Lane) (s : State) : Host.Outcome State Fault Refusal :=
  .next (takeMove .mirrorAck p v mirrorAck s)

/-- FW_RESTORE_REQUEST. -/
def execFwRestoreRequest (p : PortId) (v : Lane) (s : State) : Host.Outcome State Fault Refusal :=
  .next (takeMove .restoreRequest p v (fun r t s => answerRequest r p t s) s)

/-- FW_RESTORE_DATA. -/
def execFwRestoreData (p : PortId) (v : Lane) (s : State) : Host.Outcome State Fault Refusal :=
  .next (takeMove .restoreData p v (fun r t s => restoreMove r t false s) s)

/-- FW_RESTORE_DONE. -/
def execFwRestoreDone (p : PortId) (v : Lane) (s : State) : Host.Outcome State Fault Refusal :=
  .next (takeMove .restoreDone p v (fun r t s => restoreMove r t true s) s)

/-- FW_RESTORE_REFUSE: the command completes with E_NORES, and the region stays halted. -/
def execFwRestoreRefuse (p : PortId) (v : Lane) (s : State) : Host.Outcome State Fault Refusal :=
  .next (takeMove .restoreRefuse p v (fun r _ s =>
    if (s.region r).fw.restore.isSome then fwFinish r eNores s else fwDrop r s) s)

/-- RESTORE_TIMEOUT (R397): 10 ms is 1,250,000 bt without a move of some channel's reply. -/
def execRestoreTimeout (r : RegionId) (s : State) : Host.Outcome State Fault Refusal :=
  match (s.region r).fw.restore with
  | some q => if q.silent.isEmpty = false ∧ q.since + 1250000 ≤ s.beats then .next (fwFinish r eNores s) else .next s
  | none => .next s

/-! ### Rollback and adoption (R395 to R400) -/

/-- ROLLBACK. -/
def execRollback (fn : Fn) (rg : RegionId) (tag : BitVec 16) (a : ArgBlock) (s : State) : Host.Outcome State Fault Refusal :=
  .next (mailCommand 0x19 .r [(0, 9)] noHref fn rg tag a (fun c s =>
    let g := s.region c.r
    let target : DWord := BitVec.ofNat 64 (argAt c.a 0 8)
    if 2 ≤ argAt c.a 8 1 then s.done c.f eBadarg
    else if g.fw.restore.isSome || g.loading.isSome then s.done c.f eBusy
    else if !((g.fw.commitValid && target == g.fw.commitStep) || (g.fw.mirrorAcked && target == g.fw.commitStep + 1)) then
      s.done c.f eState
    else restoreStart c.r c.fn target (argAt c.a 8 1 == 1) false s) s)

/-- ADOPT. -/
def execAdopt (fn : Fn) (rg : RegionId) (tag : BitVec 16) (a : ArgBlock) (s : State) : Host.Outcome State Fault Refusal :=
  .next (mailCommand 0x1A .r [(0, 8)] noHref fn rg tag a (fun c s =>
    let g := s.region c.r
    if g.fw.restore.isSome || g.loading.isSome then s.done c.f eBusy
    else if g.upd.armed = false ∨ g.fw.conf = false then s.done c.f eState
    else restoreStart c.r c.fn (BitVec.ofNat 64 (argAt c.a 0 8)) false true s) s)

/-! ### Export (R391 to R393) -/

/-- FW_EXPORT. The ring lies in a handle of the region's virtual function (17 R427). -/
def execFwExport (fn : Fn) (rg : RegionId) (tag : BitVec 16) (a : ArgBlock) (s : State) : Host.Outcome State Fault Refusal :=
  .next (mailCommand 0x18 .r [(0, 4), (8, 8), (0x10, 13), (0x20, 8)] (fun _ c => some (argAt c.a 0x10 8)) fn rg tag a (fun c s =>
    let g := s.region c.r
    let size := argAt c.a 0x10 8
    let share := argAt c.a 0x1C 1
    let va := argAt c.a 0x20 8
    if g.exp.active then s.done c.f eBusy
    else if c.fn ≠ .vf c.r ∨ argAt c.a 8 8 % 64 ≠ 0 ∨ size % 64 ≠ 0 ∨ size < 0x100000 ∨ 2 ^ 32 < size ∨ share = 0 ∨ 16 < share then
      s.done c.f eRange
    else if va % 128 ≠ 0 ∨ 2 ^ 48 ≤ va then s.done c.f eBadarg
    else match s.readArg c.r va (128 * g.upd.blocks.length) with
      | (none, s) => s.done c.f eBadarg
      | (some _, s) =>
        (s.modRegion c.r (fun g => { g with exp := { g.exp with
          fn := c.fn, slot := argAt c.a 0 1, gen := BitVec.ofNat 16 (argAt c.a 1 2), base := s.hrefAddr c, size := size, every := argAt c.a 0x18 4, share := share,
          mapVa := BitVec.ofNat 48 va, want := [], head := 0, tail := 0 } })).done c.f eOk) s)

/-- NDIM of a map entry. -/
def mapNdim (e : BitVec 1024) : Nat := blkAt e 8 1
/-- ORIGIN[k]. -/
def mapOrigin (e : BitVec 1024) (k : Nat) : Nat := blkAt e (0x10 + 8 * k) 8
/-- EXTENT[k]. -/
def mapExtent (e : BitVec 1024) (k : Nat) : Nat := blkAt e (0x40 + 4 * k) 4

/-- A map entry keeps R391 for its block. -/
def mapLegal (b e : BitVec 1024) : Bool :=
  let n := mapNdim e
  decide (1 ≤ n) && decide (n ≤ 6) && blkAt e 9 7 == 0 && blkAt e 0x58 40 == 0
  && (List.range 6).all (fun k => if k < n then decide (1 ≤ mapExtent e k) else mapOrigin e k == 0 && mapExtent e k == 0)
  && ((List.range n).map (mapExtent e)).foldl (· * ·) 1 == blkCount b
  && (blkRule b != 6 || (n == 2 && mapExtent e 0 == blkCols b && mapExtent e 1 == blkRows b))

/-- ARRAY code of array `k` of a block (R393). -/
def arrayCode (b : BitVec 1024) (k : Nat) : Nat := if blkRule b = 6 ∧ k ≠ 0 then k + 2 else k

/-- The records of an export: block and ARRAY code; the context is last. -/
def exportPlan (blocks : List (BitVec 1024)) : List (Nat × Nat) :=
  blocks.zipIdx.flatMap (fun q => (List.range (blkArrays q.1).length).map (fun k => (q.2, k))) ++ [(blocks.length, 7)]

/-- EXPORT_START (R391, R392): the oldest due export begins, once the one before it has ended; the map is read and checked, and a
failed check skips the export. A read of the map that meets trouble raises its fault as well (11 R296, R309); a ring whose handle was
freed is no host buffer (17 R420, R430). -/
def execExportStart (r : RegionId) (s : State) : Host.Outcome State Fault Refusal :=
  let g := s.region r
  match g.exp.want with
  | [] => .next s
  | w :: rest =>
    if g.exp.running ∨ g.brake.halted then .next s
    else
      let s := s.modRegion r (fun g => { g with exp := { g.exp with want := rest } })
      let blocks := g.upd.blocks
      if s.ringHeld g.exp = false then .next (s.fwEvent r 3)
      else match s.readVa r g.exp.mapVa.toNat (128 * blocks.length) with
      | (.error e, s) => .next (engineFault r e (s.fwEvent r 3))
      | (.ok b, s) =>
        let map := cutBlocks blocks.length b
        if (blocks.zip map).all (fun q => mapLegal q.1 q.2) then
          .next (s.modRegion r (fun g => { g with exp := { g.exp with
            running := true, cur := w.1, curBeat := w.2, map := map, left := exportPlan blocks } }))
        else .next (s.fwEvent r 3)

/-- The header of a record (R393). -/
def recordHeader (s : State) (r : RegionId) (i k : Nat) (payload : List Byte) : List Byte :=
  let g := s.region r
  let b := g.upd.blocks.getD i 0
  let e := g.exp.map.getD i 0
  let code := if k = 7 then 7 else arrayCode b k
  let small := code = 7 ∨ code = 3 ∨ code = 4
  let origin (j : Nat) : Nat :=
    if code = 7 then 0 else if code = 3 then (if j = 0 then mapOrigin e 1 else 0)
    else if code = 4 then (if j = 0 then mapOrigin e 0 else 0) else mapOrigin e j
  let extent (j : Nat) : Nat :=
    if small then (if j ≠ 0 then 0 else if code = 7 then g.tiles.length else if code = 3 then blkRows b else blkCols b)
    else mapExtent e j
  let head := leBytes 4 0x48535946 ++ leBytes 2 1 ++ leBytes 1 (if code = 7 then 0xFF else 1)
    ++ leBytes 1 (code + (if code = 7 then 0 else blkRule b <<< 3)) ++ leBytes 8 (if code = 7 then 0 else blkAt e 0 8)
    ++ leBytes 8 g.exp.cur.toNat ++ leBytes 8 g.exp.curBeat.toNat ++ leBytes 4 (s.ident.dev.toNat + (r.toNat <<< 16))
    ++ leBytes 1 (if small then 1 else mapNdim e) ++ leBytes 3 0 ++ (List.range 6).flatMap (fun j => leBytes 8 (origin j))
    ++ (List.range 6).flatMap (fun j => leBytes 4 (extent j)) ++ leBytes 8 payload.length ++ leBytes 4 (crc32c payload)
  head ++ leBytes 4 (crc32c head)

/-- Bytes written into the ring from an offset; they may wrap across its end. -/
def ringWrite (base size off : Nat) (b : List Byte) (s : State) : State :=
  let room := size - off
  (s.hostWrite (base + off) (b.take room)).hostWrite base (b.drop room)

/-- EXPORT_RECORD (R392, R393): the next record, once the ring has room for it. A ring whose handle was freed ends the export. -/
def execExportRecord (r : RegionId) (s : State) : Host.Outcome State Fault Refusal :=
  let g := s.region r
  let x := g.exp
  match x.left with
  | [] => .next s
  | (i, k) :: rest =>
    if x.running = false ∨ g.brake.halted then .next s
    else if s.ringHeld x = false then .next (endExport r s)
    else
      let bank := (x.cur.toNat + 1) % 2
      let b := g.upd.blocks.getD i 0
      let payload := if k = 7 then s.readPa (quarterBase g.fw.ctxChan.toNat bank + g.fw.ctxOff) (32 * g.tiles.length)
        else s.readPa (quarterBase (blkChan b) bank + blkArrayOff b k) (4 * (blkArrays b).getD k 0)
      match payload with
      | .error e => .next (engineFault r e s)
      | .ok data =>
        let rec_ := recordHeader s r i k data ++ data ++ List.replicate (up64 data.length - data.length) 0
        let used := (x.head.toNat + x.size - x.tail.toNat % x.size) % x.size
        if x.size < used + rec_.length then .next s
        else
          let s := ringWrite x.base x.size x.head.toNat rec_ s
          .next (s.modRegion r (fun g => { g with exp := { g.exp with
            left := rest, head := BitVec.ofNat 32 ((x.head.toNat + rec_.length) % x.size) } }))

/-- EXPORT_COMPLETE (R392): EXP_DONE. -/
def execExportComplete (r : RegionId) (s : State) : Host.Outcome State Fault Refusal :=
  let x := (s.region r).exp
  if x.running ∧ x.left.isEmpty then
    .next ((s.modRegion r (fun g => { g with exp := { g.exp with running := false, step := x.cur } })).fwEvent r 2)
  else .next s

end Sys2Proof.Machine
end

