-- ==== Sys2Proof/Machine/Functions.lean ====
section
/-!
DEFINITION. Sys2Proof/Machine/Functions.lean: the error bounds of 07_vector_engine.md R212. Each function is computed in
fixed point far beyond the bounds; a result within its bound stands, any other gives way to the nearest one (log entry 9).
-/
namespace Sys2Proof.Machine

/-! ### Fixed point: a natural or an integer n stands for n 2^-320 -/

/-- One in fixed point. -/
def fxOne : Nat := 2 ^ 320

/-- A product in fixed point. -/
def fxMul (a b : Nat) : Nat := a * b / fxOne

/-- A magnitude m 2^e in fixed point, bits below the last dropped. -/
def fxOf (m : Nat) (e : Int) : Nat :=
  if 0 ≤ e + 320 then m <<< (e + 320).toNat else m >>> (-(e + 320)).toNat

/-- The value of a fixed-point integer. -/
def fxNum (n : Int) : Num := .fin (decide (n < 0)) n.natAbs (-320)

/-- The sum over n of u^(2n+1) / (2n+1), by `fuel` terms; `p` is the present power. -/
def atanhTerms (u2 : Nat) : Nat → Nat → Nat → Nat
  | 0, _, _ => 0
  | fuel + 1, k, p => p / (2 * k + 1) + atanhTerms u2 fuel (k + 1) (fxMul p u2)

/-- The inverse hyperbolic tangent of a fixed-point number of at most 1/3. -/
def fxAtanh (u : Nat) : Nat := atanhTerms (fxMul u u) 110 0 u

/-- ln 2. -/
def fxLn2 : Nat := 2 * fxAtanh (fxOne / 3)

/-- The arctangent series at 1/d: alternating terms, with the sign of the present one. -/
def atanTerms (d2 : Nat) : Nat → Nat → Bool → Nat → Int
  | 0, _, _, _ => 0
  | fuel + 1, k, neg, p =>
    (if neg then -((p / (2 * k + 1) : Nat) : Int) else ((p / (2 * k + 1) : Nat) : Int))
      + atanTerms d2 fuel (k + 1) (!neg) (p / d2)

/-- The circle number. -/
def fxPi : Nat := (16 * atanTerms 25 80 0 false (fxOne / 5) - 4 * atanTerms 57121 40 0 false (fxOne / 239)).toNat

/-- The exponential series: `t` is the present term. -/
def expTerms (x : Nat) : Nat → Nat → Nat → Nat
  | 0, _, _ => 0
  | fuel + 1, k, t => t + expTerms x fuel (k + 1) (fxMul t x / (k + 1))

/-- The exponential of a fixed-point number below 1. -/
def fxExp1 (x : Nat) : Nat := expTerms x 90 0 fxOne

/-- The exponential of a fixed-point number: a mantissa in fixed point and a power of two. -/
def fxExp (x : Nat) : Nat × Nat := (fxExp1 (x % fxLn2), x / fxLn2)

/-- The error function's series over the products of odd numbers: `t` is the present term, `y` twice the square. -/
def erfTerms (y : Nat) : Nat → Nat → Nat → Nat
  | 0, _, _ => 0
  | fuel + 1, k, t => t + erfTerms y fuel (k + 1) (fxMul t y / (2 * k + 3))

/-! ### The functions -/

/-- 2^x for a finite x. -/
def exp2Exact (neg : Bool) (m : Nat) (e : Int) : Num :=
  let q := fxOf m e
  let whole : Int := if neg then -((q + fxOne - 1) / fxOne : Nat) else ((q / fxOne : Nat) : Int)
  let part : Nat := if neg then (fxOne - q % fxOne) % fxOne else q % fxOne
  .fin false (fxExp1 (fxMul part fxLn2)) (whole - 320)

/-- The binary logarithm of m 2^e, m not 0. -/
def log2Exact (m : Nat) (e : Int) : Num :=
  let l := bitLen m - 1
  let z := (m <<< 320) >>> l
  let u := (z - fxOne) * fxOne / (z + fxOne)
  fxNum ((e + (l : Int)) * (fxOne : Int) + ((2 * fxAtanh u * fxOne / fxLn2 : Nat) : Int))

/-- The reciprocal of m 2^e, m not 0. -/
def rcpExact (neg : Bool) (m : Nat) (e : Int) : Num :=
  let k := bitLen m + 320
  .fin neg (2 ^ k / m) (-e - (k : Int))

/-- The reciprocal square root of m 2^e, m not 0. -/
def rsqrtExact (m : Nat) (e : Int) : Num :=
  let odd : Nat := (e % 2).toNat
  let k := 2 * (bitLen m + 320)
  .fin false (isqrt (2 ^ (2 * k) / (m <<< odd))) (-(e - (odd : Int)) / 2 - (k : Int))

/-- The hyperbolic tangent of a finite x. -/
def tanhExact (neg : Bool) (m : Nat) (e : Int) : Num :=
  let x := fxOf m (e + 1)
  if 256 * fxOne ≤ x then .fin neg 1 0
  else
    let q := fxExp x
    let y := q.1 <<< q.2
    .fin neg ((y - fxOne) * fxOne / (y + fxOne)) (-320)

/-- The error function of a finite x. -/
def erfExact (neg : Bool) (m : Nat) (e : Int) : Num :=
  let x := fxOf m e
  if 7 * fxOne ≤ x then .fin neg 1 0
  else
    let x2 := fxMul x x
    let sum := erfTerms (2 * x2) 500 0 x
    let q := fxExp x2
    let body := sum * fxOne / (q.1 <<< q.2)
    .fin neg (2 * body * fxOne / isqrt (fxPi * fxOne)) (-320)

/-- The exact function of a stage operation (R194, R212), to well beyond its bound. -/
def fnReal (op : Nat) (x : Num) : Num :=
  match x with
  | .fin neg m e =>
    match op with
    | 0x0C => exp2Exact neg m e
    | 0x0D => log2Exact m e
    | 0x0E => rcpExact neg m e
    | 0x0F => rsqrtExact m e
    | 0x10 => tanhExact neg m e
    | _ => erfExact neg m e
  | x => x

/-! ### The bounds (R212) -/

/-- The unit in the last place of a format at a magnitude: its exponent. -/
def ulpAt (f : Format) (x : Num) : Int :=
  match x with
  | .fin _ m e =>
    let u := e + (bitLen m : Int) - 1 - (f.mbits : Int)
    if m = 0 ∨ u < f.qmin then f.qmin else u
  | _ => f.qmin

/-- The larger of two magnitudes 2^a and n 2^u, as a magnitude. -/
def largerMag (a : Int) (n : Nat) (u : Int) : Nat × Int := if magLe n u 1 a then (1, a) else (n, u)

/-- How far the result of an operation at `x` may lie from the exact value `y`. -/
def fnBound (f : Format) (op : Nat) (x y : Num) : Nat × Int :=
  let u := ulpAt f y
  let wide := f == .fp64
  let nearOne := !(Num.lt x (.fin false 1 (-1))) && !(Num.lt (.fin false 2 0) x)
  match op with
  | 0x0C => (if wide then 2 else 1, u)
  | 0x0D =>
    if wide then (if nearOne then largerMag (-51) 2 u else (2, u))
    else (if nearOne then largerMag (-22) 1 u else (1, u))
  | 0x0E => (if wide then 2 else 1, u)
  | 0x0F => (if wide then 2 else 1, u)
  | _ => if wide then (1, -50) else largerMag (-24) 2 u

/-- The result `c` of an operation at `x` lies within its bound of `y`. What the fixed point dropped is allowed for. -/
def fnWithin (f : Format) (op : Nat) (x y c : Num) : Bool :=
  match c, (Num.add false c y.negate).absolute with
  | .fin _ _ _, .fin _ dm de =>
    let b := fnBound f op x y
    magLe dm de (b.1 * 2 ^ 60 + 1) (b.2 - 60)
  | _, _ => false

/-- The code of a function stage whose result R212 bounds: the free one if it is within the bound, else the nearest. -/
def fnBounded (f : Format) (op : Nat) (x : Num) (free : Nat) : Nat :=
  let y := fnReal op x
  if fnWithin f op x y (decode f free) then free else (ieeeNum f 0 y).code

end Sys2Proof.Machine
end

