-- ==== Sys2Proof/Machine/VecUnit.lean ====
section
/-!
DEFINITION. Sys2Proof/Machine/VecUnit.lean: the vector engine's arithmetic (07_vector_engine.md R182 to R212; 08 R218 to
R220): tensor descriptors, the index space, stages and element programs, the write with its scales, shadows and
summaries. A drain chain is a job over the 32 by 32 elements of a bank.
-/
namespace Sys2Proof.Machine
open Sys2Proof

/-! ### Gears (01 R24) -/

/-- FP32 lanes of a gear code. -/
def gearLanes (g : Nat) : Nat := [32, 64, 96, 160].getD g 32

/-! ### Tensor descriptors (R184 to R188) -/

/-- BASE_ROW. -/
def dBase (d : BitVec 256) : Nat := Word.bits d 0 10
/-- BYTE_OFF. -/
def dOff (d : BitVec 256) : Nat := Word.bits d 10 9
/-- FMT; a reserved code reads as FP32 and is illegal. -/
def dFmt (d : BitVec 256) : Format := (Format.ofCode (Word.bits d 19 4)).getD .fp32
/-- NDIM. -/
def dNdim (d : BitVec 256) : Nat := Word.bits d 23 3
/-- TAIL is PAD. -/
def dPadTail (d : BitVec 256) : Bool := Word.bits d 26 2 == 1
/-- RDIM. -/
def dRdim (d : BitVec 256) : Nat := Word.bits d 28 3
/-- PAD. -/
def dPad (d : BitVec 256) : Nat := Word.bits d 32 32
/-- SC_ROW times 512 plus SC_OFF. -/
def dScByte (d : BitVec 256) : Nat := Word.bits d 64 10 * 512 + Word.bits d 74 9
/-- SMODE. -/
def dSmode (d : BitVec 256) : Nat := Word.bits d 83 2
/-- Count of dimension `k`; 1 beyond NDIM. -/
def dCnt (d : BitVec 256) (k : Nat) : Nat := if k < dNdim d then Word.bits d (96 + 32 * k) 12 + 1 else 1
/-- Stride of dimension `k`. -/
def dStr (d : BitVec 256) (k : Nat) : Int := if k < dNdim d then sbits d (96 + 32 * k + 12) 20 else 0
/-- Runs: every dimension but the innermost. -/
def dRuns (d : BitVec 256) : Nat := dCnt d 1 * dCnt d 2 * dCnt d 3 * dCnt d 4

/-- SMODE is one the format may have (R117). -/
def smodeLegal (f : Format) (m : Nat) : Bool :=
  match f with
  | .e2m1 => m == 1
  | .t2 => m == 1
  | .e4m3 => decide (m ≤ 2)
  | .e5m2 => decide (m ≤ 2)
  | _ => m == 0

/-- The descriptor is legal (R185 to R187). -/
def dLegal (d : BitVec 256) : Bool :=
  let f := dFmt d
  decide (Word.bits d 19 4 < 8) && decide (1 ≤ dNdim d) && decide (dNdim d ≤ 5) && decide (Word.bits d 26 2 < 2)
  && decide (dRdim d < dNdim d) && !Word.bit d 31 && Word.bits d 85 11 == 0 && smodeLegal f (dSmode d)
  && (decide (f.width < 8) || (dOff d * 8) % f.width == 0)
  && (dSmode d != 2 || Word.bits d 74 9 % 4 == 0)
  && (List.range 5).all (fun k => decide (k < dNdim d) || Word.bits d (96 + 32 * k) 32 == 0)

/-- The outer indices of run `r`, dimension 1 fastest. -/
def dIndex (d : BitVec 256) (r k : Nat) : Nat :=
  match k with
  | 1 => r % dCnt d 1
  | 2 => r / dCnt d 1 % dCnt d 2
  | 3 => r / (dCnt d 1 * dCnt d 2) % dCnt d 3
  | 4 => r / (dCnt d 1 * dCnt d 2 * dCnt d 3)
  | _ => 0

/-- First bit of element `i0` of run `r` in tile memory (R185). -/
def dBit (d : BitVec 256) (r i0 : Nat) : Int :=
  let b : Int := (dFmt d).width
  let p0 : Int := (((dBase d * 512 + dOff d) * 8 / (dFmt d).width : Nat) : Int)
  (p0 + (i0 : Int) * dStr d 0 + ((List.range 4).map (fun k => (dIndex d r (k + 1) : Int) * dStr d (k + 1))).foldl (· + ·) 0) * b

/-- The row of a bit position; a negative one names no row (R185): 1,023. -/
def bitRow (b : Int) : Nat := if b < 0 then 1023 else b.toNat / 4096

/-- Entry of the scale array that covers element `i0` of run `r` (R186). -/
def dScale (d : BitVec 256) (r i0 : Nat) : Nat :=
  let cnt (k : Nat) : Nat := if k = dRdim d then (dCnt d k + 31) / 32 else dCnt d k
  let idx (k : Nat) : Nat :=
    let i := if k = 0 then i0 else dIndex d r k
    if k = dRdim d then i / 32 else i
  idx 0 + cnt 0 * (idx 1 + cnt 1 * (idx 2 + cnt 2 * (idx 3 + cnt 3 * idx 4)))

/-- First byte of the scale of an element. -/
def dScaleByte (d : BitVec 256) (r i0 : Nat) : Nat := if dSmode d = 1 then dScByte d + dScale d r i0 else dScByte d

/-! ### Job registers (R191, R193) -/

/-- KIND. -/
def jKind (j : BitVec 512) : Nat := Word.bits j 0 2
/-- NST. -/
def jNst (j : BitVec 512) : Nat := Word.bits j 2 4
/-- IN1_EN. -/
def jIn1 (j : BitVec 512) : Bool := Word.bit j 14
/-- SHMODE. -/
def jShmode (j : BitVec 512) : Nat := Word.bits j 23 2
/-- SUMEN. -/
def jSum (j : BitVec 512) : Bool := Word.bit j 25
/-- PROG. -/
def jProg (j : BitVec 512) : Nat := Word.bits j 26 2
/-- SLOT of SSC. -/
def jSlot (j : BitVec 512) : Nat := Word.bits j 32 6
/-- SRC of SSC. -/
def jSsrc (j : BitVec 512) : Nat := Word.bits j 38 2
/-- MARGIN of SSC. -/
def jMargin (j : BitVec 512) : Nat := Word.bits j 40 2
/-- RECORD of SSC. -/
def jRecord (j : BitVec 512) : Bool := Word.bit j 42
/-- WCVT. -/
def jWcvt (j : BitVec 512) : Nat := Word.bits j 43 6
/-- BORIENT. -/
def jBorient (j : BitVec 512) : Bool := Word.bit j 49
/-- SHPASS. -/
def jShpass (j : BitVec 512) : Word := j.extractLsb' 64 32
/-- Stage word `k`. -/
def jStage (j : BitVec 512) (k : Nat) : Word := j.extractLsb' (96 + 32 * k) 32
/-- Constant K`k`. -/
def jConst (j : BitVec 512) (k : Nat) : Nat := Word.bits j (352 + 32 * k) 32

/-- SOP. -/
def sopOf (w : Word) : Nat := Word.bits w 0 6
/-- SRC. -/
def srcOf (w : Word) : Nat := Word.bits w 6 3
/-- SEL. -/
def selOf (w : Word) : Nat := Word.bits w 9 5
/-- AUX. -/
def auxOf (w : Word) : Nat := Word.bits w 14 3
/-- DFMT. -/
def dfmtOf (w : Word) : Nat := Word.bits w 17 4
/-- CVT. -/
def cvtFld (w : Word) : Nat := Word.bits w 21 6

/-- The stage words of a job. -/
def JobSetup.stages (u : JobSetup) : List Word := (List.range (jNst u.vj)).map (jStage u.vj)
/-- The last stage is REDUCE. -/
def JobSetup.reduces (u : JobSetup) : Bool := match u.stages.getLast? with
  | some w => jKind u.vj == 0 && sopOf w == 0x14
  | none => false
/-- A drain chain. -/
def JobSetup.drain (u : JobSetup) : Bool := jKind u.vj == 2
/-- IN1 is read: present, and for a drain chain named by a stage. -/
def JobSetup.usesIn1 (u : JobSetup) : Bool :=
  jIn1 u.vj && (!u.drain || u.stages.any (fun w => srcOf w == 3))
/-- Stages that take VCQ values. -/
def JobSetup.vcqStages (u : JobSetup) : Nat := (u.stages.filter (fun w => srcOf w == 4)).length

/-! ### Width, working format, groups (R182, R183, R188) -/

/-- Bits a format counts for in w. -/
def wBits (f : Format) : Nat := max 8 f.width

/-- The job's width w. -/
def JobSetup.width (u : JobSetup) : Nat :=
  let fs : List Format := (if u.drain then [.fp32] else [dFmt u.in0]) ++ (if u.usesIn1 then [dFmt u.in1] else [])
    ++ u.bcast.map (fun e => dFmt e.2) ++ [dFmt u.out] ++ (if jShmode u.vj = 0 then [] else [.bf16])
    ++ (u.stages.filter (fun w => sopOf w == 0x12)).map (fun w => (Format.ofCode (dfmtOf w)).getD .fp32)
    ++ (u.prog.filter (fun w => Word.bits w 0 6 == 0x12)).map (fun w => (Format.ofCode (Word.bits w 24 4)).getD .fp32)
  fs.foldl (fun m f => max m (wBits f)) 8

/-- The job works in FP64 (R183). -/
def JobSetup.wide (u : JobSetup) : Bool := u.width == 64
/-- The working format. -/
def JobSetup.work (u : JobSetup) : Format := if u.wide then .fp64 else .fp32
/-- Lanes. -/
def JobSetup.lanes (u : JobSetup) : Nat := if u.drain then 32 else gearLanes u.gear.toNat
/-- G, elements of a group. -/
def JobSetup.groupSize (u : JobSetup) : Nat :=
  if u.drain then 32
  else if jKind u.vj = 1 then u.lanes
  else match u.width with
    | 8 => u.lanes * 4
    | 16 => u.lanes * 2
    | 64 => u.lanes / 4
    | _ => u.lanes
/-- CNT_0 of the index space. -/
def JobSetup.cnt0 (u : JobSetup) : Nat := if u.drain then 32 else dCnt u.in0 0
/-- Runs of the index space. -/
def JobSetup.runs (u : JobSetup) : Nat := if u.drain then 32 else dRuns u.in0
/-- Groups of a run. -/
def JobSetup.groupsPerRun (u : JobSetup) : Nat := (u.cnt0 + u.groupSize - 1) / u.groupSize
/-- PAD fills the tail positions of a group. -/
def JobSetup.padTail (u : JobSetup) : Bool := !u.drain && dPadTail u.in0
/-- The active positions of the group of run `r` that begins at `i0`. -/
def JobSetup.active (u : JobSetup) (i0 : Nat) : List Nat :=
  (List.range u.groupSize).filterMap (fun k => if i0 + k < u.cnt0 ∨ u.padTail = true then some (i0 + k) else none)

/-! ### Draws (08 R218 to R220) -/

/-- The job draws (R218). -/
def JobSetup.draws (u : JobSetup) : Bool :=
  u.stages.any (fun w => (sopOf w == 0x12 && cvtFld w % 4 == 1) || sopOf w == 0x13)
  || u.prog.any (fun w => (Word.bits w 0 6 == 0x12 && Word.bits w 28 2 == 1) || Word.bits w 0 6 == 0x13)
  || jWcvt u.vj % 4 == 1

/-- The 32 bits drawn for slot `k` of group `g` at site `site` (R219). -/
def JobSetup.draw (u : JobSetup) (g k site : Nat) : Nat :=
  let l := u.lanes
  let spread := u.wide && !u.drain
  let lane := if spread then 4 * k else k % l
  let e := if spread then 0 else k / l
  ((spoke u.key (streamNo 0 u.tsid.toNat u.tile.toNat lane) (u.pos + BitVec.ofNat 64 g) (BitVec.ofNat 32 site)).get e).toNat

/-! ### Element values -/

/-- What a value is computed with: its code in the working format, the events and the strict-mode flags raised. -/
structure Val where
  code : Nat
  ev : Events
  fl : BitVec 5

/-- A value without events. -/
def Val.pure (c : Nat) : Val := { code := c, ev := .none_, fl := 0 }

/-- Bits of a row list (the rows a stream read) from bit `b`, of a format. -/
def gotBits (got : Tab Row) (stream : Nat) (b : Int) (n : Nat) : Nat :=
  Word.bits (Tab.get 0 got (1024 * stream + bitRow b)) (b.toNat % 4096) n

/-- The scale of an element of a stream. -/
def gotScale (got : Tab Row) (stream : Nat) (d : BitVec 256) (r i0 : Nat) : Scale :=
  let by_ := dScaleByte d r i0
  let bits (n : Nat) : Nat := Word.bits (Tab.get 0 got (1024 * stream + by_ / 512)) (by_ % 512 * 8) n
  match dSmode d with
  | 1 => .ofE8M0 (bits 8)
  | 2 => .ofTensor (bits 32)
  | _ => .none_

/-- A decoded number in the working format (R183; 04 R124; strict mode 04 R133). -/
def intoWork (strict : Bool) (f src : Format) (x : Num × Events) : Val :=
  if strict then
    let r := ieeeNum f 0 x.1
    { code := r.code, ev := x.2, fl := r.flags }
  else
    let q := cvt src x.1 f (if Config.decodeSaturates then .sat else .ieee) .nearest .none_
    { code := q.1, ev := if x.2 = .none_ then q.2 else x.2, fl := 0 }

/-- An FP32 value as a code of the working format. -/
def constWork (f : Format) (c : Nat) : Nat := if f = .fp32 then c else (ieeeNum .fp64 0 (decode .fp32 c)).code

/-- A code read from a stream as a working value. In strict mode a code already in the working format is kept as it is
(R133: no operation is performed on it), and a signalling NaN raises invalid where it is converted. -/
def codeVal (u : JobSetup) (src : Format) (code : Nat) (sc : Scale) : Val :=
  if u.strict && src == u.work then .pure code
  else
    let v := intoWork u.strict u.work src (decodeScaled src code sc)
    if u.strict then { v with fl := v.fl ||| snanFlag src [code] } else v

/-- An FP32 constant, register, VCQ or bank value as an operand: on the tensor path a subnormal one is read as zero and
counts one subflush, once for each element and stage that reads it (04 R129, R183; log entry 87). -/
def constVal (u : JobSetup) (c : Nat) : Val :=
  if u.strict then codeVal u .fp32 c .none_
  else if isSub .fp32 (decode .fp32 c) then { code := 0, ev := .sub1, fl := 0 }
  else .pure (constWork u.work c)

/-- Element `i0` of run `r` of a stream: decoded where present, its PAD or +0 in the tail (R188). A broadcast vector has
one run. -/
def streamVal (u : JobSetup) (got : Tab Row) (stream : Nat) (d : BitVec 256) (r i0 : Nat) : Val :=
  if i0 < u.cnt0 then
    let code := gotBits got stream (dBit d r i0) (dFmt d).width
    codeVal u (dFmt d) code (gotScale got stream d r i0)
  else if dPadTail d then constVal u (dPad d) else .pure 0

/-- The result of an exact operation in the working format (R195, R206). -/
def result (strict : Bool) (f : Format) (codes : List Nat) (x : Num) : Val :=
  if strict then
    let r := arith f 0 codes x
    { code := r.code, ev := .none_, fl := r.flags }
  else
    let r := tensorNum f x
    { code := r.1, ev := r.2, fl := 0 }

/-- A result that IEEE 754 arithmetic gives in strict mode, and R195 otherwise. -/
def either (strict : Bool) (f : Format) (s : Flagged) (x : Num) : Val :=
  if strict then { code := s.code, ev := .none_, fl := s.flags } else
    let r := tensorNum f x
    { code := r.1, ev := r.2, fl := 0 }

/-- The code of ±1. -/
def oneCode (f : Format) (neg : Bool) : Nat := encFin f neg 1 0

/-- n if x is the integer n. -/
def asInt (x : Num) : Option Int :=
  match x with
  | .fin n m e =>
    let v : Option Nat := if e ≥ 0 then (if e ≤ 64 then some (m <<< e.toNat) else none)
      else if m % 2 ^ e.natAbs = 0 then some (m >>> e.natAbs) else none
    v.map (fun k => if n then -(k : Int) else (k : Int))
  | _ => none

/-- k if x is 2^k. -/
def asPow2 (x : Num) : Option Int :=
  match x with
  | .fin false m e => if m ≠ 0 ∧ m = 2 ^ (bitLen m - 1) then some (e + (bitLen m : Int) - 1) else none
  | _ => none

/-- The special results of R212 and NaN for NaN; none: the error bound applies. With the flags of strict mode. RSQRT of
−0 is the −Inf of IEEE 754's rSqrt, which R212 does not name (log entry 87). -/
def fnSpecial (f : Format) (op : Nat) (x : Num) : Option (Num × BitVec 5) :=
  match op, x with
  | _, .nan => some (.nan, 0)
  | 0x0C, .inf n => some (if n then .fin false 0 0 else .inf false, 0)
  | 0x0C, x => match asInt x with
    | some k =>
      if k > f.emax then some (.inf false, 0b10100) else if k < f.qmin then none else some (.fin false 1 k, 0)
    | none => if Num.lt (.fin false (f.emax.toNat + 1) 0) x then some (.inf false, 0b10100) else none
  | 0x0D, .inf n => some (if n then .nan else .inf false, if n then flInvalid else 0)
  | 0x0D, .fin n m e =>
    if m = 0 then some (.inf true, flDivZero) else if n then some (.nan, flInvalid)
    else (asPow2 (.fin n m e)).map (fun k => (.fin (decide (k < 0)) k.natAbs 0, 0))
  | 0x0E, .inf n => some (.fin n 0 0, 0)
  | 0x0E, .fin n m _ => if m = 0 then some (.inf n, flDivZero) else none
  | 0x0F, .inf n => some (if n then .nan else .fin false 0 0, if n then flInvalid else 0)
  | 0x0F, .fin n m _ => if m = 0 then some (.inf n, flDivZero) else if n then some (.nan, flInvalid) else none
  | 0x10, .inf n => some (.fin n 1 0, 0)
  | 0x11, .inf n => some (.fin n 1 0, 0)
  | _, _ => none

/-- The value `r` of a function stage is exact. -/
def fnExact (op : Nat) (x r : Num) : Bool :=
  let one : Num := .fin false 1 0
  match op with
  | 0x0E => Num.eq (x.mul r) one
  | 0x0F => Num.eq ((r.mul r).mul x) one
  | 0x10 => x.isZero && r.isZero
  | 0x11 => x.isZero && r.isZero
  | _ => false

/-- A function stage (R194, R206, R212). -/
def fnOp (strict : Bool) (f : Format) (op x : Nat) : Val :=
  let v := decode f x
  match fnSpecial f op v with
  | some (r, fl) =>
    if strict then { code := (ieeeNum f 0 r).code, ev := .none_, fl := fl ||| snanFlag f [x] }
    else
      let q := tensorNum f r
      { code := q.1, ev := q.2, fl := 0 }
  | none =>
    let c := fnBounded f op v ((Config.stageValue op (f == .fp64) (BitVec.ofNat 64 x)).toNat % 2 ^ f.width)
    let r := decode f c
    if strict then
      { code := c, ev := .none_,
        fl := if fnExact op v r then 0 else flInexact ||| (match r with
          | .inf _ => 0b00100
          | r => if isSub f r || r.isZero then 0b01000 else 0) }
    else
      let q := tensorNum f r
      { code := q.1, ev := q.2, fl := 0 }

/-- CMP codes (R194). -/
def cmpOp (f : Format) (c a b : Nat) : Bool × BitVec 5 :=
  let x := decode f a
  let y := decode f b
  let un := x == .nan || y == .nan
  let quiet := snanFlag f [a, b]
  let loud := if un then flInvalid else 0
  match c with
  | 0 => (Num.eq x y, quiet)
  | 1 => (!(Num.eq x y), quiet)
  | 2 => (Num.lt x y, loud)
  | 3 => (Num.lt x y || Num.eq x y, loud)
  | 4 => (Num.lt y x, loud)
  | _ => (Num.lt y x || Num.eq x y, loud)

/-- A CVT stage: encoded into `d` and decoded (R194, 04 R124, R133). -/
def cvtStage (strict : Bool) (f d : Format) (c r x : Nat) : Val :=
  if strict ∧ (d = .fp32 ∨ d = .fp64) then
    let q := ieeeNum d 0 (decode f x)
    let back := ieeeNum f 0 (decode d q.code)
    { code := back.code, ev := .none_, fl := q.flags ||| snanFlag f [x] }
  else
    let q := cvt (if strict then .bf16 else f) (decode f x) d (ovfOf c) (dirOfCvt c (r % 65536)) .none_
    { code := (ieeeNum f 0 (decode d q.1)).code, ev := q.2, fl := 0 }

/-- SEL and MOVY in strict mode: the operand, a NaN as the default quiet one (04 R133). -/
def copyOp (f : Format) (c : Nat) : Flagged := { code := if decode f c = .nan then encNan f else c, flags := 0 }

/-- The operation uses its first operand x (R194). -/
def usesX (op : Nat) : Bool := op != 0x13 && op != 0x15
/-- The operation uses its second operand y (R194). -/
def usesY (op : Nat) : Bool := !(op == 0x08 || op == 0x09 || (decide (0x0C ≤ op) && decide (op ≤ 0x14)))
/-- The operation uses its third operand: the addend of FMA, the false value of SEL (R194). -/
def usesZ (op : Nat) : Bool := op == 0x05 || op == 0x0B

/-- An operation of R194 but REDUCE: x, y, the third operand z, the modifier, DFMT and CVT, the draw. -/
def vecOp (strict : Bool) (f : Format) (op aux dfmt cv r x y z : Nat) : Val :=
  let a := decode f x
  let b := decode f y
  match op with
  | 0x01 => result strict f [x, y] (Num.add false a b)
  | 0x02 => result strict f [x, y] (Num.add false a b.negate)
  | 0x03 => result strict f [x, y] (Num.add false b a.negate)
  | 0x04 => result strict f [x, y] (a.mul b)
  | 0x05 => either strict f (fmaOp f 0 z x y) (Num.add false (a.mul b) (decode f z))
  | 0x06 => either strict f (minMaxOp f false x y) (Num.minNum a b)
  | 0x07 => either strict f (minMaxOp f true x y) (Num.maxNum a b)
  | 0x08 => either strict f (signOp f false x) a.absolute
  | 0x09 => either strict f (signOp f true x) a.negate
  | 0x0A =>
    let q := cmpOp f aux x y
    { code := if q.1 then oneCode f false else 0, ev := .none_, fl := if strict then q.2 else 0 }
  | 0x0B =>
    let c := if a == .nan || !a.isZero then y else z
    either strict f (copyOp f c) (decode f c)
  | 0x12 => cvtStage strict f ((Format.ofCode dfmt).getD .fp32) cv r x
  | 0x13 => .pure (ieeeNum f 0 (.fin false (r / 256) (-24))).code
  | 0x15 => either strict f (copyOp f y) b
  | op => fnOp strict f op x

/-! ### Chains and programs -/

/-- Events and flags gathered. -/
structure Tally where
  ev : Events
  fl : BitVec 5

/-- None. -/
def Tally.zero : Tally := { ev := .none_, fl := 0 }
/-- Add those of a value. -/
def Tally.note (t : Tally) (v : Val) : Tally := { ev := t.ev.add v.ev, fl := t.fl ||| v.fl }

/-- One element through the stages (R193, R194): `vcq` gives the value of the n-th VCQ stage. The decode of a stream's
element is counted once, by `laneResult`. -/
def chainLane (u : JobSetup) (got : Tab Row) (g k r i0 x : Nat) (vcq : Nat → Nat) : Nat × Tally :=
  let q := u.stages.zipIdx.foldl (fun (acc : Nat × Tally × Nat) sw =>
    let w := sw.1
    if sopOf w = 0x14 then acc
    else
      let y : Val := match srcOf w with
        | 0 => if usesY (sopOf w) then constVal u (jConst u.vj (selOf w)) else .pure 0
        | 1 => constVal u (Tab.get 0 u.regs (selOf w)).toNat
        | 2 => streamVal u got (2 + selOf w) (Tab.get 0 u.bcast (selOf w)) 0 i0
        | 3 => streamVal u got 1 u.in1 r i0
        | _ => constVal u (vcq acc.2.2)
      let read : Val := if srcOf w = 2 ∨ srcOf w = 3 then .pure 0 else y
      let z : Val := if usesZ (sopOf w) then constVal u (jConst u.vj (auxOf w)) else .pure 0
      let v := vecOp u.strict u.work (sopOf w) (auxOf w) (dfmtOf w) (cvtFld w) (u.draw g k sw.2) acc.1 y.code z.code
      (v.code, ((acc.2.1.note read).note z).note v, acc.2.2 + (if srcOf w = 4 then 1 else 0))) (x, Tally.zero, 0)
  (q.1, q.2.1)

/-- State of an element program on one lane: temporaries and predicates (R202). -/
structure StageLane where
  t : Tab Nat
  q : BitVec 4
  tally : Tally

/-- One instruction of an element program (R201, R202). -/
def progStep (u : JobSetup) (g k in0 in1 : Nat) (l : StageLane) (iw : Word × Nat) : StageLane :=
  let w := iw.1
  if l.q.getLsbD (Word.bits w 21 2) == Word.bit w 23 then l
  else
    let op := Word.bits w 0 6
    let rd (used : Bool) (n : Nat) : Val :=
      if used = false then .pure 0
      else if n < 8 then .pure (Tab.get 0 l.t n) else if n = 8 then .pure in0 else if n = 9 then .pure in1
      else if n < 15 then constVal u (jConst u.vj (n - 10)) else .pure 0
    let a := rd (usesX op) (Word.bits w 9 4)
    let b := rd (usesY op) (Word.bits w 13 4)
    let c := rd (usesZ op) (Word.bits w 17 4)
    let v := vecOp u.strict .fp32 op (Word.bits w 17 3) (Word.bits w 24 4) (Word.bits w 28 4)
      (u.draw g k (16 + iw.2)) a.code b.code c.code
    let d := Word.bits w 6 3
    let tally := (((l.tally.note a).note b).note c).note v
    if op = 0x0A then
      let p := d % 4
      { l with tally := tally, q := if p = 0 then l.q else if v.code ≠ 0 then l.q ||| (1#4 <<< p) else l.q &&& ~~~(1#4 <<< p) }
    else { l with tally := tally, t := l.t.put d v.code }

/-- One element through an element program. -/
def progLane (u : JobSetup) (g k in0 in1 : Nat) : Nat × Tally :=
  let l := u.prog.zipIdx.foldl (fun l iw => progStep u g k in0 in1 l iw) { t := [], q := 1, tally := Tally.zero }
  (Tab.get 0 l.t 0, l.tally)

/-- Key of position `i0` of run `r` among a job's results; `runKey` of a reduced run. -/
def elemKey (r i0 : Nat) : Nat := r * 8192 + i0
/-- Key of the reduced value of run `r`. -/
def runKey (r : Nat) : Nat := 2 ^ 40 + r

/-- The result of one active position. `x` is a bank's value for a drain; `vcq` its VCQ values. Decode events of every
stream count once (R183). -/
def laneResult (u : JobSetup) (got : Tab Row) (g k r i0 : Nat) (bankVal : Option Word) (vcq : Nat → Nat) : Nat × Tally :=
  let x : Val := match bankVal with
    | some v => constVal u v.toNat
    | none => streamVal u got 0 u.in0 r i0
  let y : Val := if u.usesIn1 then streamVal u got 1 u.in1 r i0 else .pure 0
  let bs := u.bcast.map (fun e => streamVal u got (2 + e.1) e.2 0 i0)
  let dec := bs.foldl Tally.note ((Tally.zero.note x).note y)
  let q := if jKind u.vj = 1 then progLane u g k x.code y.code else chainLane u got g k r i0 x.code vcq
  (q.1, { ev := dec.ev.add q.2.ev, fl := dec.fl ||| q.2.fl })

/-- An exact sum in strict mode: a sum of nothing but −0 is −0 (04 R133). -/
def strictSum (xs : List Num) : Num :=
  let s := exactSum xs
  if s.isZero && !xs.isEmpty && xs.all (fun x => match x with
    | .fin n m _ => n && m == 0
    | _ => false) then .fin true 0 0 else s

/-- REDUCE over the values of a run (R194, R195, R206). -/
def reduceVals (strict : Bool) (f : Format) (aux : Nat) (codes : List Nat) : Val :=
  let xs := codes.map (decode f)
  let keep := xs.filter (fun x => x != .nan)
  let best (g : Num → Num → Num) (l : List Num) : Val :=
    let x : Num := match l with
      | [] => .nan
      | a :: r => r.foldl g a
    either strict f { code := (ieeeNum f 0 x).code, flags := snanFlag f codes } x
  match aux with
  | 0 =>
    let s := if strict then strictSum xs else exactSum xs
    if strict then
      let r := ieeeNum f 0 s
      let new := s == .nan && xs.all (fun x => x != .nan)
      { code := r.code, ev := .none_, fl := r.flags ||| snanFlag f codes ||| (if new then flInvalid else 0) }
    else
      let r := tensorNum f s
      { code := r.1, ev := r.2, fl := 0 }
  | 1 => best Num.maxNum keep
  | 2 => best Num.minNum keep
  | _ => best (fun a b => if Num.lt a b then b else a) (keep.map Num.absolute)

/-! ### The write (R196, R197; 04 R121; 06 R168 to R170) -/

/-- The presented elements of a job: run, i0, group, slot. For REDUCE one per run, in the run's last group. -/
def JobSetup.elems (u : JobSetup) : List (Nat × Nat × Nat × Nat) :=
  let gs := u.groupSize
  let per := u.groupsPerRun
  (List.range u.runs).flatMap (fun r =>
    if u.reduces then [(r, 0, r * per + per - 1, 0)]
    else (List.range u.cnt0).map (fun i => (r, i, r * per + i / gs, i % gs)))

/-- The presented value of an element, once it is available. -/
def JobSetup.value (u : JobSetup) (res : Tab DWord) (r i0 : Nat) : Option Nat :=
  (res.find (if u.reduces then runKey r else elemKey r i0)).map (·.toNat)

/-- The element takes part in amax and summaries (R210: not the rows a gear lacks). -/
def JobSetup.counts (u : JobSetup) (r : Nat) : Bool := !u.drain || decide (r < gearRows u.gear.toNat)

/-- Block amax over the values of the output's block `q`. -/
def blockAmax (u : JobSetup) (res : Tab DWord) (q : Nat) : Num :=
  u.elems.foldl (fun m e =>
    if dScale u.out e.1 e.2.1 = q ∧ u.counts e.1 = true then
      match u.value res e.1 e.2.1 with
      | some c => amaxOf m (decode u.work c)
      | none => m
    else m) (.fin false 0 0)

/-- The scale exponent of block `q` of the output; none is the NaN scale (06 R168, R169). A negative HMAX, which only a
write of AMAX_DATA can leave, gives under HISTORY the exponent of its magnitude (log entry 88). -/
def blockScale (u : JobSetup) (res : Tab DWord) (q : Nat) : Option Int :=
  let f := dFmt u.out
  let m := jMargin u.vj
  match jSsrc u.vj, u.hmax with
  | 1, some h => scaleExp (fp32 h) f m
  | 2, some h => scaleExp (if h.msb then blockAmax u res q else amaxOf (fp32 h) (blockAmax u res q)) f m
  | _, _ => scaleExp (blockAmax u res q) f m

/-- The per-tensor scale as an FP32 code (06 R169). -/
def tensorScale (u : JobSetup) : Nat :=
  match u.hmax with
  | none => 0x3F800000
  | some h => match scaleExp (fp32 h) (dFmt u.out) (jMargin u.vj) with
    | some s => encFin .fp32 false 1 s
    | none => 0x7FC00000

/-- The scale an element of the output is written under, and whether its block has the NaN scale. -/
def elemScale (u : JobSetup) (res : Tab DWord) (r i0 : Nat) : Scale × Bool :=
  match dSmode u.out with
  | 1 => match blockScale u res (dScale u.out r i0) with
    | some s => (.pow s, false)
    | none => (.none_, true)
  | 2 => (.ofTensor (tensorScale u), false)
  | _ => (.none_, false)

/-- One presented value converted into the output's format (R196; 04 R121 for a NaN-scale block; R133). -/
def writeElem (u : JobSetup) (res : Tab DWord) (r i0 g k : Nat) (c : Nat) : Nat × Events × BitVec 5 :=
  let f := u.work
  let d := dFmt u.out
  let x := decode f c
  let cv := jWcvt u.vj
  let q := elemScale u res r i0
  if q.2 then (0, (match x with
    | .fin _ _ _ => Events.none_
    | _ => Events.nan1), 0)
  else if u.strict ∧ d = f then (c, .none_, 0)
  else if u.strict ∧ (d = .fp32 ∨ d = .fp64) then
    let w := ieeeNum d 0 x
    (w.code, .none_, w.flags ||| snanFlag f [c])
  else
    let w := cvt (if u.strict then .bf16 else f) x d (ovfOf cv) (dirOfCvt cv (u.draw g k 8 % 65536)) q.1
    (w.1, w.2, 0)

/-- Bits put into one row: what is covered, and the row. -/
structure Patch where
  mask : Nat
  bits : Nat

/-- Nothing. -/
def Patch.empty : Patch := { mask := 0, bits := 0 }

/-- `n` bits from `lo` set to `v`. -/
def Patch.put (p : Patch) (lo n v : Nat) : Patch :=
  let ones := (2 ^ n - 1) <<< lo
  { mask := p.mask ||| ones, bits := (p.bits - (p.bits &&& ones)) + ((v % 2 ^ n) <<< lo) }

/-- The patch covers the whole row. -/
def Patch.whole (p : Patch) : Bool := p.mask == 2 ^ 4096 - 1

/-- The row with the patch's bits replaced (R197). -/
def Patch.onto (p : Patch) (x : Row) : Row :=
  BitVec.ofNat 4096 ((x.toNat - (x.toNat &&& p.mask)) + p.bits)

/-- The tail positions an output run is written on to: none, its PAD value, or zero codes (R188; 04 R118, R133). -/
def JobSetup.tailCode (u : JobSetup) : Option Nat :=
  let d := dFmt u.out
  let x := fp32 (BitVec.ofNat 32 (dPad u.out))
  if dSmode u.out = 1 then some 0
  else if dPadTail u.out = false then none
  else if u.strict ∧ d = .fp32 then some (dPad u.out)
  else if u.strict ∧ d = .fp64 then some (ieeeNum .fp64 0 x).code
  else some (cvt (if u.strict then .bf16 else .fp32) x d (ovfOf (jWcvt u.vj)) .nearest
      (if dSmode u.out = 2 then .ofTensor (tensorScale u) else .none_)).1

/-- CNT_0 of what is written. -/
def JobSetup.outCnt (u : JobSetup) : Nat := if u.reduces then 1 else u.cnt0

/-- A position the output is written at: its first bit, the run and i0 it comes from, and whether it is absent. -/
structure OutPos where
  bit : Int
  r : Nat
  i0 : Nat
  gap : Bool

/-- Absent positions beyond CNT_0 of each run, on to a multiple of 32 elements (R188). -/
def JobSetup.runGaps (u : JobSetup) : List OutPos :=
  let n := u.outCnt
  if u.drain || u.tailCode.isNone then [] else
  (List.range u.runs).flatMap (fun r => (List.range ((n + 31) / 32 * 32 - n)).map (fun k =>
    { bit := dBit u.out r (n + k), r := r, i0 := n + k, gap := true }))

/-- Absent positions of the partial blocks of a block-scaled output whose reduction dimension is not dimension 0, beyond
its last index (04 R118). -/
def JobSetup.blockGaps (u : JobSetup) : List OutPos :=
  let k := dRdim u.out
  let n := dCnt u.out k
  if u.drain || dSmode u.out != 1 || k == 0 then [] else
  ((List.range u.runs).filter (fun r => dIndex u.out r k + 1 == n)).flatMap (fun r =>
    (List.range u.outCnt).flatMap (fun i => (List.range ((n + 31) / 32 * 32 - n)).map (fun e =>
      { bit := dBit u.out r i + ((e + 1 : Nat) : Int) * dStr u.out k * ((dFmt u.out).width : Int),
        r := r, i0 := i, gap := true })))

/-- Every position the output is written at. Where an absent position falls on an element's, the element stands (log entry
89). -/
def JobSetup.outPositions (u : JobSetup) : List OutPos :=
  u.runGaps ++ u.blockGaps ++
  (List.range u.runs).flatMap (fun r => (List.range u.outCnt).map (fun i =>
    { bit := dBit u.out r i, r := r, i0 := i, gap := false }))

/-- Group and slot an output position comes from. -/
def JobSetup.origin (u : JobSetup) (r i0 : Nat) : Nat × Nat :=
  let per := u.groupsPerRun
  if u.reduces ∨ u.cnt0 ≤ i0 then (r * per + per - 1, 0) else (r * per + i0 / u.groupSize, i0 % u.groupSize)

/-- The output row `row`: its patch and the events of its conversions. -/
def outPatch (u : JobSetup) (res : Tab DWord) (row : Nat) : Patch × Events × BitVec 5 :=
  let w := (dFmt u.out).width
  let base : Patch := if u.drain ∧ dFmt u.out = .t2 then { mask := 2 ^ 4096 - 1, bits := 0 } else .empty
  u.outPositions.foldl (fun acc e =>
    if bitRow e.bit ≠ row then acc
    else if e.gap then (acc.1.put (e.bit.toNat % 4096) w (u.tailCode.getD 0), acc.2)
    else
      let o := u.origin e.r e.i0
      match u.value res e.r e.i0 with
      | none => acc
      | some c =>
        let q := writeElem u res e.r e.i0 o.1 o.2 c
        (acc.1.put (e.bit.toNat % 4096) w q.1, acc.2.1.add q.2.1, acc.2.2 ||| q.2.2)) (base, .none_, 0)

/-- The scale row `row` of the output. -/
def scalePatch (u : JobSetup) (res : Tab DWord) (row : Nat) : Patch :=
  if dSmode u.out = 2 then
    (if dScByte u.out / 512 = row then Patch.empty.put (dScByte u.out % 512 * 8) 32 (tensorScale u) else .empty)
  else
    ((u.elems.map (fun e => dScale u.out e.1 e.2.1)).eraseDups).foldl (fun p q =>
      let by_ := dScByte u.out + q
      if by_ / 512 = row then p.put (by_ % 512 * 8) 8 (scaleCode (blockScale u res q)) else p) .empty

/-- Elements a B shadow keeps, in order (R211). -/
def JobSetup.shadowElems (u : JobSetup) : List (Nat × Nat × Nat × Nat) :=
  let j := auditColumn u.seed u.tile (jShpass u.vj)
  u.elems.filter (fun e => e.2.1 % 32 == j)

/-- First bit of each shadow element: run, i0, bit. -/
def JobSetup.shadowBits (u : JobSetup) : List (Nat × Nat × Int) :=
  if jShmode u.vj = 2 then
    u.shadowElems.zipIdx.map (fun q => (q.1.1, q.1.2.1, ((((dBase u.sh * 512 + dOff u.sh) * 8 + 16 * q.2 : Nat)) : Int)))
  else if jShmode u.vj = 1 then u.elems.map (fun e => (e.1, e.2.1, dBit u.sh e.1 e.2.1))
  else []

/-- The shadow row `row`: values rounded to BF16, no events; strict mode flushes no input (R211; 04 R133). -/
def shadowPatch (u : JobSetup) (res : Tab DWord) (row : Nat) : Patch :=
  u.shadowBits.foldl (fun p e =>
    if bitRow e.2.2 ≠ row then p
    else match u.value res e.1 e.2.1 with
      | none => p
      | some c => p.put (e.2.2.toNat % 4096) 16
          (cvt (if u.strict then .bf16 else u.work) (decode u.work c) .bf16 .ieee .nearest .none_).1) .empty

/-- HISTORY acting as BLOCK in a layout whose blocks are not complete at the write: the spec states no scale there. -/
def JobSetup.openScale (u : JobSetup) : Bool :=
  dSmode u.out == 1 && jSsrc u.vj == 1 && u.hmax.isNone
  && (if u.drain then jBorient u.vj && decide ((dFmt u.out).width = 8) else dRdim u.out != 0 || dStr u.out 0 != 1)

/-! ### What the end of a job leaves (R207, R208; 06 R170) -/

/-- The presented values in ordinal order that take part. -/
def JobSetup.presented (u : JobSetup) (res : Tab DWord) : List (Nat × Num) :=
  u.elems.filterMap (fun e =>
    if u.counts e.1 then (u.value res e.1 e.2.1).map (fun c => (e.1 * u.outCnt + e.2.1, decode u.work c)) else none)

/-- A finite number. -/
def Num.finite : Num → Bool
  | .fin _ _ _ => true
  | _ => false

/-- An exact value as FP32, at most its largest finite magnitude (06 R170). -/
def toFp32Max (x : Num) : Word :=
  match x with
  | .fin n m e =>
    let c := (ieeeNum .fp32 0 (.fin n m e)).code
    if c % 2 ^ 31 = 0x7F800000 then BitVec.ofNat 32 (c - 1) else BitVec.ofNat 32 c
  | _ => 0

/-- The job amax (06 R170; R196). A job none of whose presented values is finite records +0 and COUNT rises: the rule
names no value there (log entry 88). -/
def jobAmax (u : JobSetup) (res : Tab DWord) : Word :=
  toFp32Max ((u.presented res).foldl (fun m e => if e.2.finite then amaxOf m e.2 else m) (.fin false 0 0))

/-- SUM0 to SUM7 (R207). -/
def summaries (u : JobSetup) (res : Tab DWord) (ev : Events) : List Word :=
  let ps := u.presented res
  let fs := ps.filter (fun e => e.2.finite)
  let big := fs.foldl (fun (m : Option (Nat × Num)) e => match m with
    | none => some e
    | some b => if Num.lt b.2.absolute e.2.absolute then some e else some b) none
  let top := fs.foldl (fun (m : Option (Nat × Num)) e => match m with
    | none => some e
    | some b => if Num.lt b.2 e.2 then some e else some b) none
  let n (k : Nat) : Word := BitVec.ofNat 32 (min k 0xFFFFFFFF)
  [ (match big with
      | some b => rn32 b.2.absolute
      | none => 0),
    rn32 (exactSum (fs.map (·.2))), n (ps.length - fs.length), n ev.clip,
    (match top with
      | some b => BitVec.ofNat 32 b.1
      | none => 0xFFFFFFFF),
    n ev.nan, n ev.uflow, n ev.subflush ]

/-! ### Schedules (R198, R199) -/

/-- Keep the first of equal rows. -/
def dedup (l : List Nat) : List Nat := l.foldl (fun acc x => if acc.contains x then acc else acc ++ [x]) []

/-- The rows stream `n` needs for the positions `is` of run `r`, given the last data and scale row it read: new rows in
order, and the last of each. -/
def streamRows (d : BitVec 256) (r : Nat) (is : List Nat) (last : Option Nat × Option Nat) :
    List Nat × (Option Nat × Option Nat) :=
  let data := (dedup (is.map (fun i => bitRow (dBit d r i)))).filter (fun x => some x ≠ last.1)
  let sc := if dSmode d = 0 then [] else
    (dedup (is.map (fun i => dScaleByte d r i / 512))).filter (fun x => some x ≠ last.2)
  (data ++ sc, (match data.getLast? with
    | some x => some x
    | none => last.1), match sc.getLast? with
    | some x => some x
    | none => last.2)

/-- The streams of a job: number and descriptor; a broadcast vector's run is 0. -/
def JobSetup.streams (u : JobSetup) : List (Nat × BitVec 256) :=
  (if u.drain then [] else [(0, u.in0)]) ++ (if u.usesIn1 then [(1, u.in1)] else [])
  ++ u.bcast.map (fun e => (2 + e.1, e.2))

/-- Groups from number `g` on, `n` of them, the first to start in cycle `at_`. `last` keeps what each stream read last. -/
def scheduleFrom (u : JobSetup) : Nat → Nat → Nat → Tab (Option Nat × Option Nat) → List VGroup
  | 0, _, _, _ => []
  | n + 1, g, at_, last =>
    let per := u.groupsPerRun
    let r := g / per
    let i0 := g % per * u.groupSize
    let is := (List.range u.groupSize).filterMap (fun k => if i0 + k < u.cnt0 then some (i0 + k) else none)
    let q := u.streams.map (fun s => (s.1, streamRows s.2 (if s.1 < 2 then r else 0) is (Tab.get (none, none) last s.1)))
    let most := q.foldl (fun m e => max m e.2.1.length) 0
    let c := if u.drain then 1 else max (if jKind u.vj = 1 then u.prog.length else 1) most
    let reads := q.flatMap (fun e => e.2.1.zipIdx.map (fun x => (e.1, x.1, at_ + x.2)))
    { start := at_, len := c, index := r, base := i0, reads := reads } ::
      scheduleFrom u n (g + 1) (at_ + c) (q.foldl (fun m e => m.put e.1 e.2.2) last)

/-- The groups of a job whose first group starts in cycle `at_`. -/
def JobSetup.schedule (u : JobSetup) (at_ : Nat) : List VGroup := scheduleFrom u (u.runs * u.groupsPerRun) 0 at_ []

/-- The cycle in which the result of group `g` is available (R199). -/
def JobSetup.avail (u : JobSetup) (gs : List VGroup) (g : Nat) : Nat :=
  match gs[g]? with
  | some q => q.start + q.len + 1 + 4 * (if jKind u.vj = 1 then u.prog.length else jNst u.vj)
  | none => 0

/-- Note row `row` as last written in cycle `c`. -/
def noteRow (m : Tab Nat) (row c : Nat) : Tab Nat := m.put row (max (Tab.get 0 m row) c)

/-- Rows in the order they become ready, the lower first where several do in one cycle. -/
def insertReady (x : Nat × Nat) : List (Nat × Nat) → List (Nat × Nat)
  | [] => [x]
  | y :: r => if x.2 < y.2 ∨ (x.2 = y.2 ∧ x.1 ≤ y.1) then x :: y :: r else y :: insertReady x r

/-- At most one row a cycle (R211): of rows ready in one cycle the lower goes first and the others follow, one a cycle
(log entry 90). -/
def oneACycle (l : List (Nat × Nat)) : List (Nat × Nat) :=
  ((l.foldr insertReady []).foldl (fun (a : List (Nat × Nat) × Nat) e =>
    let c := max e.2 a.2
    (a.1 ++ [(e.1, c)], c + 1)) ([], 0)).1

/-- Every row the job writes: row, cycle, and 0 data, 1 scale, 2 shadow (R196, R199, R211). -/
def JobSetup.writeList (u : JobSetup) (gs : List VGroup) : List (Nat × Nat × Nat) :=
  let ready : Tab Nat := u.outPositions.foldl (fun (m : Tab Nat) e =>
    noteRow m (bitRow e.bit) (u.avail gs (u.origin e.r e.i0).1)) []
  let data : Tab Nat := (oneACycle ready).foldl (fun m e => m.put e.1 e.2) []
  let scale : Tab Nat := match dSmode u.out with
    | 0 => []
    | 2 => noteRow [] (dScByte u.out / 512) (data.foldl (fun (m : Nat) e => max m e.2) 0)
    | _ => u.elems.foldl (fun (m : Tab Nat) e =>
        noteRow m ((dScByte u.out + dScale u.out e.1 e.2.1) / 512) (Tab.get 0 data (bitRow (dBit u.out e.1 e.2.1)))) []
  let shadow : Tab Nat := u.shadowBits.foldl (fun (m : Tab Nat) e => noteRow m (bitRow e.2.2) (u.avail gs (u.origin e.1 e.2.1).1)) []
  data.map (fun e => (e.1, e.2, 0)) ++ (oneACycle scale).map (fun e => (e.1, e.2, 1))
  ++ (oneACycle shadow).map (fun e => (e.1, e.2, 2))

/-- A write covers its row only in part, so the row is read two cycles before (R197). -/
def JobSetup.merges (u : JobSetup) (row kind : Nat) : Bool :=
  match kind with
  | 0 =>
    let w := (dFmt u.out).width
    let p := u.outPositions.foldl (fun (p : Patch) e =>
      if bitRow e.bit = row then p.put (e.bit.toNat % 4096) w 0 else p) .empty
    !(p.whole || (u.drain && dFmt u.out == .t2))
  | 1 => !(scalePatch u [] row).whole
  | _ =>
    let p := u.shadowBits.foldl (fun (p : Patch) e => if bitRow e.2.2 = row then p.put (e.2.2.toNat % 4096) 16 0 else p) .empty
    !p.whole

end Sys2Proof.Machine
end

