-- ==== Sys2Proof/Machine/JobUnit.lean ====
section
/-!
DEFINITION. Sys2Proof/Machine/JobUnit.lean: jobs of a tile in time: what a job is issued with and when it is legal (07
R187 to R193, R209, R210), its reads, groups and writes cycle by cycle (R198, R199), and its end (R207, R208).
-/
namespace Sys2Proof.Machine
open Sys2Proof

/-! ### Issue -/

/-- The dense 32 by 32 descriptor a drain chain uses: BASE_ROW, FMT, PAD and the scale fields of `d`, with the reduction
dimension and byte offset given (R209, R210). -/
def denseDesc (d : BitVec 256) (off rdim : Nat) : BitVec 256 :=
  BitVec.ofNat 256 (dBase d + (off <<< 10) + (Word.bits d 19 4 <<< 19) + (2 <<< 23) + (rdim <<< 28) + (dPad d <<< 32)
    + (Word.bits d 64 21 <<< 64) + (31 <<< 96) + (1 <<< 108) + (31 <<< 128) + (32 <<< 140))

/-- `d` with the format BF16 and no scale: a shadow (R211). -/
def shadowDesc (d : BitVec 256) : BitVec 256 := Word.put (Word.put d 19 4 2) 83 2 0

/-- The element program of store `p` usable in cycle `now` (R189). -/
def VecSt.program (v : VecSt) (p now : Nat) : List Word :=
  match (Tab.get [] v.progs p).find? (fun e => decide (e.1 ≤ now)) with
  | some e => e.2
  | none => []

/-- Everything a job of register `n` is issued with in this cycle (R190). A drain's IN1 and SH are taken in their dense form
when they are legal; an illegal one stands as it is, and faults (R187, R209). -/
def jobSetup (i : Site) (n : Nat) (s : State) : JobSetup :=
  let x := s.tile i.t
  let g := s.region i.r
  let v := x.vec
  let vj := v.vj.get n
  let stages := (List.range (jNst vj)).map (jStage vj)
  let vd (k : Nat) : BitVec 256 := v.vd.get k
  let drain := jKind vj == 2
  let in1 := vd (Word.bits vj 10 4)
  let out := vd (Word.bits vj 15 4)
  let sh := vd (Word.bits vj 19 4)
  let b : Nat := if jBorient vj then 1 else 0
  { vj := vj, in0 := vd (Word.bits vj 6 4),
    in1 := if drain && dLegal in1 then denseDesc in1 (dOff in1) (min 1 (dRdim in1)) else in1,
    out := if drain then denseDesc out (dOff out) b else out,
    sh := if dLegal sh = false then sh
      else if drain then shadowDesc (denseDesc sh (if jShmode vj = 2 then dOff sh else 0) 0) else shadowDesc sh,
    bcast := stages.foldl (fun (m : Tab (BitVec 256)) w => if srcOf w = 2 then m.put (selOf w) (vd (selOf w)) else m) [],
    prog := if jKind vj = 1 then v.program (jProg vj) i.now else [],
    regs := stages.foldl (fun (m : Tab Word) w => if srcOf w = 1 then m.put (selOf w) (x.ctl.reg (selOf w)) else m) [],
    strict := x.vmode g i.t && !drain, gear := BitVec.ofNat 2 (g.gear i.t), tile := i.t, key := v.key, tsid := v.tsid,
    pos := v.pos, seed := x.guards.seed, hmax := (x.guards.slot (jSlot vj)).hmax, num := n, pc := i.pc }

/-- The stage word is legal (R193, R194). -/
def stageLegal (u : JobSetup) (async last : Bool) (w : Word) : Bool :=
  let op := sopOf w
  let src := srcOf w
  let noY := op == 0x08 || op == 0x09 || (decide (0x0C ≤ op) && decide (op ≤ 0x14))
  decide (1 ≤ op) && decide (op ≤ 0x15) && decide (src ≤ 4) && Word.bits w 27 5 == 0
  && (match src with
      | 0 => decide (selOf w ≤ 4)
      | 1 => true
      | 2 => decide (selOf w ≤ 15)
      | _ => selOf w == 0)
  && (!noY || (src == 0 && selOf w == 0))
  && (src != 3 || jIn1 u.vj) && (src != 4 || async)
  && (op != 0x05 || decide (auxOf w ≤ 4)) && (op != 0x0B || decide (auxOf w ≤ 4)) && (op != 0x0A || decide (auxOf w ≤ 5))
  && (op != 0x14 || (last && !u.drain && decide (auxOf w ≤ 3) && dCnt u.out 0 == 1))
  && (op != 0x12 || (match Format.ofCode (dfmtOf w) with
      | some d => cvtFld w / 16 == 0 && cvtLegal (cvtFld w) u.work d u.strict
      | none => false))

/-- The instruction of an element program is legal (R201). -/
def progLegal (u : JobSetup) (w : Word) : Bool :=
  let op := Word.bits w 0 6
  decide (1 ≤ op) && decide (op ≤ 0x15) && op != 0x14
  && (op != 0x0A || decide (Word.bits w 17 3 ≤ 5))
  && (jIn1 u.vj || ((!usesX op || Word.bits w 9 4 != 9) && (!usesY op || Word.bits w 13 4 != 9)
      && (!usesZ op || Word.bits w 17 4 != 9)))
  && (op != 0x12 || (match Format.ofCode (Word.bits w 24 4) with
      | some d => cvtLegal (Word.bits w 28 4) .fp32 d u.strict
      | none => false))

/-- Same NDIM and counts as the index space, dimension 0 aside when `free0`: a REDUCE job's output (R192, R194). -/
def sameSpace (u : JobSetup) (d : BitVec 256) (free0 : Bool) : Bool :=
  dNdim d == dNdim u.in0 && (List.range 5).all (fun k => (free0 && k == 0) || dCnt d k == dCnt u.in0 k)

/-- The write's conversion and scale source are legal (R192, R196, R210; 06 R168; 04 R123). -/
def writeLegal (u : JobSetup) : Bool :=
  let f := dFmt u.out
  let c := jWcvt u.vj
  let m := dSmode u.out
  decide (c / 16 % 4 = m) && cvtLegal c u.work f u.strict
  && (m == 0 || (decide (jSsrc u.vj < 3) && (m != 2 || jSsrc u.vj == 1)))
  && (m != 1 || jSsrc u.vj == 1 || u.drain ||
      (dRdim u.out == 0 && dStr u.out 0 == 1 && (dOff u.out * 8) % (32 * f.width) == 0
        && (List.range 4).all (fun k => dStr u.out (k + 1) % 32 == 0)))

/-- The job register and its descriptors are legal for VRUN and VRUNA (R187, R191, R192). -/
def jobLegal (u : JobSetup) (async : Bool) : Bool :=
  let vj := u.vj
  let k := jKind vj
  let ns := jNst vj
  decide (k < 2) && (if k = 0 then decide (1 ≤ ns) && decide (ns ≤ 8) else ns == 0)
  && jShmode vj != 3 && Word.bits vj 28 4 == 0 && Word.bits vj 50 14 == 0
  && (List.range 8).all (fun n => decide (n < ns) || jStage vj n == 0)
  && dLegal u.in0 && dLegal u.out && (!jIn1 vj || (dLegal u.in1 && sameSpace u u.in1 false))
  && u.bcast.all (fun e => dLegal e.2 && dNdim e.2 == 1 && dCnt e.2 0 == u.cnt0)
  && (jShmode vj == 0 || (dLegal u.sh && sameSpace u u.sh false))
  && sameSpace u u.out u.reduces
  && u.stages.zipIdx.all (fun e => stageLegal u async (e.2 + 1 == ns) e.1)
  && (k != 1 || (!u.prog.isEmpty && u.prog.all (progLegal u) && u.width != 64))
  && writeLegal u

/-- The job register is legal for MDRAIN (R209, R210). -/
def drainLegal (u : JobSetup) : Bool :=
  let vj := u.vj
  let ns := jNst vj
  let f := dFmt u.out
  let out := u.out
  jKind vj == 2 && decide (ns ≤ 8) && (ns != 0 || f == .fp32)
  && jShmode vj != 3 && Word.bits vj 28 4 == 0 && Word.bits vj 50 14 == 0
  && (List.range 8).all (fun n => decide (n < ns) || jStage vj n == 0)
  && decide (Word.bits out 19 4 < 8) && dOff out == 0 && f != .fp64 && smodeLegal f (dSmode out)
  && (dSmode out != 1 || Word.bits out 74 9 % 32 == 0) && (dSmode out != 2 || Word.bits out 74 9 % 4 == 0)
  && (!u.usesIn1 || dLegal u.in1) && (jShmode vj == 0 || dLegal u.sh)
  && u.bcast.all (fun e => dLegal e.2 && dNdim e.2 == 1 && dCnt e.2 0 == 32)
  && u.stages.all (fun w => stageLegal u false false w)
  && (jShmode vj != 2 || dOff u.sh % 64 == 0)
  && writeLegal u
  && !(jBorient vj && dSmode out == 1 && jSsrc vj != 1 && f != .e2m1 && f != .t2)

/-- A drawing job takes its base position and moves SPK_POS on (08 R218). -/
def takeDraws (u : JobSetup) (x : Tile) : Tile :=
  if u.draws then { x with vec := { x.vec with pos := x.vec.pos + BitVec.ofNat 64 (u.runs * u.groupsPerRun) } } else x

/-- The cycles in which a job's groups enter stage 1 (R199, R200). -/
def entersAt (gs : List VGroup) : List Nat := gs.map (fun q => q.start + q.len + 1)

/-- Jobs and drains of the tile that claim stage 1 in a cycle of `cs`. -/
def clashing (cs : List Nat) (j : Job) : Bool := (entersAt j.groups).any (fun c => cs.contains c)

/-- Stage 1 is claimed twice: the results of every job involved are undefined (R200; 03 R103). -/
def Tile.junkJobs (x : Tile) (cs : List Nat) : Tile :=
  { x with
    vec := { x.vec with jobs := x.vec.jobs.map (fun j => if clashing cs j then { j with junk := true } else j) },
    matrix := { x.matrix with drains := x.matrix.drains.map (fun d =>
      if clashing cs d.job then { d with job := { d.job with junk := true } } else d) } }

/-- A job issued in cycle `now` whose first group starts in cycle `at_`. -/
def JobSetup.begin_ (u : JobSetup) (now at_ : Nat) : Job :=
  let gs := u.schedule at_
  let ws := u.writeList gs
  { setup := u, groups := gs, got := [], res := [], writes := ws, ends := ws.foldl (fun m e => max m e.2.1) 0 + 1,
    events := .none_, flags := 0, issue := now, junk := false, async := false }

/-! ### Cycle by cycle (R198, R199) -/

/-- Number of active lanes before position `i0` of run `r` (R204: element order). -/
def JobSetup.laneNo (u : JobSetup) (r i0 : Nat) : Nat :=
  if u.padTail then r * (u.groupsPerRun * u.groupSize) + i0 else r * u.cnt0 + i0

/-- The values of the active positions of a group: key, result. -/
def groupResults (u : JobSetup) (got : Tab Row) (q : VGroup) (bank : Nat → Option (List Word)) (vcq : List Word) :
    List (Nat × Nat) × Tally :=
  let g := q.index * u.groupsPerRun + q.base / u.groupSize
  (u.active q.base).foldl (fun acc i0 =>
    let bv := (bank q.index).map (fun l => l.getD i0 0)
    let v := laneResult u got g (i0 - q.base) q.index i0 bv
      (fun n => (vcq.getD (u.laneNo q.index i0 * u.vcqStages + n) 0).toNat)
    (acc.1 ++ [(elemKey q.index i0, v.1)], { ev := acc.2.ev.add v.2.ev, fl := acc.2.fl ||| v.2.fl })) ([], Tally.zero)

/-- Free values in place of results. -/
def junkResults (w : Nat) : List (Nat × Nat) → State → List (Nat × Nat) × State
  | [], s => ([], s)
  | e :: rest, s =>
    let (v, s) := s.draw 64
    let q := junkResults w rest s
    ((e.1, v.toNat % 2 ^ w) :: q.1, q.2)

/-- Evaluate a group: its results are presented, and the run's reduction with its last group. Its events are kept with the
job. -/
def evalGroup (q : VGroup) (bank : Nat → Option (List Word)) (vcq : List Word) (j : Job) (s : State) : Job × State :=
  let u := j.setup
  let v := groupResults u j.got q bank vcq
  let w := if j.junk then junkResults u.work.width v.1 s else (v.1, s)
  let res := w.1.foldl (fun (m : Tab DWord) e => m.put e.1 (BitVec.ofNat 64 e.2)) j.res
  let red : Option Val :=
    if u.reduces ∧ u.cnt0 ≤ q.base + u.groupSize then
      let n := if u.padTail then u.groupsPerRun * u.groupSize else u.cnt0
      let codes := (List.range n).map (fun i => (Tab.get 0 res (elemKey q.index i)).toNat)
      let aux := auxOf ((u.stages.getLast?).getD 0)
      some (reduceVals u.strict u.work aux codes)
    else none
  let res := match red with
    | some r => res.put (runKey q.index) (BitVec.ofNat 64 r.code)
    | none => res
  let ev := match red with
    | some r => v.2.ev.add r.ev
    | none => v.2.ev
  let fl := match red with
    | some r => v.2.fl ||| r.fl
    | none => v.2.fl
  ({ j with res := res, events := j.events.add ev, flags := j.flags ||| fl }, w.2)

/-- Key of a merge read. -/
def mergeKey (row kind : Nat) : Nat := 1024 * (40 + kind) + row

/-- The patch of a write of the job and its events. -/
def Job.patch (j : Job) (row kind : Nat) : Patch × Events × BitVec 5 :=
  match kind with
  | 0 => outPatch j.setup j.res row
  | 1 => (scalePatch j.setup j.res row, .none_, 0)
  | _ => (shadowPatch j.setup j.res row, .none_, 0)

/-- The row a write of the job leaves, over what was read. -/
def writeData (j : Job) (row kind : Nat) (old : Row) (s : State) : Row × Job × State :=
  let p := j.patch row kind
  let j1 := { j with events := j.events.add p.2.1, flags := j.flags ||| p.2.2 }
  if j.setup.openScale && kind != 2 then
    let (v, s) := s.draw 4096
    (p.1.onto old &&& ~~~(BitVec.ofNat 4096 p.1.mask) ||| (v &&& BitVec.ofNat 4096 p.1.mask), j1, s)
  else (p.1.onto old, j1, s)

/-- A read of the schedule for a job: into `got`, or a fault of the job's bundle. -/
def jobRead (r : RegionId) (slot : Slot) (key row : Nat) (j : Job) (s : State) : Job × State :=
  let t := j.setup.tile
  let site := some (slot, j.setup.pc)
  match readRowFault row with
  | some c => (j, s.raise r (some t) site c row)
  | none => match s.readRow r t row j.issue site with
    | (_, some w, s) => (j, s.raise r (some t) site fTmemPoison (row + (w <<< 16)))
    | (v, none, s) => ({ j with got := j.got.put key v }, s)

/-- A write of the schedule for a job. -/
def jobWrite (r : RegionId) (slot : Slot) (row kind : Nat) (j : Job) (s : State) : Job × State :=
  let t := j.setup.tile
  let site := some (slot, j.setup.pc)
  match writeRowFault row with
  | some c => (j, s.raise r (some t) site c (row % 1024))
  | none =>
    let q := writeData j row kind (Tab.get 0 j.got (mergeKey row kind)) s
    (q.2.1, q.2.2.writeRow r t row q.1 site)

/-- The events that a job has had since it had those of `a`. -/
def Events.since (b a : Events) : Events :=
  { clip := b.clip - a.clip, uflow := b.uflow - a.uflow, nan := b.nan - a.nan, subflush := b.subflush - a.subflush }

/-- One region cycle `c` of a job: reads, the group whose reads are done, merge reads, writes; the cycle's events go to the
headroom counters (06 R165, R166). `lag` is 1 for a drain. -/
def jobCycle (r : RegionId) (slot : Slot) (lag c : Nat) (bank : Nat → Option (List Word)) (j : Job) (s : State) : Job × State :=
  let reads := j.groups.flatMap (fun q => q.reads.filter (fun e => e.2.2 == c))
  let q := reads.foldl (fun (a : Job × State) e => jobRead r slot (1024 * e.1 + e.2.1) e.2.1 a.1 a.2) (j, s)
  let q := (j.groups.filter (fun g => g.start + g.len - 1 + lag == c)).foldl
    (fun (a : Job × State) g => evalGroup g bank [] a.1 a.2) q
  let q := (j.writes.filter (fun w => w.2.1 == c + 2 && j.setup.merges w.1 w.2.2)).foldl
    (fun (a : Job × State) w => jobRead r slot (mergeKey w.1 w.2.2) w.1 a.1 a.2) q
  let q := (j.writes.filter (fun w => w.2.1 == c)).foldl (fun (a : Job × State) w => jobWrite r slot w.1 w.2.2 a.1 a.2) q
  (q.1, q.2.modTile j.setup.tile (fun x => { x with guards := x.guards.add (q.1.events.since j.events) }))

/-- What the end of a job leaves in its tile: summaries and flags (R206 to R208), and the events of an asynchronous one (06
R167). -/
def Tile.endJob (x : Tile) (j : Job) : Tile :=
  let u := j.setup
  let sums := summaries u j.res j.events
  { x with
    vec := { x.vec with
      sum := if jSum u.vj then sums.zipIdx.foldl (fun (m : Cells 32) e => m.put e.2 e.1) x.vec.sum else x.vec.sum,
      vfsr := x.vec.vfsr ||| j.flags },
    guards := if j.async then x.guards.add j.events else x.guards }

/-- The amax record of a job (06 R170). -/
def Tile.recordJob (x : Tile) (j : Job) : Tile :=
  let u := j.setup
  let g := x.guards
  if dSmode u.out != 0 && jRecord u.vj then
    { x with guards := { g with
        slots := g.slots.put (jSlot u.vj) ((Tab.get ScaleSlot.reset g.slots (jSlot u.vj)).push (jobAmax u j.res)) } }
  else x

/-- Place of a job in the order of R171: drain chains first, then by job register. -/
def Job.rank (j : Job) : Nat := if j.setup.drain then 0 else 1 + j.setup.num

/-- Insert a job in that order. -/
def insertJob (j : Job) : List Job → List Job
  | [] => [j]
  | k :: r => if j.rank < k.rank then j :: k :: r else k :: insertJob j r

/-- A job ends in this region cycle. -/
def Tile.jobOver (x : Tile) (j : Job) : Tile := { x with vec := { x.vec with ended := insertJob j x.vec.ended } }

/-- At the end of a region cycle the jobs that ended in it take effect in order; the amax of a static job or a drain is
recorded in the cycle after (06 R171), that of an asynchronous job at once (07 R203). -/
def Tile.endJobs (x : Tile) : Tile :=
  let v := x.vec
  let due := (v.ended.filter (fun j => j.async)).foldl (fun l j => insertJob j l) v.recording
  let y : Tile := { x with vec := { v with ended := [], recording := v.ended.filter (fun j => !j.async) } }
  due.foldl Tile.recordJob (v.ended.foldl Tile.endJob y)

end Sys2Proof.Machine
end

