-- ==== Sys2Proof/Machine/Matrix.lean ====
section
/-!
DEFINITION. Sys2Proof/Machine/Matrix.lean: the matrix array (05_matrix_array.md R135 to R164) and its audit column
(06 R174 to R178): the M-slot operations, the operand feed, updates and the drain.
-/
namespace Sys2Proof.Machine
open Sys2Proof

/-! ### Pass descriptors (R141 to R147) -/

/-- K. -/
def mdK (d : BitVec 128) : Nat := Word.bits d 64 13
/-- Format of operand A (`false`) or B. -/
def mdFmt (d : BitVec 128) (b : Bool) : Format := (Format.ofCode (Word.bits d (if b then 56 else 52) 4)).getD .fp32
/-- The operand is block-scaled. -/
def mdBlk (d : BitVec 128) (b : Bool) : Bool := Word.bit d (if b then 61 else 60)
/-- OPSEL. -/
def mdOp (d : BitVec 128) : Nat := Word.bits d 77 3
/-- COMP. -/
def mdComp (d : BitVec 128) : Bool := Word.bit d 80
/-- AUDIT. -/
def mdAudit (d : BitVec 128) : Bool := Word.bit d 83
/-- R, the ramp length. -/
def mdRamp (d : BitVec 128) : Nat := 16 * (Word.bits d 81 2 + 1)
/-- Width of the wider operand. -/
def mdWidth (d : BitVec 128) : Nat := max (mdFmt d false).width (mdFmt d true).width
/-- Four times u, the operand cycles of a step (R141). -/
def mdU4 (d : BitVec 128) : Nat :=
  match mdWidth d with
  | 32 => 16 | 16 => 8 | 8 => 4 | 4 => 2 | _ => 1
/-- Region cycles of an operand cycle: 2 in compensated mode (R160). -/
def mdStretch (d : BitVec 128) : Nat := if mdComp d then 2 else 1
/-- Operand cycles of the pass (R142). -/
def mdCycles (d : BitVec 128) : Nat := (mdK d * mdU4 d + 3) / 4

/-- MPASS may start with the descriptor into the bank (R147). -/
def mdLegal (d : BitVec 128) (bank : Bool) : Bool :=
  let ok (b : Bool) : Bool :=
    let c := Word.bits d (if b then 56 else 52) 4
    let f := mdFmt d b
    decide (1 ≤ c) && decide (c < 8)
    && (match f with
        | .e2m1 => mdBlk d b
        | .t2 => mdBlk d b
        | .fp32 => !mdBlk d b
        | .bf16 => !mdBlk d b
        | .fp16 => !mdBlk d b
        | _ => true)
    && (mdOp d == 0 || (f != .e2m1 && f != .t2))
  ok false && ok true && decide (1 ≤ mdK d) && decide (mdK d ≤ 4096) && mdOp d != 7
  && !(mdComp d && (bank || mdOp d != 0))
  && Word.bits d 30 2 == 0 && Word.bits d 62 2 == 0 && Word.bits d 84 44 == 0

/-! ### The operand feed (R150) -/

/-- Index of the row of a stream read in cycle `c`: streams start in cycle `start` and read `n` rows, one a `period`. -/
def feedIndex (start period n c : Nat) : Option Nat :=
  if start ≤ c ∧ (c - start) % period = 0 ∧ (c - start) / period < n then some ((c - start) / period) else none

/-- The rows a pass reads in cycle `c`: stream, index, row (R150, 06 R175). -/
def passReads (p : Pass) (c : Nat) : List (Nat × Nat × Nat) :=
  let d := p.md
  let u4 := mdU4 d
  let m := mdStretch d
  let w := mdWidth d
  let data (b : Bool) : Nat := (mdCycles d * (32 * (mdFmt d b).width / w) + 511) / 512
  let period (b : Bool) : Nat := 16 * w / (mdFmt d b).width * m
  let scales := (mdK d + 511) / 512
  let one (k start per n base : Nat) : List (Nat × Nat × Nat) :=
    match feedIndex (p.first - start) per n c with
    | some i => [(k, i, base + i)]
    | none => []
  (if mdBlk d false then one 0 6 (128 * u4 * m) scales (Word.bits d 20 10) else [])
  ++ (if mdBlk d true then one 1 5 (128 * u4 * m) scales (Word.bits d 32 10) else [])
  ++ one 2 4 (period false) (data false) (Word.bits d 0 10)
  ++ one 3 3 (period true) (data true) (Word.bits d 10 10)
  ++ (if mdAudit d then one 4 2 (2 * u4 * m) ((mdK d + 7) / 8) (Word.bits d 42 10) else [])
  ++ (if mdAudit d then one 5 1 (64 * u4 * m) ((mdK d + 255) / 256) (Word.bits d 42 10 + (mdK d + 7) / 8) else [])

/-- Key of a row the feed has read. -/
def feedKey (stream i : Nat) : Nat := 4096 * stream + i

/-! ### Operands and updates (R138, R139, R154 to R160) -/

/-- Element `i` of step `s` of an operand, decoded and scaled, and what the feed counts for it (R156). -/
def operand (p : Pass) (b : Bool) (i s : Nat) : Num × Events :=
  let d := p.md
  let f := mdFmt d b
  let bit := (32 * s + i) * f.width
  let n : Nat := if b then 1 else 0
  let code := Word.bits (Tab.get 0 p.got (feedKey (2 + n) (bit / 4096))) (bit % 4096) f.width
  let sb := 32 * (s / 32) + i
  let sc : Scale := if mdBlk d b then
      .ofE8M0 (Word.bits (Tab.get 0 p.got (feedKey n (sb / 512))) (sb % 512 * 8) 8) else .none_
  let q := decodeScaled f code sc
  if isSub f q.1 then (.fin false 0 0, .sub1) else q

/-- A shadow operand (06 R175). -/
def shadowOperand (p : Pass) (b : Bool) (i s : Nat) : Num :=
  let e := if b then s else 32 * s + i
  let k := if b then 5 else 4
  decode .bf16 (Word.bits (Tab.get 0 p.got (feedKey k (e / 256))) (e % 256 * 16) 16)

/-- The INIT value of an operation (R157). -/
def initValue (op : Nat) : Nat := if op = 1 then 0x7F800000 else if op = 2 then 0xFF800000 else 0

/-- One update of an accumulator by the operand pairs of an operand cycle (R154, R155, R157, R158). -/
def update (op acc : Nat) (ab : List (Num × Num)) : Nat × Events :=
  let x := decode .fp32 acc
  if x = .nan then (0x7FC00000, .none_)
  else match op with
    | 0 => tensorNum .fp32 (exactSum (x :: ab.map (fun e => e.1.mul e.2)))
    | op =>
      ab.foldl (fun (s : Nat × Events) e =>
        let v := decode .fp32 s.1
        let r : Option Num := match op with
          | 1 => match Num.add false e.1 e.2 with
            | .nan => none
            | t => some (Num.minNum v t)
          | 2 => match Num.add false e.1 e.2 with
            | .nan => none
            | t => some (Num.maxNum v t)
          | 3 => some (Num.add false v (Num.add false e.1 e.2.negate).absolute)
          | 4 =>
            let t := Num.add false e.1 e.2.negate
            some (Num.add false v (t.mul t))
          | 5 => if Num.lt e.2 e.1 then some (Num.add false v (.fin false 1 0)) else none
          | _ => if Num.eq e.1 e.2 then some (Num.add false v (.fin false 1 0)) else none
        match r with
        | none => s
        | some n =>
          let q := tensorNum .fp32 n
          (q.1, s.2.add q.2)) (acc, .none_)

/-- One compensated update of the sum and the error term (R160). -/
def compUpdate (s e : Nat) (ab : List (Num × Num)) : (Nat × Nat) × Events :=
  let t := exactSum (ab.map (fun q => q.1.mul q.2))
  let sum := Num.add false (decode .fp32 s) t
  let s1 := tensorNum .fp32 sum
  let e1 := tensorNum .fp32 (Num.add false (decode .fp32 e) (Num.add false sum (decode .fp32 s1.1).negate))
  ((s1.1, e1.1), s1.2.add e1.2)

/-! ### The array in time (R137, R141, R142) -/

/-- Reduction steps taken together: those of an operand cycle, or one step that takes several (R141). -/
def mdPer (d : BitVec 128) : Nat := if mdWidth d ≤ 8 then 8 / mdWidth d else 1

/-- Groups of steps of a pass. -/
def mdGroups (d : BitVec 128) : Nat := (mdK d + mdPer d - 1) / mdPer d

/-- The steps of group `g`; absent steps at the end add nothing (R142). -/
def mdSteps (d : BitVec 128) (g : Nat) : List Nat :=
  (List.range (mdPer d)).filterMap (fun k => if g * mdPer d + k < mdK d then some (g * mdPer d + k) else none)

/-- Region cycles a group of steps takes. -/
def mdPeriod (d : BitVec 128) : Nat := max 1 (mdU4 d / 4) * mdStretch d

/-- The group, if any, that is `after` cycles past its first operand cycle in region cycle `c`. -/
def Pass.groupAt (p : Pass) (c after : Nat) : Option Nat :=
  if c < p.first + after then none
  else
    let q := c - (p.first + after)
    if q % mdPeriod p.md = 0 ∧ q / mdPeriod p.md < mdGroups p.md then some (q / mdPeriod p.md) else none

/-- Cycles from the first operand cycle of a group to the last cycle in which cell (i, j) does not hold its update: the last
operand cycle reaches the cell i + j later, and 3 cycles after that the update stands (R137). -/
def updateLag (d : BitVec 128) (i j : Nat) : Nat := mdPeriod d - 1 + i + j + 2

/-- The cells of one diagonal, i + j = `n`, of `rows` rows. -/
def diagonal (rows n : Nat) : List (Nat × Nat) :=
  (List.range rows).filterMap (fun i => if i ≤ n ∧ n - i < 32 then some (i, n - i) else none)

/-- The updates of cells that a pass makes in cycle `c`: cell and group. -/
def Pass.updates (p : Pass) (rows c : Nat) : List (Nat × Nat × Nat) :=
  (List.range (rows + 31)).flatMap (fun n => match p.groupAt c (updateLag p.md 0 n) with
    | some g => (diagonal rows n).map (fun e => (e.1, e.2, g))
    | none => [])

/-- The updates of audit cells, with the timing of column 31 (R137; 06 R176). -/
def Pass.auditUpdates (p : Pass) (rows c : Nat) : List (Nat × Nat) :=
  if mdAudit p.md then (List.range rows).filterMap (fun i => (p.groupAt c (updateLag p.md i 31)).map (fun g => (i, g))) else []

/-- The events of the feed in cycle `c`: each element is decoded as it enters at its edge, element i of A in row i, element j
of B in column j, with the first operand cycle of its step (R156). -/
def Pass.feedEvents (p : Pass) (rows c : Nat) : Events :=
  let one (b : Bool) (n : Nat) : Events := (List.range n).foldl (fun ev i => match p.groupAt c i with
    | some g => (mdSteps p.md g).foldl (fun ev s => ev.add (operand p b i s).2) ev
    | none => ev) Events.none_
  (one false rows).add (one true 32)

/-- The values of a bank, the error bank and the audit accumulator. -/
structure Bank where
  acc : Cells 32
  err : Cells 32
  aud : Cells 32

/-- Bank `b` of the array. -/
def MatSt.bank (m : MatSt) (b : Bool) : Bank :=
  if b then { acc := m.acc1, err := [], aud := m.aud1 } else { acc := m.acc0, err := m.acc1, aud := m.aud0 }

/-- `m` with bank `b` replaced; a compensated pass also writes ACC1. -/
def MatSt.setBank (m : MatSt) (b comp : Bool) (x : Bank) : MatSt :=
  if b then { m with acc1 := x.acc, aud1 := x.aud }
  else { m with acc0 := x.acc, acc1 := if comp then x.err else m.acc1, aud0 := x.aud }

/-- The update of cell (i, j) by group `g` of a pass (R154 to R160): the bank and the events. With INIT the first group
starts from the INIT value. -/
def Pass.cell (p : Pass) (i j g : Nat) (b : Bank) : Bank × Events :=
  let k := 32 * i + j
  let op := mdOp p.md
  let fresh := p.init && g == 0
  let pairs := (mdSteps p.md g).map (fun s => ((operand p false i s).1, (operand p true j s).1))
  let s0 := if fresh then initValue op else (b.acc.get k).toNat
  if mdComp p.md then
    let n := compUpdate s0 (if fresh then 0 else (b.err.get k).toNat) pairs
    ({ b with acc := b.acc.put k (BitVec.ofNat 32 n.1.1), err := b.err.put k (BitVec.ofNat 32 n.1.2) }, n.2)
  else
    let n := update op s0 pairs
    ({ b with acc := b.acc.put k (BitVec.ofNat 32 n.1) }, n.2)

/-- The update of audit cell `i` by group `g` (06 R176). It counts nothing. -/
def Pass.auditCell (p : Pass) (i g : Nat) (b : Bank) : Bank :=
  let op := mdOp p.md
  let a0 := if p.init && g == 0 then initValue op else (b.aud.get i).toNat
  let n := (update op a0 ((mdSteps p.md g).map (fun s => (shadowOperand p false i s, shadowOperand p true 0 s)))).1
  { b with aud := b.aud.put i (BitVec.ofNat 32 n) }

/-- A free value in a cell of each kind of a bank. -/
def junkCell (k : Nat) (b : Bank) (s : State) : Bank × State :=
  let (v, s) := s.draw 32
  let (e, s) := s.draw 32
  ({ b with acc := b.acc.put k v, err := b.err.put k e }, s)

/-- A free value in an audit cell. -/
def junkAudit (i : Nat) (b : Bank) (s : State) : Bank × State :=
  let (v, s) := s.draw 32
  ({ b with aud := b.aud.put i v }, s)

/-- The updates of cycle `c` by a pass whose contents are defined, and its events with those of its feed. -/
def Pass.step (p : Pass) (rows c : Nat) (b : Bank) : Bank × Events :=
  let q := (p.updates rows c).foldl (fun (a : Bank × Events) e =>
    let n := p.cell e.1 e.2.1 e.2.2 a.1
    (n.1, a.2.add n.2)) (b, p.feedEvents rows c)
  ((p.auditUpdates rows c).foldl (fun b e => p.auditCell e.1 e.2 b) q.1, q.2)

/-- The updates of cycle `c` by a pass in error: undefined contents (R148, R159, R161). -/
def Pass.junkStep (p : Pass) (rows c : Nat) (b : Bank) (s : State) : Bank × State :=
  let q := (p.updates rows c).foldl (fun (a : Bank × State) e => junkCell (32 * e.1 + e.2.1) a.1 a.2) (b, s)
  (p.auditUpdates rows c).foldl (fun (a : Bank × State) e => junkAudit e.1 a.1 a.2) q

/-- The whole of a bank becomes undefined (R148, R159): ACC1 with its own rows, whatever the pass. -/
def junkBank (r : RegionId) (t : TileId) (bank : Bool) (s : State) : State :=
  let rows := gearRows ((s.region r).gear t)
  let b := (s.tile t).matrix.bank bank
  let q := (List.range (32 * rows)).foldl (fun (a : Bank × State) k => junkCell k a.1 a.2) (b, s)
  let q := (List.range rows).foldl (fun (a : Bank × State) i => junkAudit i a.1 a.2) q
  q.2.modTile t (fun x => { x with matrix := x.matrix.setBank bank false q.1 })

/-! ### M slot (R144) -/

/-- First operand cycle of an MPASS issued in cycle `now`, and whether it conflicts (R148). A conflicting pass takes I + 6, and
with it the L of the next: the rule gives it none (log entry 98). -/
def firstOperand (last : Option Nat) (ramp now : Nat) : Nat × Bool :=
  match last with
  | none => (now + 8 + ramp, false)
  | some l =>
    if now + 5 < l then (now + 6, true)
    else if now + 2 ≤ l then (now + 6, false)
    else if now ≤ l + 56 then (now + 8, false)
    else (now + 8 + ramp, false)

/-- Drains that a pass into `bank` with its first operand in cycle `o` meets (R159): they read the bank, or both. -/
def Drain.meets (q : Drain) (bank comp : Bool) (o : Nat) : Bool :=
  (q.bank == bank || q.mode == 1 || comp) && decide (o < q.at_ + 3)

/-- Passes that a drain issued in cycle `now` meets (R159, R161): one whose operands begin later is no breach. -/
def Pass.meets (p : Pass) (bank : Bool) (mode : BitVec 2) (now : Nat) : Bool :=
  (p.bank == bank || mode == 1 || mdComp p.md) && decide (p.first < now + 3) && decide (now < p.first + p.cycles + 31)

/-- The banks a pass or a drain concerns become undefined. -/
def junkBanks (r : RegionId) (t : TileId) (bank both : Bool) (s : State) : State :=
  let s := junkBank r t bank s
  if both then junkBank r t (!bank) s else s

/-- Start a pass (R148, R159, R161; 06 R174, R177). A conflict leaves undefined what it and the passes it cuts into
accumulate. A pass issued while a compensated one is in the array is reported as ACC_MISUSE with its own bank, and a plain
pass still filling when a compensated one starts is no error: the rules give no code for the first and do not name the
second (log entry 98). -/
def startPass (i : Site) (d : BitVec 128) (bank init : Bool) (s : State) : State :=
  let m := (s.tile i.t).matrix
  let o := firstOperand m.lastOp (mdRamp d) i.now
  let f := gearRows ((s.region i.r).gear i.t) + 32
  let comp := m.passes.any (fun p => mdComp p.md && decide (o.1 < p.first + p.cycles + f))
  let drains := m.drains.any (fun q => q.meets bank (mdComp d) o.1)
  let misuse := drains || comp
  let s := if o.2 then s.hazard i.r i.t i.mark hSlotConflict 0x10 else s
  let s := if misuse then s.hazard i.r i.t i.mark hAccMisuse (if bank then 1 else 0) else s
  let s := if o.2 || misuse then
      junkBanks i.r i.t bank (mdComp d || comp || m.drains.any (fun q => q.mode == 1 && q.meets bank (mdComp d) o.1)) s
    else s
  let cycles := mdCycles d * mdStretch d
  i.tile s (fun x =>
    let m := x.matrix
    let v : Nat := if bank then 1 else 0
    let col : Word := BitVec.ofNat 32 (auditColumn x.guards.seed i.t m.passNo)
    let valid := if init then (if mdAudit d then m.valid ||| (1#2 <<< v) else m.valid &&& ~~~(1#2 <<< v))
      else if mdAudit d then m.valid else m.valid &&& ~~~(1#2 <<< v)
    { x with matrix := { m with
        valid := valid, passNo := m.passNo + 1, lastOp := some (o.1 + cycles - 1),
        init0 := if init && !bank then col else m.init0, init1 := if init && bank then col else m.init1,
        drains := m.drains.map (fun q => if q.meets bank (mdComp d) o.1 then { q with job := { q.job with junk := true } } else q),
        passes := m.passes.map (fun p => if (o.2 && decide (o.1 < p.first + p.cycles)) || (comp && mdComp p.md)
            then { p with junk := true } else p)
          ++ [{ md := d, bank := bank, init := init, first := o.1, cycles := cycles, pc := i.pc,
                passNo := m.passNo, got := [], issue := i.now, junk := o.2 || misuse }] } })

/-- MPASS (R144 to R148): a continuation reads its first A scale row in its issue cycle, under 02 R77. -/
def execMpass (t : TileId) (w : SlotWord) (s : State) : Host.Outcome State Fault Refusal :=
  .next (slotOp .m 0x01 t w (fun i _ => encoding 0x01 i.w (zeroAt i.w 0 17))
    (fun i s =>
      let m := (s.tile i.t).matrix
      let d := m.md.get (reg3Of i.w)
      let bank := Word.bit i.w 18
      if mdLegal d bank = false then .fault s fIllegalOp i.w.toNat
      else
        let o := firstOperand m.lastOp (mdRamp d) i.now
        let rows := if o.1 = i.now + 6 ∧ mdBlk d false = true then [(Word.bits d 20 10, false)] else []
        rowCheck i s rows (fun _ => .ok (startPass i d bank (Word.bit i.w 17) s))) s)

/-- MDLD (R145). -/
def execMdld (t : TileId) (w : SlotWord) (s : State) : Host.Outcome State Fault Refusal :=
  .next (slotOp .m 0x03 t w (fun i _ => encoding 0x03 i.w (wField i.w % 4 == 0 && zeroAt i.w 7 12))
    (fun i s => .ok (i.tile s (fun x =>
      { x with matrix := { x.matrix with
          md := x.matrix.md.put (reg3Of i.w) (BitVec.ofNat 128 (srbWords x.ctl.srb (wField i.w) 4)) } }))) s)

/-- Start a drain (R159, R161, R163, R164, R209; 06 R177, 08 R218). -/
def startDrain (i : Site) (u : JobSetup) (bank : Bool) (mode : BitVec 2) (s : State) : State :=
  let m := (s.tile i.t).matrix
  let port := match m.lastDrain with
    | some l => decide (i.now < l + 32)
    | none => false
  let misuse := m.passes.any (fun p => p.meets bank mode i.now)
  let s := if port then s.hazard i.r i.t i.mark hSlotConflict 0x11 else s
  let s := if misuse then s.hazard i.r i.t i.mark hAccMisuse (if bank then 1 else 0) else s
  let s := if misuse then
      junkBanks i.r i.t bank (mode == 1 || m.passes.any (fun p => mdComp p.md && p.meets bank mode i.now)) s
    else s
  let j := u.begin_ i.now (i.now + 2)
  let cs := entersAt j.groups
  let clash := (s.tile i.t).vec.jobs.any (clashing cs)
  let s := if clash then s.hazard i.r i.t i.mark hSlotConflict 0x20 else s
  i.tile s (fun x =>
    let x := takeDraws u (x.junkJobs cs)
    let m := x.matrix
    let v : Nat := if bank then 1 else 0
    let y : Tile := { x with matrix := { m with
        lastDrain := some i.now, valid := m.valid &&& ~~~(1#2 <<< v),
        passes := m.passes.map (fun p => if p.meets bank mode i.now then { p with junk := true } else p),
        drains := m.drains ++ [{ job := { j with junk := port || misuse || clash }, at_ := i.now, bank := bank, mode := mode,
                                 rows := [], audit := m.valid.getLsbD v,
                                 col := (if bank then m.init1 else m.init0).toNat % 32, noted := false }] } }
    y.expecting (j.writes.map (fun w => (w.1, w.2.1))) i)

/-- MDRAIN (R144, R162, R209). -/
def execMdrain (t : TileId) (w : SlotWord) (s : State) : Host.Outcome State Fault Refusal :=
  .next (slotOp .m 0x02 t w
    (fun i _ => encoding 0x02 i.w (zeroAt i.w 0 16 && decide (Word.bits i.w 19 2 ≤ 1)
      && !(Word.bit i.w 21 && Word.bits i.w 19 2 == 1)))
    (fun i s =>
      let u := jobSetup i (Word.bits i.w 16 3) s
      if drainLegal u = false then .fault s fIllegalOp i.w.toNat
      else .ok (startDrain i u (Word.bit i.w 21) (i.w.extractLsb' 19 2) s)) s)

/-! ### Cycle by cycle -/

/-- One region cycle `c` of a pass: its feed reads; a fault leaves its result undefined. -/
def passCycle (r : RegionId) (t : TileId) (c : Nat) (p : Pass) (s : State) : Pass × State :=
  (passReads p c).foldl (fun (a : Pass × State) q =>
    let site := some (Slot.m, p.pc)
    match readRowFault q.2.2 with
    | some f => ({ a.1 with junk := true }, a.2.raise r (some t) site f (q.2.2 % 1024))
    | none => match a.2.readRow r t q.2.2 p.issue site with
      | (_, some w, s) => ({ a.1 with junk := true }, s.raise r (some t) site fTmemPoison (q.2.2 + (w <<< 16)))
      | (v, none, s) => ({ a.1 with got := a.1.got.put (feedKey q.1 q.2.1) v }, s)) (p, s)

/-- Row `i` of the bank as the drain reads it (R161, R162), and the events of MODE 1's rounding (R155; 04 R129). -/
def drainRow (m : MatSt) (bank : Bool) (mode : BitVec 2) (i : Nat) : List Word × Events :=
  (List.range 32).foldl (fun (a : List Word × Events) j =>
    let k := 32 * i + j
    if mode = 1 then
      let v := tensorNum .fp32 (Num.add false (decode .fp32 (m.acc0.get k).toNat) (decode .fp32 (m.acc1.get k).toNat))
      (a.1 ++ [BitVec.ofNat 32 v.1], a.2.add v.2)
    else (a.1 ++ [if bank then m.acc1.get k else m.acc0.get k], a.2)) ([], Events.none_)

/-- The largest of magnitudes. -/
def maxMag (l : List Num) : Num := l.foldl (fun a b => if Num.lt a b.absolute then b.absolute else a) (.fin false 0 0)

/-- The audit sample of a drain (06 R178). -/
def auditSample (rows : Nat) (d : Drain) (x : Tile) : Tile :=
  let m := x.matrix
  let is := List.range rows
  let cs := is.map (fun i => decode .fp32 ((Tab.get [] d.rows i).getD d.col 0).toNat)
  let rs := is.map (fun i => decode .fp32 ((if d.bank then m.aud1 else m.aud0).get i).toNat)
  let g := x.guards
  if (cs ++ rs).any (fun v => !v.finite) then { x with guards := { g with audNf := Word.satAdd g.audNf 1 } }
  else
    let num := maxMag ((cs.zip rs).map (fun q => Num.add false q.1 q.2.negate))
    let den := maxMag (rs ++ [.fin false 1 (-126)])
    let e := rnAudit (num.div den)
    { x with guards := { g with
        audLast := e, audMax := if Num.lt (fp32 g.audMax) (fp32 e) then e else g.audMax,
        audSum := rnAudit (Num.add false (fp32 g.audSum) (fp32 e)), audN := Word.satAdd g.audN 1,
        audCol := BitVec.ofNat 5 d.col } }

/-- The row that leaves the bank in cycle `c`: row i in I_d + 2 + i (R163). Free values after a lower-level error. -/
def drainTake (t : TileId) (c : Nat) (d : Drain) (s : State) : Drain × State :=
  if c < d.at_ + 2 ∨ d.at_ + 34 ≤ c then (d, s)
  else
    let i := c - d.at_ - 2
    if d.job.junk then
      let (v, s) := s.draw 1024
      ({ d with rows := d.rows.put i ((List.range 32).map (fun j => v.extractLsb' (32 * j) 32)) }, s)
    else
      let q := drainRow (s.tile t).matrix d.bank d.mode i
      ({ d with rows := d.rows.put i q.1, job := { d.job with events := d.job.events.add q.2 } },
       s.modTile t (fun x => { x with guards := x.guards.add q.2 }))

/-- One region cycle `c` of a drain: the row it takes, its chain, and in I_d + 36 its audit sample (06 R178). -/
def drainCycle (r : RegionId) (t : TileId) (c : Nat) (d : Drain) (s : State) : Drain × State :=
  let a := drainTake t c d s
  let q := jobCycle r .m 1 c (fun i => a.1.rows.find i) a.1.job a.2
  let d : Drain := { a.1 with job := q.1 }
  if d.audit && decide (c = d.at_ + 36) then (d, q.2.modTile t (auditSample (gearRows ((q.2.region r).gear t)) d)) else (d, q.2)

/-- The updates a pass makes in cycle `c`, and the events of its feed. -/
def passUpdate (r : RegionId) (t : TileId) (c : Nat) (s : State) (p : Pass) : State :=
  let rows := gearRows ((s.region r).gear t)
  let m := (s.tile t).matrix
  if p.junk then
    let q := p.junkStep rows c (m.bank p.bank) s
    q.2.modTile t (fun x => { x with matrix := x.matrix.setBank p.bank (mdComp p.md) q.1 })
  else
    let q := p.step rows c (m.bank p.bank)
    s.modTile t (fun x => { x with matrix := x.matrix.setBank p.bank (mdComp p.md) q.1, guards := x.guards.add q.2 })

/-- One region cycle `c` of the array: every pass reads, every drain takes its row before the cycle's updates. A drain whose
end has been noted goes. -/
def matrixCycle (r : RegionId) (t : TileId) (c : Nat) (s : State) : State :=
  let ps := (s.tile t).matrix.passes.foldl (fun (a : List Pass × State) p =>
    let q := passCycle r t c p a.2
    (a.1 ++ [q.1], q.2)) ([], s)
  let s := ps.2.modTile t (fun x => { x with matrix := { x.matrix with passes := ps.1 } })
  let ds := (s.tile t).matrix.drains.foldl (fun (a : List Drain × State) d =>
    let q := drainCycle r t c d a.2
    (a.1 ++ [q.1], q.2)) ([], s)
  let s := ds.2.modTile t (fun x => { x with matrix := { x.matrix with drains := ds.1.filter (fun d => !d.noted) } })
  ps.1.foldl (passUpdate r t c) s

/-- MATRIX_PASS_COMPLETE (R151): from O + P + F on the bank holds the complete result and the pass is no more in flight. -/
def execMatrixPassComplete (t : TileId) (s : State) : Host.Outcome State Fault Refusal :=
  match s.moving t with
  | none => .next s
  | some r =>
    let g := s.region r
    let rows := gearRows (g.gear t)
    .next (s.modTile t (fun x => { x with matrix := { x.matrix with
      passes := x.matrix.passes.filter (fun p => !p.complete rows g.cycle) } }))

/-- DRAIN_COMPLETE (R163; 06 R171): the drain's last write is complete; its summaries and its amax record follow. -/
def execDrainComplete (t : TileId) (s : State) : Host.Outcome State Fault Refusal :=
  match s.moving t with
  | none => .next s
  | some r =>
    let x := s.tile t
    let now := (s.region r).cycle
    let done := x.matrix.drains.filter (fun d => !d.noted && decide (d.job.ends ≤ now))
    let y : Tile := { x with matrix := { x.matrix with
      drains := x.matrix.drains.map (fun d => if d.job.ends ≤ now then { d with noted := true } else d) } }
    .next (s.setTile t (done.foldl (fun y d => y.jobOver d.job) y))

end Sys2Proof.Machine
end

