-- ==== Sys2Proof/Machine/Reset.lean ====
section
/-!
DEFINITION. Sys2Proof/Machine/Reset.lean: the reset sources, the release order, warm reset, block resets and hub firmware
(18_reset_clocks_power.md R443 to R452, R459); PWRGOOD and the rails (19_pins_and_package.md R470, R471).
-/
namespace Sys2Proof.Machine
open Sys2Proof

/-! ### Sources and their overlap (18 R443 to R446) -/

/-- Cause code. -/
def Source.code : Source → Nat
  | .powerOn => 1 | .coldPin => 2 | .warmPin => 3 | .perst => 4 | .watchdog => 5 | .cmdCold => 6 | .cmdWarm => 7 | .thermal => 8

/-- How much a source clears, widest highest. -/
def Source.level : Source → Nat
  | .powerOn => 4
  | .coldPin => 3 | .cmdCold => 3 | .thermal => 3
  | .warmPin => 2 | .cmdWarm => 2
  | .watchdog => 1
  | .perst => 0

/-- The reset is contained in the one in progress and so absorbed (18 R445). PERST_N is disjoint from a warm reset. -/
def State.absorbs (s : State) (k : Source) : Bool := match s.resets.source with
  | none => false
  | some p => if k = .perst then decide (3 ≤ p.level) else decide (k.level < p.level)

/-- A reset is counted and recorded (18 R444). -/
def recordReset (k : Source) (s : State) : State :=
  { s with resets := { s.resets with
      count := s.resets.count + 1, cause := BitVec.ofNat 4 k.code, history := s.resets.history ||| (1#8 <<< (k.code - 1)) } }

/-- A fuse pulse is in progress (18 R446). -/
def State.pulsing (s : State) : Bool := s.fuses.pulse.isSome || s.fuses.revokePulse.isSome

/-- What power-on and cold reset leave (18 R443): all but the backup domain and the fuses is cleared, every memory page marked. Outside
conditions the part only senses (regulator faults), what the regulators were last sent, and the JTAG port stand. -/
def coldClear (s : State) : State :=
  { State.reset with
    pending := s.pending, wall := s.wall, beats := s.beats, beatAt := s.beatAt, free := s.free, order := s.order,
    fuses := { s.fuses with pulse := none, revokePulse := none },
    hub := { Hub.reset with hostOut := s.hub.hostOut, jtag := s.hub.jtag },
    power := { Power.reset with vset := s.power.vset, vrBad := s.power.vrBad, vrAlert := s.power.vrAlert },
    resets := { s.resets with ready := false, plan := [], dies := 0, warm := false, source := none, cmd := [], held := [],
                              heldFlr := [], blkResult := 0, blk := none } }

/-- The steps of the release order begin. -/
def beginOrder (k : Source) (plan : List Nat) (s : State) : State :=
  { s with resets := { s.resets with source := some k, plan := plan, dies := 0, ready := false } }

/-- A thermal hold ends once every sensor is below 100 degrees and COLD_RST_N has been pulsed (18 R459; 19 R473). -/
def thermCheck (s : State) : State :=
  if s.resets.thermHold && s.resets.thermCool && s.resets.thermPulsed then
    { s with resets := { s.resets with thermHold := false, thermtrip := false } }
  else s

/-- What a source does besides the reset: a trip asserts THERMTRIP_N and holds the order; a pulse of COLD_RST_N counts for the end of
that hold (18 R459). -/
def sourceMarks (k : Source) (s : State) : State := match k with
  | .thermal => { s with resets := { s.resets with thermHold := true, thermtrip := true, thermCool := false, thermPulsed := false } }
  | .coldPin => thermCheck { s with resets := { s.resets with thermPulsed := true } }
  | _ => s

/-- A cold reset. -/
def doCold (k : Source) (s : State) : State := sourceMarks k (beginOrder k [2, 3, 4, 5, 6, 7, 8] (coldClear s))

/-- Every region is left unconfigured, as revoke leaves its units; memory keeps its contents and marks (18 R448). -/
def dropRegion (r : RegionId) (s : State) : State :=
  let s := if (s.region r).cfg.isSome then clearUnits r (stopRegion r s) else s
  s.modRegion r (fun g => { g.revoked with cfg := none, st := .unconfigured, digest := 0 })

/-- Every function with a mailbox in use. -/
def State.busyMail (s : State) : List Nat := (s.hub.mail.filter (fun e => e.2.busy)).map (·.1)

/-- The scrubber of a tile in reset: it has no row to write back and stands at no row (02 R74). -/
def TileHw.still (h : TileHw) : TileHw := { h with wb := none, pass := 0, behind := [], window := 0, had := 0 }

/-- A warm reset (18 R448, R449). -/
def doWarm (k : Source) (s : State) : State :=
  let s := s.doneAll s.busyMail eState
  let s := allRegions.foldl (fun s r => dropRegion r s) s
  let s := { s with
    tiles := [], undo := [], objs := [], tilesAt := none, hw := Tab.mapVals (fun (_ : Nat) (h : TileHw) => h.still) s.hw, parity := s.parity.filter (fun h => h.region.isNone), stopped := [],
    hub := { s.hub with bufs := Tab.mapVals (fun (_ : Nat) (t : Tab Buffer) => Tab.mapVals (fun (_ : Nat) (b : Buffer) => b.free) t) s.hub.bufs },
    frame := { s.frame with epoch := s.frame.epoch + 1, loading := none, store := s.frame.store.filter (fun q => q.1 == 1) } }
  beginOrder k [2, 8] { s with resets := { s.resets with warm := true } }

/-- The hub processor restarts from the image it holds: commands in flight complete with E_TIMEOUT (18 R443). -/
def hubRestart (s : State) : State := s.doneAll s.busyMail eTimeout

/-- Every function. -/
def allFns : List Fn := .pf :: allRegions.map .vf

/-- The endpoint is reset, as an FLR of every function (18 R443). -/
def endpointReset (s : State) : State := allFns.foldl (fun s f => flr f s) s

/-- A reset that is not absorbed is counted and made. Of an absorbed one only the reset is absorbed: a trip still asserts THERMTRIP_N and
holds the order (18 R445, R459). -/
def makeReset (k : Source) (s : State) : State :=
  if s.absorbs k then sourceMarks k s
  else
    let s := recordReset k s
    match k with
    | .powerOn => doCold k s
    | .coldPin => doCold k s
    | .cmdCold => doCold k s
    | .thermal => doCold k s
    | .warmPin => doWarm k s
    | .cmdWarm => doWarm k s
    | .watchdog => hubRestart s
    | .perst => endpointReset s

/-- A reset arrives: during a fuse pulse it is held (18 R446). -/
def arriveReset (k : Source) (s : State) : State :=
  if s.resets.pwrgood = false then s
  else if s.pulsing then { s with resets := { s.resets with held := s.resets.held ++ [k] } }
  else makeReset k s

/-- A pulse has ended: the resets it held proceed (18 R446). -/
def heldResets (s : State) : State :=
  let ks := s.resets.held
  let fs := s.resets.heldFlr
  ks.foldl (fun s k => makeReset k s)
    (fs.foldl (fun s f => flr f s) { s with resets := { s.resets with held := [], heldFlr := [] } })

/-- RETIRE_FUSE_PULSE_END: the entry is read back (01 R20). -/
def execRetireFusePulseEnd (readback : Bool) (s : State) : Host.Outcome State Fault Refusal :=
  match s.fuses.pulse with
  | none => .next s
  | some (fn, col) =>
    .next (heldResets ((programEntry col readback s).finish (fnNo fn) 0x03 (if readback then eOk else eTimeout)))

/-- REVOKE_FUSE_PULSE_END (01 R32). -/
def execRevokeFusePulseEnd (s : State) : Host.Outcome State Fault Refusal :=
  match s.fuses.revokePulse with
  | none => .next s
  | some (fn, k) =>
    let s := { s with fuses := { s.fuses with revoked := s.fuses.revoked ||| (1#4 <<< k.toNat), revokePulse := none } }
    .next (heldResets (s.finish (fnNo fn) 0x04 eOk))

/-! ### Pins (18 R443, R459; 19 R470, R471) -/

/-- A low pulse of `ns` nanoseconds on a reset input: taken, not taken, or either (19 R471). -/
def pulseTaken (ns : Nat) (s : State) : Bool × State :=
  if ns < 100 then (false, s)
  else if ns < 1000 then
    let q := s.draw 1
    (q.1 == 1, q.2)
  else (true, s)

/-- COLD_RST_N. -/
def execColdRstN (ns : Nat) (s : State) : Host.Outcome State Fault Refusal :=
  let q := pulseTaken ns s
  .next (if q.1 then arriveReset .coldPin q.2 else q.2)

/-- WARM_RST_N. -/
def execWarmRstN (ns : Nat) (s : State) : Host.Outcome State Fault Refusal :=
  let q := pulseTaken ns s
  .next (if q.1 then arriveReset .warmPin q.2 else q.2)

/-- PERST_N. -/
def execPerstN (s : State) (ns : Nat := 1000) : Host.Outcome State Fault Refusal :=
  let q := pulseTaken ns s
  .next (if q.1 then arriveReset .perst q.2 else q.2)

/-- HUB_WATCHDOG: the hub processor runs and has not kicked for 100 ms. -/
def execHubWatchdog (s : State) : Host.Outcome State Fault Refusal :=
  if s.hub.fwState = 2 then .next (arriveReset .watchdog s) else .next s

/-- THERMAL_TRIP (18 R459). -/
def execThermalTrip (s : State) : Host.Outcome State Fault Refusal := .next (arriveReset .thermal s)

/-- THERM_HOLD_RELEASE: every sensor reads below 100 degrees (18 R459). -/
def execThermHoldRelease (s : State) : Host.Outcome State Fault Refusal :=
  if s.resets.thermHold then .next (thermCheck { s with resets := { s.resets with thermCool := true } }) else .next s

/-- Without PWRGOOD the JTAG port is in its own reset, and the regulators have not been sent a setpoint: they start at 0.75 V (18 R482; 19
R470, R478). -/
def unpowered (s : State) : State :=
  { s with hub := { s.hub with jtag := Hub.reset.jtag }, power := { s.power with vset := Power.reset.vset } }

/-- PWRGOOD_RISE: power-on reset; the straps are read; the backup domain is cleared if VBKUP was lost (18 R443, R444; 19 R467). -/
def execPwrgoodRise (vbkupLost : Bool) (straps : BitVec 4) (s : State) : Host.Outcome State Fault Refusal :=
  if s.resets.pwrgood then .next s
  else
    let s := unpowered s
    let lost := vbkupLost || !s.resets.backupOk
    let b := s.resets
    let b := if lost then { b with count := 0, cause := 0, history := 0 } else b
    let s := recordReset .powerOn { s with resets := { b with pwrgood := true, straps := straps, vbkupLost := lost, backupOk := true } }
    .next (beginOrder .powerOn (if lost then [1, 2, 3, 4, 5, 6, 7, 8] else [2, 3, 4, 5, 6, 7, 8]) (coldClear s))

/-- A revoke pulse that the loss of PWRGOOD cuts leaves its fuse either way (log entry 6). -/
def cutRevoke (s : State) : State := match s.fuses.revokePulse with
  | none => s
  | some (_, k) =>
    let q := s.draw 1
    if q.1 = 1 then { q.2 with fuses := { s.fuses with revoked := s.fuses.revoked ||| (1#4 <<< k.toNat) } } else q.2

/-- A retirement pulse that the loss of PWRGOOD cuts leaves its entry used; the next power-up checks it (18 R446). -/
def cutRetire (s : State) : State := match s.fuses.pulse with
  | none => s
  | some (_, col) => programEntry col false s

/-- PWRGOOD_FALL: every domain but the backup is held in reset (19 R470). -/
def execPwrgoodFall (s : State) : Host.Outcome State Fault Refusal :=
  if s.resets.pwrgood = false then .next s
  else
    let s := coldClear (unpowered (cutRetire (cutRevoke s)))
    .next { s with resets := { s.resets with pwrgood := false, thermHold := false, thermCool := false, thermPulsed := false,
                                             thermtrip := false } }

/-- VBKUP_LOSS (18 R444). -/
def execVbkupLoss (s : State) : Host.Outcome State Fault Refusal :=
  .next { s with resets := { s.resets with count := 0, cause := 0, history := 0, vbkupLost := false, backupOk := false } }

/-! ### The release order (18 R447) -/

/-- The fuses are read (01 R4, R16, R18, R20): entries whose check passes retire their column; nothing is parked. IN_EFFECT is the number
of columns retired, however many entries name each (R22). -/
def readFuses (ok : BitVec 8) (s : State) : State :=
  let es := s.fuses.entries.zipIdx.map (fun e => { e.1 with ok := ok.getLsbD e.2 })
  let used := (List.range 4).map (fun d => (d, Fuses.usedOf es d))
  let columns := used.foldl (fun n u => n + popCount u.2.toNat 34) 0
  { s with fuses := { s.fuses with
      entries := es, inEffect := Fuses.reset.columns - columns, used := used, parked := [], columns := columns } }

/-- Whether the step at the head of the order ends now: `waited` says that its completion condition holds. A part whose TEST_EN strap
is high never completes step 3 (19 R467). -/
def State.stepEnds (s : State) (k : Nat) (waited : Bool) : Bool :=
  !(s.resets.thermHold && decide (2 ≤ k))
  && (if k = 3 then waited && !s.resets.straps.getLsbD 3 else if k = 4 ∨ k = 6 ∨ k = 8 then waited else true)

/-- What the part does as step `k` of the order ends: the fuses are read at step 3 (R447), the regulators have the setpoints of the step in
force before step 5 (R482), and at step 8 the tiles' scrubbers start (02 R74). -/
def stepDone (k : Nat) (fuseOk : BitVec 8) (s : State) : State := match k with
  | 3 => readFuses fuseOk s
  | 4 => setRegulators s
  | 8 => { s with tilesAt := some s.wall, scrubPass := 0 }
  | _ => s

/-- RESET_RELEASE_STEP: the gap of the step in progress has run; step 5 releases one die at a time. After the last step READY sets. -/
def execResetReleaseStep (waited : Bool) (fuseOk : BitVec 8) (s : State) : Host.Outcome State Fault Refusal :=
  match s.resets.plan with
  | [] => .next s
  | k :: rest =>
    if s.stepEnds k waited = false then .next s
    else if k = 5 ∧ s.resets.dies < 3 then .next { s with resets := { s.resets with dies := s.resets.dies + 1 } }
    else
      let s := stepDone k fuseOk s
      let s := { s with resets := { s.resets with plan := rest, dies := if k = 5 then 4 else s.resets.dies } }
      .next (if rest.isEmpty then { s with resets := { s.resets with ready := true, warm := false, source := none } } else s)

/-! ### The RESET command (18 R451) -/

/-- RESET by KIND. -/
def resetKind (kind : Nat) (c : Call) (s : State) : State := match kind with
  | 0 => ({ s with resets := { s.resets with cmd := s.resets.cmd ++ [(Source.cmdWarm, s.beats)] } }).done c.f eOk
  | 1 => ({ s with resets := { s.resets with cmd := s.resets.cmd ++ [(Source.cmdCold, s.beats)] } }).done c.f eOk
  | 2 => hubRestart (s.done c.f eOk)
  | 3 => endpointReset (s.done c.f eOk)
  | 4 => s.done c.f eOk
  | 5 => if s.anyGranted then s.done c.f eNotidle else (resetCadence s).done c.f eOk
  | _ => s.done c.f eBadarg

/-- RESET with the argument block as it stands. -/
def resetCommand (fn : Fn) (rg : RegionId) (tag : BitVec 16) (a : ArgBlock) (s : State) : State :=
  mailCommand 0x1E .d [(0, 1)] noHref fn rg tag a (fun c s => resetKind (argAt c.a 0 1) c s) s

/-- The argument block with KIND. -/
def withKind (a : ArgBlock) (k : Nat) : ArgBlock := Word.put a 0 8 k

/-- RESET_WARM. -/
def execResetWarm (fn : Fn) (rg : RegionId) (tag : BitVec 16) (a : ArgBlock) (s : State) : Host.Outcome State Fault Refusal :=
  .next (resetCommand fn rg tag (withKind a 0) s)

/-- RESET_COLD. -/
def execResetCold (fn : Fn) (rg : RegionId) (tag : BitVec 16) (a : ArgBlock) (s : State) : Host.Outcome State Fault Refusal :=
  .next (resetCommand fn rg tag (withKind a 1) s)

/-- RESET_HUB_CPU. -/
def execResetHubCpu (fn : Fn) (rg : RegionId) (tag : BitVec 16) (a : ArgBlock) (s : State) : Host.Outcome State Fault Refusal :=
  .next (resetCommand fn rg tag (withKind a 2) s)

/-- RESET_PCIE_EP. -/
def execResetPcieEp (fn : Fn) (rg : RegionId) (tag : BitVec 16) (a : ArgBlock) (s : State) : Host.Outcome State Fault Refusal :=
  .next (resetCommand fn rg tag (withKind a 3) s)

/-- RESET_FUSE_CTL: the fuse registers keep their values; a pulse in progress ends first (18 R446, R451). -/
def execResetFuseCtl (fn : Fn) (rg : RegionId) (tag : BitVec 16) (a : ArgBlock) (s : State) : Host.Outcome State Fault Refusal :=
  .next (resetCommand fn rg tag (withKind a 4) s)

/-- RESET_CADENCE. -/
def execResetCadence (fn : Fn) (rg : RegionId) (tag : BitVec 16) (a : ArgBlock) (s : State) : Host.Outcome State Fault Refusal :=
  .next (resetCommand fn rg tag (withKind a 5) s)

/-- RESET_COMMAND_START: 10 µs (1,250 beats) after the command completed (18 R451). -/
def execResetCommandStart (s : State) : Host.Outcome State Fault Refusal :=
  match s.resets.cmd with
  | (k, t) :: rest =>
    if t + 1250 ≤ s.beats then .next (arriveReset k { s with resets := { s.resets with cmd := rest } }) else .next s
  | [] => .next s

/-! ### Block resets (18 R450) -/

/-- Unit class of a BLK_RST CLASS, and the number of units. -/
def blkUnits (s : State) (cls : Nat) : Option (Nat × Nat) := match cls with
  | 0 => some (1, s.columns)
  | 1 => some (6, 12)
  | 2 => some (3, 256)
  | 3 => some (4, 64)
  | 4 => some (5, 64)
  | _ => none

/-- The unit table entries a block reset touches, by class and index: a port has eight lanes. -/
def blkMembers (cls idx : Nat) : List (Nat × Nat) := match cls with
  | 0 => [(1, idx)]
  | 1 => (List.range 8).map (fun v => (6, 8 * idx + v))
  | 2 => [(3, idx)]
  | 3 => [(4, idx)]
  | _ => [(5, idx)]

/-- A GRANTED region that is not halted owns some of the unit. -/
def State.ownerRuns (s : State) (ms : List (Nat × Nat)) : Bool :=
  ms.any (fun m => (s.claimants m.1 m.2).any (fun r => (s.region r).st == .granted && !(s.region r).brake.halted))

/-- An update unit is reset: it forgets its shards, so the list of the region that owns it is no longer armed, and what it was writing is
undefined (13 R345, R349; log entry 39). -/
def clearUpdate (idx : Nat) (s : State) : State :=
  (s.claimants 5 idx).foldl (fun s r =>
    let u := (s.region r).upd
    let bank := (u.step.toNat + 1) % 2
    let s := if u.phase = .running then s.veil (quarterBase idx bank) (quarterBase idx (bank + 1)) else s
    (dropUpdWait r u.startObj s).modRegion r (fun g => { g with upd := { g.upd with
      armed := false, phase := .idle, startMet := false, disarm := false, seen := none, doneBlocks := 0 } })) s

/-- The unit itself is reset; what a memory channel holds is then undefined (log entry 39). -/
def clearUnit (cls idx : Nat) (s : State) : State := match cls with
  | 0 => { s with tiles := s.tiles.drop (fun k => k / 64 == idx), undo := s.undo.drop (fun k => k / 64 == idx) }
  | 1 => s.setPort (BitVec.ofNat 4 idx) .reset
  | 2 => s.veil (MChan.hbm idx).base ((MChan.hbm idx).base + (MChan.hbm idx).size)
  | 3 => s.veil (MChan.lpddr idx).base ((MChan.lpddr idx).base + (MChan.lpddr idx).size)
  | _ => clearUpdate idx s

/-- The unit is quarantined until it is reloaded (01 R40). -/
def quarantine (m : Nat × Nat) (s : State) : State := match s.claimants m.1 m.2 with
  | [] =>
    if m.1 = 6 then s
    else ({ s with units := s.units.put (unitKey m.1 m.2) { UnitRec.reset with quarantined := true } }).hubEvent 4
  | rs => rs.foldl (fun s r =>
      let k := recordKey m.1 m.2 r
      ({ s with units := s.units.put k { Tab.get UnitRec.reset s.units k with quarantined := true } }).regionEvent r 2) s

/-- BLK_RST_STATUS.RESULT, with BUSY clear. -/
def blkResult (n : Nat) (s : State) : State := { s with resets := { s.resets with blkResult := BitVec.ofNat 2 n, blk := none } }

/-- A write of BLK_RST: ignored while BUSY is set; refused at once, or the unit is sent an idle request and BUSY sets. `idle` says whether
the unit becomes idle within 100 µs (log entry 39). -/
def blockReset (cls idx : Nat) (idle : Bool) (s : State) : State :=
  if s.opens .pf = false ∨ s.resets.blk.isSome = true then s
  else match blkUnits s cls with
    | none => blkResult 3 s
    | some u =>
      if u.2 ≤ idx then blkResult 3 s
      else if s.ownerRuns (blkMembers cls idx) then blkResult 2 s
      else { s with resets := { s.resets with blk := some (cls, idx, idle, s.beats) } }

/-- The block reset under way goes on: the unit that falls idle is reset and quarantined; one that has not after 100 µs, 12,500 beats, is
not reset (R450). -/
def blockCycle (s : State) : State := match s.resets.blk with
  | none => s
  | some (cls, idx, idle, t) =>
    if idle then blkResult 0 ((blkMembers cls idx).foldl (fun s m => quarantine m s) (clearUnit cls idx s))
    else if t + 12500 ≤ s.beats then blkResult 1 s
    else s

/-- BLK_RST_TILE_COLUMN. -/
def execBlkRstTileColumn (idx : BitVec 12) (idle : Bool) (s : State) : Host.Outcome State Fault Refusal :=
  .next (blockReset 0 idx.toNat idle s)

/-- BLK_RST_LINK_PORT. -/
def execBlkRstLinkPort (idx : BitVec 12) (idle : Bool) (s : State) : Host.Outcome State Fault Refusal :=
  .next (blockReset 1 idx.toNat idle s)

/-- BLK_RST_HBM_CHANNEL. -/
def execBlkRstHbmChannel (idx : BitVec 12) (idle : Bool) (s : State) : Host.Outcome State Fault Refusal :=
  .next (blockReset 2 idx.toNat idle s)

/-- BLK_RST_LPDDR_CHANNEL. -/
def execBlkRstLpddrChannel (idx : BitVec 12) (idle : Bool) (s : State) : Host.Outcome State Fault Refusal :=
  .next (blockReset 3 idx.toNat idle s)

/-- BLK_RST_UPDATE_UNIT. -/
def execBlkRstUpdateUnit (idx : BitVec 12) (idle : Bool) (s : State) : Host.Outcome State Fault Refusal :=
  .next (blockReset 4 idx.toNat idle s)

/-! ### Hub firmware (18 R452) -/

/-- A write of HUB_FW_CTRL.GO, ignored unless STATE is 0 or 3: a bad length fails at once, else the fetch begins. -/
def fwGo (s : State) : State :=
  let n := s.hub.fwLen.toNat
  if s.opens .pf = false ∨ s.hub.fwState = 1 ∨ s.hub.fwState = 2 ∨ s.loaderStopped = true then s
  else if n % 16 ≠ 0 ∨ n < 192 ∨ 0x400000 < n ∨ s.hub.fwAddr.toNat % 4096 ≠ 0 then
    { s with hub := { s.hub with fwState := 3, fwResult := BitVec.ofNat 8 eRange } }
  else { s with hub := { s.hub with fwState := 1 } }

/-- HUB_FW_GO. -/
def execHubFwGo (s : State) : Host.Outcome State Fault Refusal := .next (fwGo s)

/-- HUB_FW_LOAD_DONE: the image as fetched, or none where the fetch failed. -/
def execHubFwLoadDone (image : Option (List Byte)) (s : State) : Host.Outcome State Fault Refusal :=
  if s.hub.fwState ≠ 1 then .next s
  else
    let set (st : BitVec 2) (r : Nat) : State := { s with hub := { s.hub with fwState := st, fwResult := BitVec.ofNat 8 r } }
    match image with
    | none => .next (set 3 eTimeout)
    | some img => if signedBy img Config.firmwareKeyHash then .next (set 2 eOk) else .next (set 3 eAuth)

/-! ### Output pins (19 R472, R473) -/

/-- FAULT_N is driven low. -/
def State.faultLow (s : State) : Bool :=
  !s.resets.ready || s.resets.thermHold || s.hub.fwState == 3

/-- SMB_ALERT_N is driven low. -/
def State.alertLow (s : State) : Bool := s.hub.evt.bits &&& 0x1E != 0

end Sys2Proof.Machine
end

