-- ==== Sys2Proof/Machine/Rails.lean ====
section
/-!
DEFINITION. Sys2Proof/Machine/Rails.lean: a supply rail that leaves tolerance while PWRGOOD is high: the contents of every domain that
it feeds are undefined (19_pins_and_package.md R470, R477; log entry 40).
-/
namespace Sys2Proof.Machine
open Sys2Proof

/-! ### Draws -/

/-- A computation that draws free values, from the number of the next one. -/
abbrev Draw := StateM Nat

/-- A free value. -/
def drawBits (w : Nat) : Draw (BitVec w) := fun n => (Config.free w n, n + 1)

/-- A free bit. -/
def drawBool : Draw Bool := fun n => (Config.free 1 n == 1, n + 1)

/-- A free number below 2^w. -/
def drawNat (w : Nat) : Draw Nat := fun n => ((Config.free w n).toNat, n + 1)

/-- Free values in the cells `ks`. -/
def drawCells (w : Nat) (ks : List Nat) : Draw (Cells w) := fun n =>
  (ks.zipIdx.foldl (fun (m : Cells w) k => m.put k.1 (Config.free w (n + k.2))) [], n + ks.length)

/-- A list of `k` things drawn one after the other. -/
def drawList {α : Type} (d : Draw α) (k : Nat) : Draw (List α) := (List.range k).mapM (fun _ => d)

/-- A table of `k` things, numbered from 0. -/
def drawTab {α : Type} (d : Draw α) (k : Nat) : Draw (Tab α) := do
  let l ← drawList d k
  pure (l.zipIdx.map (fun e => (e.2, e.1)))

/-- `s` with what a draw gives put in its place. -/
def State.drawn {α : Type} (s : State) (d : Draw α) (put : α → State → State) : State :=
  let q : α × Nat := d s.free
  put q.1 { s with free := q.2 }

/-! ### A compute die: tiles and sync units (R477; 10 R250) -/

/-- The core, which does not issue. -/
def drawCtl : Draw Ctl := do
  let g ← drawCells 32 (List.range 32)
  let p ← drawBits 8
  let lc ← drawCells 32 (List.range 4)
  let pc ← drawBits 11
  let srb ← drawBits 4096
  let fsr ← drawBits 7
  let cycHi ← drawBits 32
  let retain ← drawBits 24
  let lost ← drawBits 24
  pure { Ctl.reset with
    g := g, p := p, lc := lc, pc := pc, srb := srb, fsr := fsr, cycHi := cycHi, retain := retain, retainLost := lost,
    run := .stopped }

/-- The matrix array. -/
def drawMat : Draw MatSt := do
  let acc0 ← drawCells 32 (List.range 1024)
  let acc1 ← drawCells 32 (List.range 1024)
  let aud0 ← drawCells 32 (List.range 32)
  let aud1 ← drawCells 32 (List.range 32)
  let valid ← drawBits 2
  let init0 ← drawBits 32
  let init1 ← drawBits 32
  let md ← drawCells 128 (List.range 8)
  let passNo ← drawBits 32
  pure { MatSt.reset with
    acc0 := acc0, acc1 := acc1, aud0 := aud0, aud1 := aud1, valid := valid, init0 := init0, init1 := init1, md := md,
    passNo := passNo }

/-- A scale slot. -/
def drawSlot : Draw ScaleSlot := do
  let ring ← drawCells 32 (List.range 16)
  let head ← drawNat 4
  let count ← drawNat 8
  pure { ring := ring, head := head, count := count % 17 }

/-- Headroom counters, scale slots and audit registers. -/
def drawGuards : Draw Guards := do
  let c ← drawList (drawBits 32) 15
  let slots ← drawTab drawSlot 64
  let sel ← drawBits 12
  let seed ← drawBits 64
  let col ← drawBits 5
  let at_ (k : Nat) : Word := c.getD k 0
  pure { clip := at_ 0, uflow := at_ 1, nan := at_ 2, subflush := at_ 3, slots := slots, sel := sel &&& 0xF3F, seed := seed,
         audMax := at_ 4, audSum := at_ 5, audN := at_ 6, audLast := at_ 7, audNf := at_ 8, audCol := col, thClip := at_ 9,
         thUflow := at_ 10, thNan := at_ 11, thSubflush := at_ 12, thAudMax := at_ 13, thAudMean := at_ 14 }

/-- The vector engine. -/
def drawVec : Draw VecSt := do
  let vd ← drawCells 256 (List.range 16)
  let vj ← drawCells 512 (List.range 8)
  let progs ← drawTab (do let l ← drawList (drawBits 32) 32
                          pure [(0, l)]) 4
  let sum ← drawCells 32 (List.range 8)
  let vfsr ← drawBits 5
  let key ← drawBits 64
  let pos ← drawBits 64
  let tsid ← drawBits 9
  let posHi ← drawBits 32
  pure { VecSt.reset with
    vd := vd, vj := vj, progs := progs, sum := sum, vfsr := vfsr, key := key, pos := pos, tsid := tsid, posHi := posHi }

/-- The exchange unit. -/
def drawExch : Draw Exch := do
  let xr ← drawCells 128 (List.range 16)
  let xv ← drawCells 128 (List.range 16)
  let win ← drawBits 8
  let next ← drawBits 8
  pure { Exch.reset with xr := xr, xv := xv, win := win, nextWin := next }

/-- The registers of a tile; its memories, which another rail feeds, stand. -/
def drawTile (x : Tile) : Draw Tile := do
  let ctl ← drawCtl
  let matrix ← drawMat
  let guards ← drawGuards
  let vec ← drawVec
  let exch ← drawExch
  let dr ← drawCells 128 (List.range 8)
  let tag ← drawBits 32
  let key ← drawBits 64
  let pos ← drawBits 64
  let tsid ← drawBits 9
  pure { x with
    ctl := ctl, uses := [], reqs := [], expect := [], sb := [], matrix := matrix, guards := guards, vec := vec, exch := exch, dr := dr,
    dmas := [], chans := [], ports := [], cqrows := [], split := none, mark := [], markDone := (tag, key, pos, tsid) }

/-- The error counts of a tile and its scrubber. -/
def drawHw : Draw TileHw := do
  let tm ← drawBits 32
  let pm ← drawBits 32
  let ue ← drawBits 32
  let late ← drawBits 16
  pure { TileHw.reset with tmCe := tm, pmCe := pm, tmUe := ue, late := late }

/-- A sync object. -/
def drawObj : Draw SyncObj := do
  let flags ← drawBits 5
  let value ← drawBits 16
  let pcount ← drawBits 16
  let gen ← drawBits 16
  let last ← drawBits 32
  let lbeat ← drawBits 64
  let port ← drawBits 4
  let dev ← drawBits 16
  let obj ← drawBits 16
  let bit (k : Nat) : Bool := flags.getLsbD k
  pure { SyncObj.reset with
    bar := bit 0, xch := bit 1, sense := bit 2, up := bit 3, parEn := bit 4, value := value, pcount := pcount, gen := gen, last := last,
    lbeat := lbeat, parentPort := port, parentDev := dev, parentObj := obj }

/-- A tile of the die. -/
def scrambleTile (s : State) (t : TileId) : State :=
  let s := s.drawn (drawTile (s.tile t)) (fun x s => s.modTile t (fun _ => x))
  s.drawn drawHw (fun h s => s.modHw t (fun _ => h))

/-- The objects of the sync units of die `d`: 32 units of 512 objects (10 R250; that the units of a die follow each other is log
entry 40). -/
def scrambleObjs (d : Nat) (s : State) : State :=
  s.drawn (drawList drawObj 16384) (fun l s =>
    { s with objs := s.objs.filter (fun e => decide (e.1 < 16384 * d)) ++ l.zipIdx.map (fun e => (16384 * d + e.2, e.1))
                       ++ s.objs.filter (fun e => decide (16384 * (d + 1) ≤ e.1)) })

/-- The tiles whose column `p` selects. -/
def State.tilesWhere (s : State) (p : Nat → Bool) : List TileId :=
  ((List.range s.columns).filter p).flatMap (fun c => (List.range 48).map (fun w => tileAt c w))

/-- A compute die (VCORE). -/
def scrambleDie (d : Nat) (s : State) : State :=
  scrambleObjs d ((s.tilesWhere (fun c => s.dieOf c == d)).foldl scrambleTile s)

/-! ### Tile and program memories (VSRAM) -/

/-- Tile and program memory of a tile. -/
def scrambleMemory (s : State) (t : TileId) : State :=
  s.drawn (do let a ← drawCells 4096 (List.range 768)
              let b ← drawCells 128 (List.range 2048)
              pure (a, b))
    (fun q s => s.modTile t (fun x => { x with tm := q.1, upsets := [], poison := [], pm := q.2, pmUpsets := [] }))

/-! ### The hub die (VHUB; 01 "the hub die holds") -/

/-- An event register. -/
def drawEvt : Draw EvtReg := do
  let bits ← drawBits 16
  let seq ← drawBits 16
  pure { bits := bits, seq := seq }

/-- A mailbox. -/
def drawMail (now wall : Nat) : Draw Mailbox := do
  let args ← drawBits 512
  let res ← drawBits 128
  let busy ← drawBool
  let dropped ← drawBool
  let code ← drawBits 8
  let tag ← drawBits 16
  let op ← drawBits 8
  let curTag ← drawBits 16
  let r ← drawBits 6
  let cur ← drawBits 512
  pure { args := args, res := res, busy := busy, dropped := dropped, code := code, tag := tag, curOp := op, curTag := curTag,
         curRegion := r, curArgs := cur, since := now, wall := wall }

/-- A buffer slot. -/
def drawBuffer : Draw Buffer := do
  let used ← drawBool
  let gen ← drawBits 16
  let iova ← drawBits 64
  let len ← drawBits 64
  pure { used := used, gen := gen, iova := iova, len := len }

/-- The latched halves of a reader. -/
def drawLatches : Draw Latches := do
  let hi ← drawBits 16
  let lap ← drawBits 16
  let upd ← drawTab (drawBits 32) 64
  let commit ← drawTab (drawBits 32) 64
  let beat ← drawTab (drawBits 64) 64
  let exp ← drawTab (drawBits 32) 64
  pure { beatHi := hi, lap := lap, updHi := upd, commitHi := commit, commitBeat := beat, expHi := exp }

/-- Mailboxes, handles, events, latches, firmware loader, SMBus target and PCIe endpoint. -/
def drawHub (s : State) : Draw Hub := do
  let mail ← drawTab (drawMail s.beats s.wall) 65
  let bufs ← drawTab (drawTab drawBuffer 256) 65
  let evt ← drawEvt
  let loc ← drawBits 32
  let latches ← drawTab drawLatches 66
  let vf ← drawBool
  let vfs ← drawNat 7
  let addr ← drawBits 64
  let len ← drawBits 23
  let st ← drawBits 2
  let res ← drawBits 8
  let ptr ← drawBits 24
  pure { s.hub with
    mail := mail, bufs := bufs, evt := evt, parityLoc := loc, msix := [], latches := latches, vfEnable := vf, numVfs := vfs % 65,
    fwAddr := addr, fwLen := len, fwState := st, fwResult := res, smbPtr := ptr }

/-- The registers of the whole frame and the epochs. -/
def drawFrame (f : FrameSt) : Draw FrameSt := do
  let loaded ← drawBool
  let id ← drawBits 64
  let tag ← drawBits 32
  let epoch ← drawBits 32
  let on ← drawBits 12
  let src ← drawBits 2
  let port ← drawBits 4
  let share ← drawList (drawNat 7) 96
  pure { f with
    loaded := loaded, id := id, tag := tag, epoch := epoch, portEnable := on, source := src, sourcePort := port, vlShare := share,
    loading := none }

/-- The identity. -/
def drawIdent : Draw Identity := do
  let dev ← drawBits 16
  let ident ← drawBool
  let x ← drawBits 4
  let y ← drawBits 5
  let z ← drawBits 5
  let xd ← drawBits 4
  let yd ← drawBits 5
  let zd ← drawBits 5
  pure { dev := dev, ident := ident, x := x, y := y, z := z, xd := xd, yd := yd, zd := zd }

/-- The cadence unit. -/
def drawCad : Draw Cadence := do
  let beat ← drawBits 48
  let lap ← drawBits 16
  let locked ← drawBool
  let holdover ← drawBool
  let hops ← drawBits 8
  let phase ← drawBits 16
  let evt ← drawEvt
  pure { Cadence.reset with beat := beat, lap := lap, locked := locked, holdover := holdover, hops := hops, phase := phase, evt := evt }

/-- The clock step and the power manager. -/
def drawPower (p : Power) : Draw Power := do
  let cur ← drawBits 2
  let ceil ← drawBits 2
  let cap ← drawBits 12
  let now ← drawBits 12
  let temps ← drawList (drawBits 16) 5
  let vcore ← drawList (drawBits 12) 4
  let vset ← drawList (drawBits 12) 4
  let volt ← drawBits 3
  let temp ← drawBits 3
  let user ← drawCells 32 ((List.range 5) ++ [0x10, 0x11, 0x12, 0x13, 0x14] ++ (List.range 48).map (fun k => 0x100 + k))
  let next ← drawCells 32 (List.range 4)
  let sel ← drawBits 16
  pure { p with
    cur := cur, ceil := ceil, pend := none, change := none, cap := cap, capNext := none, now := now, temps := temps, vcore := vcore,
    vset := vset, skewVolt := volt, skewTemp := temp, user := user, userNext := next, calSel := sel }

/-- One of the states of a region. -/
def drawRState : Draw RState := do
  let k ← drawNat 8
  pure (match k % 5 with
    | 0 => .unconfigured | 1 => .configured | 2 => .granting | 3 => .granted | _ => .revoking)

/-- What the region manager and the freewheel hold of a region. Its section and what its tiles and units have under way stand. -/
def drawRegion (g : Region) : Draw Region := do
  let st ← drawRState
  let epoch ← drawBits 32
  let digest ← drawBits 384
  let prog ← drawBits 384
  let flags ← drawBits 5
  let e0 ← drawEvt
  let e1 ← drawEvt
  let e2 ← drawEvt
  let e3 ← drawEvt
  let xwin ← drawTab (drawBits 17) 256
  let limit ← drawBits 24
  let count ← drawBits 32
  let beats ← drawBits 32
  let step ← drawBits 64
  let cbeat ← drawBits 48
  let clap ← drawBits 16
  let drop ← drawBits 32
  let estep ← drawBits 64
  let head ← drawBits 32
  let tail ← drawBits 32
  let bit (k : Nat) : Bool := flags.getLsbD k
  pure { g with
    st := st, epoch := epoch, digest := digest, progDigest := prog, prog := bit 0, complete := bit 1, evtVf := e0, evtPf := e1,
    fwVf := e2, fwPf := e3, xwin := xwin.map (fun e => (e.1, e.2.setWidth 32)),
    brake := { g.brake with limit := limit, count := count, beats := beats },
    fw := { g.fw with
      commitValid := bit 2, mirrorAcked := bit 3, remirror := bit 4, commitStep := step, commitBeat := cbeat, commitLap := clap,
      drop := drop },
    exp := { g.exp with step := estep, head := head, tail := tail } }

/-- The registers of the hub die, but for the backup domain and the fuses, which R470 excepts. -/
def scrambleHub (s : State) : State :=
  let s := s.drawn (drawHub s) (fun x s => { s with hub := x })
  let s := s.drawn (drawFrame s.frame) (fun x s => { s with frame := x })
  let s := s.drawn drawIdent (fun x s => { s with ident := x })
  let s := s.drawn drawCad (fun x s => { s with cad := x })
  let s := s.drawn (drawPower s.power) (fun x s => { s with power := x })
  let s := s.drawn (drawBits 2) (fun x s => { s with resets := { s.resets with blkResult := x, blk := none } })
  allRegions.foldl (fun s r => s.drawn (drawRegion (s.region r)) (fun g s => s.setRegion r g)) s

/-! ### The event -/

/-- RAIL_OUT_OF_TOLERANCE while PWRGOOD is high: the contents of what the rail feeds are undefined (R470, R477). -/
def execRailOutOfTolerance (rail : Rail) (s : State) : Host.Outcome State Fault Refusal :=
  if s.resets.pwrgood = false then .next s
  else match rail with
    | .vcore n => .next (scrambleDie n.toNat s)
    | .vsram => .next ((s.tilesWhere (fun _ => true)).foldl scrambleMemory s)
    | .vhub => .next (scrambleHub s)
    | .hbm => .next (s.veil 0 hbmSize)
    | .lpddr => .next (s.veil 0x8000000000 (0x8000000000 + 64 * 0x180000000))
    | .serdes => .next (allPorts.foldl (fun s p => if (s.port p).st = .down then s else failPort p s) s)
    | .vio => .next s
    | .vbkup => .next (s.drawn (do let count ← drawBits 32
                                   let cause ← drawBits 4
                                   let history ← drawBits 8
                                   let lost ← drawBool
                                   pure (count, cause, history, lost))
        (fun q s => { s with resets := { s.resets with count := q.1, cause := q.2.1, history := q.2.2.1, vbkupLost := q.2.2.2 } }))

end Sys2Proof.Machine
end

