-- ==== Sys2Proof/Machine/Registers.lean ====
section
/-!
DEFINITION. Sys2Proof/Machine/Registers.lean: the register windows (17_host_interface.md R432 to R442): reads, latching reads, writes,
acknowledgements; the parity sweep (R435, R436); the SMBus target and JTAG (19_pins_and_package.md R474, R476).
-/
namespace Sys2Proof.Machine
open Sys2Proof

/-! ### Values of registers -/

/-- A number as a register value. -/
def regOf (n : Nat) : Word := BitVec.ofNat 32 n

/-- A bit at place `n`. -/
def bitAt (b : Bool) (n : Nat) : Nat := if b then 2 ^ n else 0

/-- An event register (17 R432). -/
def EvtReg.word (e : EvtReg) : Word := regOf (e.bits.toNat + e.seq.toNat * 65536)

/-- MBX_STATUS (17 R440). -/
def Mailbox.status (m : Mailbox) : Word := regOf (bitAt m.busy 0 + bitAt m.dropped 1 + m.code.toNat * 256 + m.tag.toNat * 65536)

/-- The mailbox block of a window (17 R440). -/
def Mailbox.read (m : Mailbox) (off : Nat) : Word :=
  if off = 4 then m.status
  else if 0x10 ≤ off ∧ off < 0x50 then m.args.extractLsb' (8 * (off - 0x10)) 32
  else if 0x50 ≤ off ∧ off < 0x60 then m.res.extractLsb' (8 * (off - 0x50)) 32
  else 0

/-- State code of a port (12 R321). -/
def PState.code : PState → Nat
  | .down => 0 | .training => 1 | .up => 2 | .hold => 3 | .peerWarm => 4 | .failed => 5

/-- The registers of a port, by number (12 R341). -/
def Port.read (x : Port) : Nat → Word
  | 0 => regOf (x.st.code + (if x.lanesInUse < 2 then 0 else x.lanesInUse) * 8 + x.lanesOk.toNat * 64 + bitAt x.nbrBad 10)
  | 1 => x.evt.word
  | 3 => regOf (x.nbrDev.toNat + x.nbrX.toNat * 2 ^ 16 + x.nbrY.toNat * 2 ^ 20 + x.nbrZ.toNat * 2 ^ 25)
  | 4 => x.nbrTag
  | 5 => x.replays
  | 6 => x.fecCe
  | 7 => x.fecUe
  | 8 => x.drop
  | _ => 0

/-- The size table registers, by number (00 R2, R3). -/
def State.sizeReg (s : State) : Nat → Nat
  | 0 => s.columns
  | 1 => 48
  | 2 => s.columns * 48
  | 3 => 384
  | 4 => 384
  | 5 => 12
  | 6 => 65536
  | 7 => 64
  | 8 => Config.grade.val
  | 9 => s.fuses.inEffect
  | _ => 0

/-- The cadence block, by number (12 R342); a latched half is the reader's own (17 R438). -/
def State.cadReg (s : State) (l : Latches) : Nat → Word
  | 0 => regOf (s.ident.dev.toNat + bitAt s.ident.ident 16)
  | 1 => regOf (s.ident.x.toNat + s.ident.y.toNat * 2 ^ 4 + s.ident.z.toNat * 2 ^ 9 + s.ident.xd.toNat * 2 ^ 14
      + s.ident.yd.toNat * 2 ^ 18 + s.ident.zd.toNat * 2 ^ 23)
  | 2 => s.cad.beat.setWidth 32
  | 3 => l.beatHi.setWidth 32
  | 4 => l.lap.setWidth 32
  | 5 => regOf (bitAt s.cad.locked 0 + bitAt s.cad.holdover 1 + s.frame.source.toNat * 4 + s.cad.hops.toNat * 256
      + s.cad.phase.toNat * 65536)
  | 6 => s.cad.evt.word
  | _ => 0

/-- RST_STATE (18 R464). -/
def State.rstState (s : State) : Word :=
  regOf (bitAt s.resets.ready 0 + s.resets.plan.headD 0 * 2 + bitAt s.resets.warm 5 + bitAt s.resets.thermHold 6)

/-- CLK_STATUS (18 R464). -/
def State.clkStatus (s : State) : Word :=
  regOf (s.power.cur.toNat + s.power.ceil.toNat * 4 + s.floorF * 16 + (match s.power.pend with
    | some (k, _, _) => 64 + k.toNat * 256
    | none => 0))

/-- PWR_DUTYk (18 R464). -/
def State.dutyReg (s : State) (k : Nat) : Word :=
  regOf ((List.range 8).foldl (fun n i => n + (s.region (BitVec.ofNat 6 (8 * k + i))).brake.duty * 16 ^ i) 0)

/-- CAL_FACTORY of an INDEX (18 R464, R482). -/
def State.calFactory (s : State) (i : Nat) : Word :=
  if i < 4 then (Config.factorySetpoint i s.power.cur.toNat).setWidth 32
  else if 0x20 ≤ i ∧ i < 0x30 then (Config.factorySetpoint ((i - 0x20) / 4) ((i - 0x20) % 4)).setWidth 32
  else Config.factoryCal i

/-- The reset, clock, power and calibration registers (18 R464). -/
def State.powerReg (s : State) (off : Nat) : Word :=
  let k := (off - 0x2060) / 4
  let t := (off - 0x2080) / 4
  let v := (off - 0x20A0) / 4
  match off with
  | 0x2000 => s.rstState
  | 0x2004 => s.resets.count
  | 0x2008 => regOf (s.resets.cause.toNat + bitAt s.resets.vbkupLost 4 + s.resets.history.toNat * 65536)
  | 0x2014 => regOf (bitAt s.resets.blk.isSome 0 + s.resets.blkResult.toNat * 2)
  | 0x2020 => s.hub.fwAddr.setWidth 32
  | 0x2024 => s.hub.fwAddr.extractLsb' 32 32
  | 0x2028 => s.hub.fwLen.setWidth 32
  | 0x202C => regOf (s.hub.fwState.toNat * 2 + s.hub.fwResult.toNat * 256)
  | 0x2040 => s.clkStatus
  | 0x2044 => match s.power.pend with
    | some (_, b, _) => b.setWidth 32
    | none => 0
  | 0x2048 => match s.power.pend with
    | some (_, b, l) => regOf (b.toNat / 2 ^ 32 + l.toNat * 65536)
    | none => 0
  | 0x2050 => s.power.cap.setWidth 32
  | 0x2054 => s.power.now.setWidth 32
  | 0x2058 => regOf (s.power.skewVolt.toNat + s.power.skewTemp.toNat * 16)
  | 0x20C0 => s.power.calSel.setWidth 32
  | 0x20C4 => s.calFactory s.power.calSel.toNat
  | 0x20C8 => s.power.user.get s.power.calSel.toNat
  | _ =>
    if off % 4 ≠ 0 then 0
    else if 0x2060 ≤ off ∧ off < 0x2080 then s.dutyReg k
    else if 0x2080 ≤ off ∧ off < 0x2094 then (s.power.temps.getD t 0).setWidth 32
    else if 0x20A0 ≤ off ∧ off < 0x20B0 then (s.power.vcore.getD v 0).setWidth 32
    else 0

/-- RETIRE_STATUS (01 R22). -/
def State.retireStatus (s : State) : Word :=
  regOf (s.fuses.inEffect + s.fuses.parked.length * 16 + (8 - s.fuses.entries.length) * 256)

/-- COLMAP registers, by number: two for each die (01 R18). -/
def State.colmap (s : State) (k : Nat) : Word := (Tab.get 0 s.fuses.used (k / 2)).extractLsb' (32 * (k % 2)) 32

/-- The registers of the provider window below the region copies (17 R439, R440). -/
def State.provReg (s : State) (l : Latches) (off : Nat) : Word :=
  if off % 4 ≠ 0 then 0
  else if off < 0x60 then (s.mail 0).read off
  else if off = 0x100 then s.hub.evt.word
  else if off = 0x108 then s.hub.parityLoc
  else if 0x200 ≤ off ∧ off < 0x228 then regOf (s.sizeReg ((off - 0x200) / 4))
  else if 0x240 ≤ off ∧ off < 0x260 then s.colmap ((off - 0x240) / 4)
  else if off = 0x260 then s.retireStatus
  else if off = 0x270 then s.frame.id.setWidth 32
  else if off = 0x274 then s.frame.id.extractLsb' 32 32
  else if off = 0x278 then s.frame.tag
  else if off = 0x27C then s.frame.epoch
  else if 0x300 ≤ off ∧ off < 0x320 then s.cadReg l ((off - 0x300) / 4)
  else if 0x1000 ≤ off ∧ off < 0x1300 then (s.port (BitVec.ofNat 4 ((off - 0x1000) / 0x40))).read (off % 0x40 / 4)
  else s.powerReg off

/-! ### The region window (17 R441, R442) -/

/-- REGION_STATE code (16 R402). -/
def RState.code : RState → Nat
  | .unconfigured => 0 | .configured => 1 | .granting => 2 | .granted => 3 | .revoking => 4

/-- Every tile of the region is in entry hold (16 R418). -/
def State.allEntry (s : State) (g : Region) : Bool :=
  g.cfg.isSome && g.tiles.all (fun t => match (s.tile t).ctl.run with
    | .entryHold => true
    | _ => false)

/-- REGION_STATE (16 R418). -/
def State.regionState (s : State) (g : Region) : Word :=
  regOf (g.st.code + bitAt g.brake.halted 3 + bitAt g.complete 4 + bitAt (s.allEntry g) 5 + bitAt g.prog 6
    + bitAt g.loading.isSome 7)

/-- The 32 bytes of a record as one number (03 R107). -/
def FaultRec.number (x : FaultRec) : Nat :=
  let tile := match x.tile with
    | some t => t.toNat + 0x8000
    | none => 0
  let pc := match x.slot with
    | some k => x.pc.toNat + slotCode k * 4096 + 0x8000
    | none => 0
  x.code.toNat + x.region.toNat * 2 ^ 8 + tile * 2 ^ 16 + pc * 2 ^ 32 + x.lap.toNat * 2 ^ 48 + x.tcyc.toNat * 2 ^ 64
  + x.beat.toNat * 2 ^ 128 + x.seq.toNat * 2 ^ 176 + x.detail.toNat * 2 ^ 192

/-- Word `k` of a record; zero where there is none. -/
def recWord (x : Option FaultRec) (k : Nat) : Word := match x with
  | some q => regOf (q.number / 2 ^ (32 * k))
  | none => 0

/-- The memory registers, by number (11 R310; 12 R343). -/
def State.memReg (s : State) (g : Region) : Nat → Word
  | 0 => g.mem.root.setWidth 32
  | 1 => (g.mem.root.extractLsb' 32 8).setWidth 32
  | 2 => g.mem.walkVa.setWidth 32
  | 3 => (g.mem.walkVa.extractLsb' 32 16).setWidth 32
  | 4 => g.mem.ce
  | 5 => g.mem.retry
  | 6 => g.mem.subflush
  | 7 => g.mem.nf
  | 8 => regOf (s.zeroPend g)
  | 9 => g.mem.miss
  | 10 => g.mem.rej
  | _ => 0

/-- UPD_STATUS (13 R367). A step held by a derailleur run waits at step 1. -/
def updStatus (g : Region) : Word :=
  let wait := g.upd.phase == .waitStart
  let met := g.upd.startMet && g.drl.st != .running
  regOf (bitAt g.upd.armed 0 + bitAt (wait && !met) 1 + bitAt (wait && met) 2 + bitAt (g.upd.phase == .running) 3
    + g.upd.doneBlocks * 65536)

/-- DRL_STATUS.STATE. -/
def DrlState.code : DrlState → Nat
  | .idle => 0 | .running => 1 | .done => 2 | .failed => 3

/-- The update and derailleur registers, by number (13 R367). -/
def updReg (g : Region) (hi : Word) : Nat → Word
  | 0 => g.upd.step.setWidth 32
  | 1 => hi
  | 2 => updStatus g
  | 3 => g.upd.nf
  | 4 => g.upd.clip
  | 5 => g.upd.uflow
  | 6 => g.upd.nan
  | 7 => g.upd.subflush
  | 8 => regOf (g.drl.st.code + g.drl.round * 65536)
  | 9 => g.drl.drop
  | _ => 0

/-- FW_STATUS.STATE. -/
def FwState.code : FwState → Nat
  | .unconfigured => 0 | .idle => 1 | .mirroring => 2 | .awaiting => 3 | .remirroring => 4 | .restoring => 5

/-- The freewheel and export registers, by number (15 R401). -/
def fwReg (g : Region) (vf : Bool) (hi ehi : Word) (cb : DWord) : Nat → Word
  | 0 => regOf (g.fw.st.code + bitAt g.fw.commitValid 3 + bitAt g.fw.mirrorAcked 4 + bitAt g.fw.remirror 5
      + bitAt g.exp.running 6)
  | 1 => g.fw.commitStep.setWidth 32
  | 2 => hi
  | 3 => cb.setWidth 32
  | 4 => cb.extractLsb' 32 32
  | 5 => g.exp.step.setWidth 32
  | 6 => ehi
  | 7 => g.exp.head
  | 8 => g.exp.tail
  | 9 => (if vf then g.fwVf else g.fwPf).word
  | 11 => g.fw.drop
  | _ => 0

/-- A register of the window of region `r` but for its mailbox, through the VF's window or the provider's copy. -/
def State.winReg (s : State) (l : Latches) (r : RegionId) (vf : Bool) (off : Nat) : Word :=
  let g := s.region r
  let snap := if vf then g.vselVf else g.vselPf
  let hi (t : Tab Word) : Word := Tab.get 0 t r.toNat
  if off % 4 ≠ 0 then 0
  else if off = 0x100 then s.regionState g
  else if off = 0x104 then (if vf then g.evtVf else g.evtPf).word
  else if off = 0x10C then g.epoch
  else if off = 0x110 then g.brake.limit.setWidth 32
  else if off = 0x114 then g.brake.count
  else if off = 0x118 then g.brake.beats
  else if 0x140 ≤ off ∧ off < 0x170 then g.digest.extractLsb' (8 * (off - 0x140)) 32
  else if 0x180 ≤ off ∧ off < 0x1B0 then g.progDigest.extractLsb' (8 * (off - 0x180)) 32
  else if off = 0x200 then regOf g.faults.recs.length
  else if off = 0x204 then g.faults.lost
  else if off = 0x210 then g.faults.hazCount
  else if off = 0x214 then g.faults.head.setWidth 32
  else if off = 0x218 then g.faults.tail.setWidth 32
  else if 0x300 ≤ off ∧ off < 0x32C then s.memReg g ((off - 0x300) / 4)
  else if 0x400 ≤ off ∧ off < 0x428 then updReg g (hi l.updHi) ((off - 0x400) / 4)
  else if 0x480 ≤ off ∧ off < 0x4B0 then
    fwReg g vf (hi l.commitHi) (hi l.expHi) (Tab.get 0 l.commitBeat r.toNat) ((off - 0x480) / 4)
  else if off = 0x500 then snap.obj.setWidth 32
  else if 0x520 ≤ off ∧ off < 0x540 then snap.rec_.getD ((off - 0x520) / 4) 0
  else if 0x580 ≤ off ∧ off < 0x600 then snap.wl.getD ((off - 0x580) / 4) 0
  else if 0x800 ≤ off ∧ off < 0xA00 then recWord g.faults.recs[(off - 0x800) / 32]? (off % 32 / 4)
  else if 0x1000 ≤ off ∧ off < 0x1400 then Tab.get 0x10 g.xwin ((off - 0x1000) / 4)
  else if 0x4000 ≤ off ∧ off < 0x8000 then recWord (g.faults.ring.find ((off - 0x4000) / 32)) (off % 32 / 4)
  else 0

/-- Where an offset of a function's window leads: the provider's own registers, or a region's window, with the offset there. -/
def windowAt (fn : Fn) (off : Nat) : Option RegionId × Nat := match fn with
  | .vf n => (some n, off)
  | .pf => if 0x400000 ≤ off ∧ off < 0x800000 then (some (BitVec.ofNat 6 ((off - 0x400000) / 0x10000)), off % 0x10000) else (none, off)

/-- Number of the reader that stands for the SMBus (17 R438; 19 R474). -/
def smbReader : Nat := 65

/-- The latched halves of a reader. -/
def State.latch (s : State) (who : Nat) : Latches := Tab.get Latches.reset s.hub.latches who

/-- The value a read through a function returns: before READY, zero but for RST_STATE (18 R449). -/
def State.regRead (s : State) (fn : Fn) (who off : Nat) : Word :=
  let l := s.latch who
  if s.resets.ready = false then (if fn = .pf ∧ off = 0x2000 then s.rstState else 0)
  else match windowAt fn off with
    | (none, o) => s.provReg l o
    | (some r, o) => match fn with
      | .pf => s.winReg l r false o
      | .vf _ => if o < 0x60 then (s.mail (fnNo fn)).read o else s.winReg l r true o

/-! ### Latching reads (17 R438) -/

/-- What a read latches for its reader: BEAT_LO, UPD_STEP_LO, COMMIT_STEP_LO, EXP_STEP_LO. -/
def State.latchRead (s : State) (fn : Fn) (who off : Nat) : Latches :=
  let l := s.latch who
  match windowAt fn off with
  | (none, 0x308) => { l with beatHi := s.cad.beat.extractLsb' 32 16, lap := s.cad.lap }
  | (some r, 0x400) => { l with updHi := l.updHi.put r.toNat ((s.region r).upd.step.extractLsb' 32 32) }
  | (some r, 0x484) =>
    let f := (s.region r).fw
    { l with commitHi := l.commitHi.put r.toNat (f.commitStep.extractLsb' 32 32),
             commitBeat := l.commitBeat.put r.toNat (f.commitLap ++ f.commitBeat) }
  | (some r, 0x494) => { l with expHi := l.expHi.put r.toNat ((s.region r).exp.step.extractLsb' 32 32) }
  | _ => l

/-- MSI-X vector of the event register at an offset (17 R434). -/
def evtVector (fn : Fn) (off : Nat) : Option Nat := match windowAt fn off, fn with
  | (none, 0x100), _ => some 0
  | (none, 0x318), _ => some 1
  | (none, o), _ => if 0x1000 ≤ o ∧ o < 0x1300 ∧ o % 0x40 = 4 then some (2 + (o - 0x1000) / 0x40) else none
  | (some r, 0x104), .pf => some (14 + r.toNat)
  | (some r, 0x4A4), .pf => some (14 + r.toNat)
  | (some _, 0x104), .vf _ => some 0
  | (some _, 0x4A4), .vf _ => some 1
  | _, _ => none

/-- The message of a vector is no longer pending (17 R434; log entry 41). -/
def endPending (fn : Fn) (v : Option Nat) (s : State) : State := match v with
  | some n => { s with hub := { s.hub with msix := s.hub.msix.filter (fun m => m != (fnNo fn, n)) } }
  | none => s

/-- A read by `who` of the window of `fn`: the latches after it. -/
def takeLatch (fn : Fn) (who off : Nat) (s : State) : State :=
  { s with hub := { s.hub with latches := s.hub.latches.put who (s.latchRead fn who off) } }

/-- The access completes as an unsupported request and has no effect: it is not one aligned word (R421), or the function does not answer
(R422). -/
def State.unsupported (s : State) (fn : Fn) (off : Nat) : Bool := decide (off % 4 ≠ 0) || !s.answers fn

/-- Note how an access completed. -/
def noteUr (ur : Bool) (s : State) : State := { s with hub := { s.hub with ur := ur } }

/-- An access that is supported has its effect. -/
def accessed (fn : Fn) (off : Nat) (act : State → Host.Outcome State Fault Refusal) (s : State) : Host.Outcome State Fault Refusal :=
  if s.unsupported fn off then .next (noteUr true s) else act (noteUr false s)

/-- LATCHING_READ: a register read. The value stands in `readData` (log entry 8). -/
def execLatchingRead (fn : Fn) (off : BitVec 24) (s : State) : Host.Outcome State Fault Refusal :=
  accessed fn off.toNat (fun s =>
    let v := s.regRead fn (fnNo fn) off.toNat
    let s := if s.resets.ready then takeLatch fn (fnNo fn) off.toNat (endPending fn (evtVector fn off.toNat) s) else s
    .next { s with hub := { s.hub with readData := v } }) s

/-! ### Acknowledgements (17 R432, R433) -/

/-- An acknowledgement: the SQ bits clear if SEQ equals EVT_SEQ. -/
def EvtReg.ack (e : EvtReg) (seq : BitVec 16) : EvtReg := if seq = e.seq then { e with bits := 0 } else e

/-- The event register that an ACK register's offset acknowledges, as an offset. -/
def ackedBy (fn : Fn) (off : Nat) : Option Nat := match windowAt fn off with
  | (none, 0x104) => some 0x100
  | (none, 0x31C) => some 0x318
  | (none, o) => if 0x1000 ≤ o ∧ o < 0x1300 ∧ o % 0x40 = 8 then some (o - 4) else none
  | (some _, 0x108) => some (off - 4)
  | (some _, 0x4A8) => some (off - 4)
  | _ => none

/-- A write of an ACK register through a function: only that instance is acknowledged. -/
def ackWrite (fn : Fn) (off : Nat) (seq : BitVec 16) (s : State) : State :=
  match ackedBy fn off with
  | none => s
  | some e =>
    let s := endPending fn (evtVector fn e) s
    match windowAt fn off, fn with
    | (none, 0x104), _ => { s with hub := { s.hub with evt := s.hub.evt.ack seq } }
    | (none, 0x31C), _ => { s with cad := { s.cad with evt := s.cad.evt.ack seq } }
    | (none, o), _ => s.modPort (BitVec.ofNat 4 ((o - 0x1000) / 0x40)) (fun x => { x with evt := x.evt.ack seq })
    | (some r, 0x108), .pf => s.modRegion r (fun g => { g with evtPf := g.evtPf.ack seq })
    | (some r, 0x108), .vf _ => s.modRegion r (fun g => { g with evtVf := g.evtVf.ack seq })
    | (some r, _), .pf => s.modRegion r (fun g => { g with fwPf := g.fwPf.ack seq })
    | (some r, _), .vf _ => s.modRegion r (fun g => { g with fwVf := g.fwVf.ack seq })

/-- EVENT_ACK. -/
def execEventAck (fn : Fn) (off : BitVec 24) (seq : BitVec 16) (s : State) : Host.Outcome State Fault Refusal :=
  accessed fn off.toNat (fun s => .next (if s.opens fn then ackWrite fn off.toNat seq s else s)) s

/-! ### Writes of the region window -/

/-- A write of a window header (09 R238). -/
def xwinWrite (r : RegionId) (win : Nat) (v : Word) (s : State) : State :=
  if Word.bits v 0 16 < 16 then s
  else (s.regionClean r 0 (0x1000 + 4 * win)).modRegion r (fun g => { g with xwin := g.xwin.put win (v &&& 0x1FFFF#32) })

/-- XWIN_WRITE. -/
def execXwinWrite (fn : Fn) (rg : RegionId) (win : BitVec 8) (v : Word) (s : State) : Host.Outcome State Fault Refusal :=
  .next (if s.opens fn then xwinWrite (windowOf fn rg) win.toNat v s else s)

/-- A write of EXP_TAIL (15 R401; log entry 42). -/
def tailWrite (r : RegionId) (v : Word) (s : State) : State :=
  s.modRegion r (fun g => { g with exp := { g.exp with tail := v } })

/-- EXP_TAIL_WRITE. -/
def execExpTailWrite (fn : Fn) (rg : RegionId) (v : Word) (s : State) : Host.Outcome State Fault Refusal :=
  .next (if s.opens fn then tailWrite (windowOf fn rg) v s else s)

/-- A write of HAZ_TAIL: ignored where it would pass HAZ_HEAD (17 R442). -/
def hazWrite (r : RegionId) (v : Word) (s : State) : State :=
  let f := (s.region r).faults
  let t : BitVec 10 := v.extractLsb' 0 10
  if (f.head - f.tail).toNat < (t - f.tail).toNat then s
  else (s.regionClean r 0 0x218).modRegion r (fun g => { g with faults := { g.faults with tail := t } })

/-- HAZ_TAIL_WRITE. -/
def execHazTailWrite (fn : Fn) (rg : RegionId) (v : Word) (s : State) : Host.Outcome State Fault Refusal :=
  .next (if s.opens fn then hazWrite (windowOf fn rg) v s else s)

/-- A write of BRAKE_LIMIT: below 1,250 it is ignored (17 R442). -/
def limitWrite (r : RegionId) (v : Word) (s : State) : State :=
  if Word.bits v 0 24 < 1250 then s
  else (s.regionClean r 0 0x110).modRegion r (fun g => { g with brake := { g.brake with limit := v.extractLsb' 0 24 } })

/-! ### The doorbell (17 R427) -/

/-- A reserved opcode (17 R424). -/
def badCommand (op : Nat) (fn : Fn) (tag : BitVec 16) (a : ArgBlock) (s : State) : State :=
  mailCommand op .f [(0, 64)] noHref fn 0 tag a (fun c s => s.done c.f eBadop) s

/-- The command an opcode names. -/
def doorbell (op : Nat) (fn : Fn) (rg : RegionId) (tag : BitVec 16) (a : ArgBlock) (s : State) :
    Host.Outcome State Fault Refusal :=
  match op with
  | 0x01 => execLoadFrame fn rg tag a s
  | 0x02 => execLoadRegionFrame fn rg tag a s
  | 0x03 => execRetireColumn fn rg tag a s
  | 0x04 => execRevokeKey fn rg tag a s
  | 0x05 => execSetIdentity fn rg tag a s
  | 0x06 => execLinkRetrain fn rg tag a s
  | 0x07 => execCadenceSet fn rg tag a s
  | 0x08 => execRegionGrant fn rg tag a s
  | 0x09 => execRegionRevoke fn rg tag a s
  | 0x0A => execMmuRoot fn rg tag a s
  | 0x0B => execMmuInval fn rg tag a s
  | 0x0C => execBufReg fn rg tag a s
  | 0x0D => execBufFree fn rg tag a s
  | 0x0E => execSyncSet fn rg tag a s
  | 0x0F => execSyncDump fn rg tag a s
  | 0x10 => execLoadProgram fn rg tag a s
  | 0x11 => execLoadDesc fn rg tag a s
  | 0x12 => execUpdList fn rg tag a s
  | 0x13 => execUpdSetStep fn rg tag a s
  | 0x14 => execUpdDisarm fn rg tag a s
  | 0x15 => execUpdEmit fn rg tag a s
  | 0x16 => execDrlRun fn rg tag a s
  | 0x17 => execFwConfig fn rg tag a s
  | 0x18 => execFwExport fn rg tag a s
  | 0x19 => execRollback fn rg tag a s
  | 0x1A => execAdopt fn rg tag a s
  | 0x1B => execSetClock fn rg tag a s
  | 0x1C => execSetPowerCap fn rg tag a s
  | 0x1D => execSetCal fn rg tag a s
  | 0x1E => .next (resetCommand fn rg tag a s)
  | _ => .next (badCommand op fn tag a s)

/-! ### Register writes (00 R11, R12; 17 R439 to R442) -/

/-- A write of an argument word. -/
def argWrite (f off : Nat) (v : Word) (s : State) : State :=
  s.modMail f (fun m => { m with args := Word.put m.args (8 * (off - 0x10)) 32 v.toNat })

/-- A write of a register of region `r`'s window. -/
def winWrite (fn : Fn) (r : RegionId) (full off : Nat) (v : Word) (s : State) : Host.Outcome State Fault Refusal :=
  if off = 0x500 then execSyncVsel fn r v s
  else .next (
    if off = 0x110 then limitWrite r v s
    else if off = 0x218 then hazWrite r v s
    else if off = 0x4A0 then tailWrite r v s
    else if off = 0x108 ∨ off = 0x4A8 then ackWrite fn full (v.extractLsb' 0 16) s
    else if 0x1000 ≤ off ∧ off < 0x1400 ∧ off % 4 = 0 then xwinWrite r ((off - 0x1000) / 4) v s
    else s)

/-- A write of a register of the provider window. Its parity is set anew; a unit that has stopped stays so (R435, R436). -/
def provWrite (off : Nat) (v : Word) (s : State) : State :=
  let s := s.parityClean (fun h => h.region.isNone && h.loc == parityAt 4 off)
  if off = 0x2010 then
    let q := s.draw 1
    blockReset (Word.bits v 0 4) (Word.bits v 8 12) (q.1 == 1) q.2
  else if off = 0x2020 then
    { s with hub := { s.hub with fwAddr := Word.put s.hub.fwAddr 12 20 (v.toNat / 4096) } }
  else if off = 0x2024 then { s with hub := { s.hub with fwAddr := Word.put s.hub.fwAddr 32 32 v.toNat } }
  else if off = 0x2028 then { s with hub := { s.hub with fwLen := v.extractLsb' 0 23 } }
  else if off = 0x202C then (if Word.bit v 0 then fwGo s else s)
  else if off = 0x20C0 then { s with power := { s.power with calSel := v.extractLsb' 0 16 } }
  else ackWrite .pf off (v.extractLsb' 0 16) s

/-- REGISTER_WRITE: a write through a function's window. Read-only and undefined offsets ignore it. -/
def execRegisterWrite (fn : Fn) (off : BitVec 24) (v : Word) (s : State) : Host.Outcome State Fault Refusal :=
  let o := off.toNat
  accessed fn o (fun s =>
    if s.opens fn = false then .next s
    else if o = 0 then
      doorbell (Word.bits v 0 8) fn (v.extractLsb' 8 6) (v.extractLsb' 16 16) (s.mail (fnNo fn)).args s
    else if 0x10 ≤ o ∧ o < 0x50 then .next (argWrite (fnNo fn) o v s)
    else match windowAt fn o with
      | (some r, w) => winWrite fn r o w v s
      | (none, w) => .next (provWrite w v s)) s

/-! ### Parity (17 R435, R436) -/

/-- The configuration registers of a region's window, by offset: BRAKE_LIMIT, HAZ_TAIL, SYNC_VSEL and the window headers. -/
def cfgOffset (off : Nat) : Bool :=
  off == 0x110 || off == 0x218 || off == 0x500 || (decide (0x1000 ≤ off) && decide (off < 0x1400) && off % 4 == 0)

/-- AUDIT_SEED, the TH_ registers and RETAIN. -/
def cfgCreg (n : Nat) : Bool := n == 0x020 || n == 0x035 || n == 0x036 || (decide (0x040 ≤ n) && decide (n ≤ 0x045))

/-- A location of region `r` that R435 lists. -/
def State.regionLoc (s : State) (r : RegionId) (h : ParityHit) : Bool :=
  let place := h.loc.toNat % 2 ^ 24
  match h.loc.toNat / 2 ^ 24 with
  | 0 => cfgOffset place
  | 1 => cfgCreg place && (match h.tile with
    | some t => s.regionOf t == some r
    | none => false)
  | 2 => decide (place < 128) || (decide (0x800000 ≤ place) && decide (place < 0x800000 + (s.region r).tiles.length))
  | 3 => [0x0A, 0x0E, 0x12, 0x17].contains place
  | _ => false

/-- A device-scope location that R435 lists: HUB_FW_ADDR, HUB_FW_LEN and CAL_SEL, or a field of the DEVICE section (01 R28). -/
def deviceLoc (h : ParityHit) : Bool :=
  let place := h.loc.toNat % 2 ^ 24
  match h.loc.toNat / 2 ^ 24 with
  | 4 => [0x2020, 0x2024, 0x2028, 0x20C0].contains place
  | 5 => decide (place < 100)
  | _ => false

/-- The location is one of a configuration register. -/
def State.parityLegal (s : State) (h : ParityHit) : Bool := match h.region with
  | some r => s.regionLoc r h
  | none => deviceLoc h

/-- The port whose configuration a DEVICE section location is: the one named beside PORT_ENABLE, or that of a VL_SHARE byte. -/
def hitPort (h : ParityHit) : Option PortId :=
  let place := h.loc.toNat % 2 ^ 24
  if h.loc.toNat / 2 ^ 24 ≠ 5 then none
  else if place < 2 then h.port
  else if 4 ≤ place then some (BitVec.ofNat 4 ((place - 4) / 8))
  else none

/-- A mismatch: in a region's unit the region faults CFG_PARITY; in a device-scope unit the unit stops and the location is recorded: a
port fails. -/
def parityHit (h : ParityHit) (s : State) : State := match h.region with
  | some r =>
    let g := s.region r
    if g.st = .granted ∧ g.halting = false then s.raise r h.tile none fCfgParity h.loc.toNat else s
  | none =>
    let s := ({ s with hub := { s.hub with parityLoc := h.loc } }).hubEvent 1
    match hitPort h with
    | some p => if p.toNat < 12 then failPort p s else s
    | none => { s with stopped := h.loc :: s.stopped }

/-- PARITY_SWEEP: the sweep finds the bits that have flipped since the last one, and the mismatches of region units that stand; they stand
until the register is written or reloaded (log entry 104). -/
def execParitySweep (hits : List ParityHit) (s : State) : Host.Outcome State Fault Refusal :=
  if s.hubRuns then
    let fresh := hits.filter (fun h => s.parityLegal h && !s.parity.contains h)
    let old := s.parity.filter (fun h => h.region.isSome)
    .next ((old ++ fresh).foldl (fun s h => parityHit h s) { s with parity := s.parity ++ fresh })
  else .next s

/-! ### The SMBus target and JTAG (19 R474, R476) -/

/-- One step of the packet error code, x^8 + x^2 + x + 1 (log entry 105). -/
def pecStep (c : Byte) : Byte := if c.getLsbD 7 then (c <<< 1) ^^^ 0x07#8 else c <<< 1

/-- The packet error code of the bytes of a transaction. -/
def pecOf (bs : List Byte) : Byte :=
  bs.foldl (fun c b => (List.range 8).foldl (fun c _ => pecStep c) (c ^^^ b)) 0

/-- An address byte: the target, and whether the host reads. -/
def smbAddrByte (m : SmbusCall) (read : Bool) : Byte := BitVec.ofNat 8 (2 * m.addr.toNat + if read then 1 else 0)

/-- The target answers at its address for a command code it has, code 3 alone before READY; nothing answers without power. -/
def State.smbAnswers (s : State) (m : SmbusCall) (code : Nat) : Bool :=
  s.resets.pwrgood && m.addr.toNat == 0x60 + s.resets.straps.toNat % 4 && m.code.toNat == code && (s.resets.ready || code == 3)

/-- A transaction answered with NACK. -/
def smbNack (s : State) : State := { s with hub := { s.hub with smbAck := false, smbOut := [] } }

/-- A read is answered: the bytes of the register, and the packet error code if the host reads one. `sent` are the bytes of the transaction
before them. -/
def smbAnswer (m : SmbusCall) (sent out : List Byte) (s : State) : State :=
  { s with hub := { s.hub with smbAck := true, smbOut := out ++ (match m.pec with
      | some _ => [pecOf (sent ++ out)]
      | none => []) } }

/-- SMBUS_SET_POINTER: a block write of three bytes; another length, or a packet error code that does not match, is answered with NACK. -/
def execSmbusSetPointer (bytes : List Byte) (s : State) (m : SmbusCall := .ofCode 1) : Host.Outcome State Fault Refusal :=
  let good : Bool := match m.pec with
    | some c => c == pecOf ([smbAddrByte m false, m.code, BitVec.ofNat 8 bytes.length] ++ bytes)
    | none => true
  if s.smbAnswers m 1 && decide (bytes.length = 3) && good then
    .next { s with hub := { s.hub with smbAck := true, smbOut := [], smbPtr := BitVec.ofNat 24 (leNat bytes) } }
  else .next (smbNack s)

/-- The offsets a read may name. -/
def smbReadable (off : Nat) : Bool := (decide (0x100 ≤ off) && decide (off < 0x400)) || (decide (0x2000 ≤ off) && decide (off < 0x3000))

/-- SMBUS_BLOCK_READ: the register at the pointer, which then advances; the bytes stand in `smbOut` (log entry 8). -/
def execSmbusBlockRead (s : State) (m : SmbusCall := .ofCode 2) : Host.Outcome State Fault Refusal :=
  if s.smbAnswers m 2 = false then .next (smbNack s)
  else
    let off := s.hub.smbPtr.toNat
    let v := if smbReadable off then s.regRead .pf smbReader off else 0
    let s := if smbReadable off then takeLatch .pf smbReader off s else s
    let s := smbAnswer m [smbAddrByte m false, m.code, smbAddrByte m true, 4] (leBytes 4 v.toNat) s
    .next { s with hub := { s.hub with smbPtr := s.hub.smbPtr + 4 } }

/-- SMBUS_VERSION_READ: answered before READY too. -/
def execSmbusVersionRead (s : State) (m : SmbusCall := .ofCode 3) : Host.Outcome State Fault Refusal :=
  .next (if s.smbAnswers m 3 then smbAnswer m [smbAddrByte m false, m.code, smbAddrByte m true] [0x01] s else smbNack s)

/-- JTAG_INSTRUCTION. TRST_N, filtered as every reset input is (R471), resets the port, which then holds IDCODE and takes no instruction;
`trst` is how long it was low, in ns. EXTEST takes effect only while COLD_RST_N is held low, which no command of the table begins; it
acts as BYPASS. -/
def execJtagInstruction (ir : JtagIr) (s : State) (trst : Nat := 0) : Host.Outcome State Fault Refusal :=
  let q := pulseTaken trst s
  .next { q.2 with hub := { q.2.hub with jtag := if q.1 then .idcode else if ir = .extest then .bypass else ir } }

/-- What the selected data register shifts out at capture: IDCODE reads 0x0618_04F3 (19 R476). -/
def State.jtagCapture (s : State) : Option Word := match s.hub.jtag with
  | .idcode => some 0x061804F3
  | _ => none

end Sys2Proof.Machine
end

