-- ==== Sys2Proof/Machine/Vector.lean ====
section
/-!
DEFINITION. Sys2Proof/Machine/Vector.lean: the V-slot operations (07_vector_engine.md R189) and the events of vector
jobs (R199, R203 to R208).
-/
namespace Sys2Proof.Machine
open Sys2Proof

/-- VDLD (R184, R189). -/
def execVdld (t : TileId) (w : SlotWord) (s : State) : Host.Outcome State Fault Refusal :=
  .next (slotOp .v 0x01 t w (fun i _ => encoding 0x01 i.w (wField i.w % 8 == 0 && zeroAt i.w 7 11))
    (fun i s => .ok (i.tile s (fun x =>
      { x with vec := { x.vec with vd := x.vec.vd.put (reg4Of i.w) (BitVec.ofNat 256 (srbWords x.ctl.srb (wField i.w) 8)) } }))) s)

/-- VJLD (R189, R191). -/
def execVjld (t : TileId) (w : SlotWord) (s : State) : Host.Outcome State Fault Refusal :=
  .next (slotOp .v 0x02 t w (fun i _ => encoding 0x02 i.w (wField i.w % 16 == 0 && zeroAt i.w 7 12))
    (fun i s => .ok (i.tile s (fun x =>
      { x with vec := { x.vec with vj := x.vec.vj.put (reg3Of i.w) (BitVec.ofNat 512 (srbWords x.ctl.srb (wField i.w) 16)) } }))) s)

/-- VPLD (R189, R201): the row is read at issue; a job issued 3 cy later uses the program. -/
def execVpld (t : TileId) (w : SlotWord) (s : State) : Host.Outcome State Fault Refusal :=
  .next (slotOp .v 0x03 t w (fun i _ => encoding 0x03 i.w (zeroAt i.w 10 3))
    (fun i s =>
      let row := rowField i.w
      let n := Word.bits i.w 15 5 + 1
      match readRowFault row with
      | some c => .fault s c row
      | none => rowCheck i s [(row, false)] (fun _ =>
          match s.readRow i.r i.t row i.now i.mark with
          | (_, some word, s) => .fault s fTmemPoison (row + (word <<< 16))
          | (v, none, s) =>
            let prog := (List.range n).map (fun k => rowWord v (32 * Word.bits i.w 13 2 + k))
            .ok (i.tile s (fun x =>
              let p := reg2Of i.w
              let old := Tab.get [] x.vec.progs p
              { x with vec := { x.vec with progs := x.vec.progs.put p ((i.now + 3, prog) :: old.take 3) } })))) s)

/-- Every row a job reads or writes, with its use. -/
def Job.rows (j : Job) : List (Nat × Bool) :=
  j.groups.flatMap (fun q => q.reads.map (fun e => (e.2.1, false)))
  ++ j.writes.flatMap (fun w => (if j.setup.merges w.1 w.2.2 then [(w.1, false)] else []) ++ [(w.1, true)])

/-- Start a static job (R198 to R200). -/
def startJob (i : Site) (u : JobSetup) (s : State) : State :=
  let j := u.begin_ i.now (i.now + 1)
  let cs := entersAt j.groups
  let x := s.tile i.t
  let busy := x.vec.jobs.any (fun k => (entersAt k.groups).any (fun c => decide (i.now ≤ c)))
  let clash := busy || x.vec.jobs.any (clashing cs) || x.matrix.drains.any (fun d => clashing cs d.job)
  let s := if clash then s.hazard i.r i.t i.mark hSlotConflict 0x20 else s
  i.tile s (fun x =>
    let x := takeDraws u (x.junkJobs cs)
    let y : Tile := { x with vec := { x.vec with jobs := x.vec.jobs ++ [{ j with junk := clash }] } }
    y.expecting (j.writes.map (fun w => (w.1, w.2.1))) i)

/-- VRUN (R189, R192, R200). -/
def execVrun (t : TileId) (w : SlotWord) (s : State) : Host.Outcome State Fault Refusal :=
  .next (slotOp .v 0x04 t w (fun i _ => encoding 0x04 i.w (zeroAt i.w 0 19))
    (fun i s =>
      let u := jobSetup i (reg3Of i.w) s
      if jobLegal u false = false then .fault s fIllegalOp i.w.toNat
      else rowCheck i s (u.begin_ i.now (i.now + 1)).rows (fun _ => .ok (startJob i u s))) s)

/-- Lowest and highest row of a list, below 768. -/
def rowRange (l : List Nat) : Option (Nat × Nat) :=
  l.foldl (fun m x =>
    let x := min x 767
    match m with
    | none => some (x, x)
    | some (a, b) => some (min a x, max b x)) none

/-- The ranges an asynchronous job takes entries for: each stream and each written range (R203). -/
def Job.ranges (j : Job) : List (Nat × Nat × Bool) :=
  (j.setup.streams.filterMap (fun st =>
    (rowRange (j.groups.flatMap (fun q => (q.reads.filter (fun e => e.1 == st.1)).map (fun e => e.2.1)))).map
      (fun q => (q.1, q.2, false))))
  ++ ([0, 1, 2].filterMap (fun k =>
    (rowRange ((j.writes.filter (fun w => w.2.2 == k)).map (·.1))).map (fun q => (q.1, q.2, true))))

/-- Messages an asynchronous job pops from VCQ: two values each (R204). -/
def JobSetup.vcqNeed (u : JobSetup) : Nat :=
  let lanes := if u.padTail then u.runs * (u.groupsPerRun * u.groupSize) else u.runs * u.cnt0
  (lanes * u.vcqStages + 1) / 2

/-- VRUNA (R189, R203). -/
def execVruna (t : TileId) (w : SlotWord) (s : State) : Host.Outcome State Fault Refusal :=
  .next (slotOp .v 0x05 t w (fun i _ => encoding 0x05 i.w (zeroAt i.w 0 19))
    (fun i s =>
      let u := jobSetup i (reg3Of i.w) s
      if jobLegal u true = false then .fault s fIllegalOp i.w.toNat
      else
        let rs := (u.begin_ i.now 0).ranges
        let row := match rs.head? with
          | some q => q.1
          | none => 0
        if 2 ≤ (s.tile i.t).vec.asyncs.length then
          (if (s.region i.r).inExchange then .fault s fSbExchange (row + (1 <<< 20))
           else .block { Need.zero with twoAsyncs := true, entries := rs.length })
        else entryCheck i s rs.length row (fun _ =>
          let s := i.tile s (fun x =>
            let x := takeDraws u x
            let op := x.ops
            let y : Tile := { x with ops := op + 1, vec := { x.vec with
                asyncs := x.vec.asyncs ++ [{ op := op, need := u.vcqNeed, vcq := [], setup := u }] } }
            rs.foldl (fun x q => x.allocate q.1 q.2.1 q.2.2 op) y)
          .ok (feedPort i.r i.t 4 64 s))) s)

/-- VMODE (R189, R205). -/
def execVmode (t : TileId) (w : SlotWord) (s : State) : Host.Outcome State Fault Refusal :=
  .next (slotOp .v 0x06 t w (fun i _ => encoding 0x06 i.w (zeroAt i.w 0 21))
    (fun i s => .ok (i.tile s (fun x => { x with vec := { x.vec with pending := some (Word.bit i.w 21) } }))) s)

/-- One region cycle `c` of the static jobs. -/
def vectorCycle (r : RegionId) (t : TileId) (c : Nat) (s : State) : State :=
  let js := (s.tile t).vec.jobs.foldl (fun (a : List Job × State) j =>
    let q := jobCycle r .v 0 c (fun _ => none) j a.2
    (a.1 ++ [q.1], q.2)) ([], s)
  js.2.modTile t (fun x => { x with vec := { x.vec with jobs := js.1 } })

/-- VECTOR_JOB_END (R199, R208): the static jobs whose last write is complete. -/
def execVectorJobEnd (t : TileId) (s : State) : Host.Outcome State Fault Refusal :=
  match s.moving t with
  | none => .next s
  | some r =>
    let x := s.tile t
    let done (j : Job) : Bool := decide (j.ends ≤ (s.region r).cycle)
    let y : Tile := { x with vec := { x.vec with jobs := x.vec.jobs.filter (fun j => !done j) } }
    .next (s.setTile t ((x.vec.jobs.filter done).foldl Tile.jobOver y))

/-! ### Asynchronous jobs (R203, R204) -/

/-- VCQ messages that must be there for groups 0 to `g` (R204): two values each, for active lanes only. -/
def AsyncJob.valsFor (j : AsyncJob) (gs : List VGroup) (g : Nat) : Nat :=
  let lanes := ((gs.take (g + 1)).map (fun q => (j.setup.active q.base).length)).sum
  (lanes * j.setup.vcqStages + 1) / 2

/-- What an asynchronous job takes, in order: each group's rows and its entry into stage 1, then every row it writes, a partial
one read first. The order within a job is the model's (log entry 59). -/
def AsyncJob.steps (j : AsyncJob) : List FreeStep :=
  let jb := j.setup.begin_ 0 0
  jb.groups.zipIdx.flatMap (fun q => q.1.reads.map (fun e => FreeStep.use e.2.1) ++ [.stage q.2 (j.valsFor jb.groups q.2)])
  ++ jb.writes.flatMap (fun w =>
      (if j.setup.merges w.1 w.2.2 then [FreeStep.use w.1] else []) ++ [.put w.1 (jb.groups.length - 1)])

/-- Read a row for an asynchronous job: into `got`, or the first fault. -/
def asyncRead (r : RegionId) (t : TileId) (key row : Nat) (a : Job × Option (Nat × Nat) × State) :
    Job × Option (Nat × Nat) × State :=
  match a.2.1 with
  | some _ => a
  | none =>
    match readRowFault row with
    | some c => (a.1, some (c, row), a.2.2)
    | none => match a.2.2.readFree r t row (some (.v, a.1.setup.pc)) with
      | (_, some w, s) => (a.1, some (fTmemPoison, row + (w <<< 16)), s)
      | (v, none, s) => ({ a.1 with got := a.1.got.put key v }, none, s)

/-- Write a row for an asynchronous job. -/
def asyncWrite (t : TileId) (row kind : Nat) (a : Job × Option (Nat × Nat) × State) : Job × Option (Nat × Nat) × State :=
  match a.2.1 with
  | some _ => a
  | none =>
    match writeRowFault row with
    | some c => (a.1, some (c, row % 1024), a.2.2)
    | none =>
      let q := writeData a.1 row kind (Tab.get 0 a.1.got (mergeKey row kind)) a.2.2
      (q.2.1, none, q.2.2.writeFree t row q.1)

/-- What an asynchronous job does: reads, groups, merge reads and writes, or the fault it meets. Its rows are held by its
entries, so it finds at its end what its accesses found (02 R77). -/
def asyncRun (r : RegionId) (t : TileId) (j : AsyncJob) (s : State) : Job × Option (Nat × Nat) × State :=
  let jb := { j.setup.begin_ 0 0 with async := true }
  let a := (jb.groups.flatMap (fun q => q.reads)).foldl (fun a e => asyncRead r t (1024 * e.1 + e.2.1) e.2.1 a) (jb, none, s)
  let vcq := j.vcq.flatMap (fun m => [m.extractLsb' 0 32, m.extractLsb' 32 32])
  match a with
  | (jb, some f, s) => (jb, some f, s)
  | (jb, none, s) =>
    let q := jb.groups.foldl (fun (a : Job × State) g => evalGroup g (fun _ => none) vcq a.1 a.2) (jb, s)
    jb.writes.foldl (fun a w =>
      let a := if jb.setup.merges w.1 w.2.2 then asyncRead r t (mergeKey w.1 w.2.2) w.1 a else a
      asyncWrite t w.1 w.2.2 a) (q.1, none, q.2)

/-- ASYNC_JOB_COMPLETE (R203): the `k`-th running asynchronous job has had its last row access; its entries clear together,
and its counts, summaries, flags and records take effect. -/
def execAsyncJobComplete (t : TileId) (k : BitVec 1) (s : State) : Host.Outcome State Fault Refusal :=
  match s.moving t with
  | none => .next s
  | some r =>
    match (s.tile t).vec.asyncs[k.toNat]? with
    | none => .next s
    | some j =>
      if (s.tile t).granted (.async j.op) = false then .next s
      else
        let gone (s : State) : State := s.modTile t (fun x =>
          { x.dropReq (.async j.op) with vec := { x.vec with asyncs := x.vec.asyncs.filter (fun c => c.op ≠ j.op) } })
        match asyncRun r t j s with
        | (_, some (c, d), s) => .next ((gone s).raise r (some t) (some (.v, j.setup.pc)) c d)
        | (jb, none, s) =>
          let s := (gone s).modTile t (fun x => (x.jobOver jb).release j.op)
          .next ((feedPort r t 4 64 s).noteClear r t)

end Sys2Proof.Machine
end

