-- ==== Sys2Proof/Machine/Dispatch.lean ====
section
/-!
DEFINITION. Sys2Proof/Machine/Dispatch.lean: one arm per command, each a direct call of its meaning.
-/
namespace Sys2Proof.Machine
open Sys2Proof

def exec (i : Instr) (s : State) : Host.Outcome State Fault Refusal :=
  match i with
  | .nop t slot w => Sys2Proof.Machine.execNop t slot w s
  | .alu t w => Sys2Proof.Machine.execAlu t w s
  | .addi t w => Sys2Proof.Machine.execAddi t w s
  | .andi t w => Sys2Proof.Machine.execAndi t w s
  | .ori t w => Sys2Proof.Machine.execOri t w s
  | .xori t w => Sys2Proof.Machine.execXori t w s
  | .shi t w => Sys2Proof.Machine.execShi t w s
  | .lui t w => Sys2Proof.Machine.execLui t w s
  | .setp t w => Sys2Proof.Machine.execSetp t w s
  | .plog t w => Sys2Proof.Machine.execPlog t w s
  | .br t w => Sys2Proof.Machine.execBr t w s
  | .call t w => Sys2Proof.Machine.execCall t w s
  | .jr t w => Sys2Proof.Machine.execJr t w s
  | .loopi t w => Sys2Proof.Machine.execLoopi t w s
  | .loopr t w => Sys2Proof.Machine.execLoopr t w s
  | .fop t w => Sys2Proof.Machine.execFop t w s
  | .dop t w => Sys2Proof.Machine.execDop t w s
  | .fsetp t w => Sys2Proof.Machine.execFsetp t w s
  | .mfc t w => Sys2Proof.Machine.execMfc t w s
  | .mtc t w => Sys2Proof.Machine.execMtc t w s
  | .rowld t w => Sys2Proof.Machine.execRowld t w s
  | .rowst t w => Sys2Proof.Machine.execRowst t w s
  | .ldw t w => Sys2Proof.Machine.execLdw t w s
  | .stw t w => Sys2Proof.Machine.execStw t w s
  | .cqrd t w => Sys2Proof.Machine.execCqrd t w s
  | .endOp t w => Sys2Proof.Machine.execEndOp t w s
  | .ssig t w => Sys2Proof.Machine.execSsig t w s
  | .ssigr t w => Sys2Proof.Machine.execSsigr t w s
  | .swait t w => Sys2Proof.Machine.execSwait t w s
  | .sread t w => Sys2Proof.Machine.execSread t w s
  | .sbar t w => Sys2Proof.Machine.execSbar t w s
  | .sarr t w => Sys2Proof.Machine.execSarr t w s
  | .sbwait t w => Sys2Proof.Machine.execSbwait t w s
  | .scfg t w => Sys2Proof.Machine.execScfg t w s
  | .mpass t w => Sys2Proof.Machine.execMpass t w s
  | .mdrain t w => Sys2Proof.Machine.execMdrain t w s
  | .mdld t w => Sys2Proof.Machine.execMdld t w s
  | .vdld t w => Sys2Proof.Machine.execVdld t w s
  | .vjld t w => Sys2Proof.Machine.execVjld t w s
  | .vpld t w => Sys2Proof.Machine.execVpld t w s
  | .vrun t w => Sys2Proof.Machine.execVrun t w s
  | .vruna t w => Sys2Proof.Machine.execVruna t w s
  | .vmode t w => Sys2Proof.Machine.execVmode t w s
  | .xrld t w => Sys2Proof.Machine.execXrld t w s
  | .xvld t w => Sys2Proof.Machine.execXvld t w s
  | .xsend t w => Sys2Proof.Machine.execXsend t w s
  | .xrecv t w => Sys2Proof.Machine.execXrecv t w s
  | .xdue t w => Sys2Proof.Machine.execXdue t w s
  | .xsel t w => Sys2Proof.Machine.execXsel t w s
  | .clreq t w => Sys2Proof.Machine.execClreq t w s
  | .xmov t w => Sys2Proof.Machine.execXmov t w s
  | .dmld t w => Sys2Proof.Machine.execDmld t w s
  | .dmard t w => Sys2Proof.Machine.execDmard t w s
  | .dmawr t w => Sys2Proof.Machine.execDmawr t w s
  | .dmaacc t w => Sys2Proof.Machine.execDmaacc t w s
  | .dmazf t w => Sys2Proof.Machine.execDmazf t w s
  | .dmaxr t w => Sys2Proof.Machine.execDmaxr t w s
  | .chopen t w => Sys2Proof.Machine.execChopen t w s
  | .chsend t w => Sys2Proof.Machine.execChsend t w s
  | .chclose t w => Sys2Proof.Machine.execChclose t w s
  | .cqrow t w => Sys2Proof.Machine.execCqrow t w s
  | .haltEngage r => Sys2Proof.Machine.execHaltEngage r s
  | .stallResume t => Sys2Proof.Machine.execStallResume t s
  | .scoreboardClear t e => Sys2Proof.Machine.execScoreboardClear t e s
  | .scrubWindow t tm pm => Sys2Proof.Machine.execScrubWindow t tm pm s
  | .scrubPassStart => Sys2Proof.Machine.execScrubPassStart s
  | .matrixPassComplete t => Sys2Proof.Machine.execMatrixPassComplete t s
  | .drainComplete t => Sys2Proof.Machine.execDrainComplete t s
  | .vectorJobEnd t => Sys2Proof.Machine.execVectorJobEnd t s
  | .asyncJobComplete t k => Sys2Proof.Machine.execAsyncJobComplete t k s
  | .syncOpArrival r obj => Sys2Proof.Machine.execSyncOpArrival r obj s
  | .releaseWake r obj => Sys2Proof.Machine.execReleaseWake r obj s
  | .waiterWake t => Sys2Proof.Machine.execWaiterWake t s
  | .exchangeWindowOpen r => Sys2Proof.Machine.execExchangeWindowOpen r s
  | .exchangeWindowEnd r => Sys2Proof.Machine.execExchangeWindowEnd r s
  | .compiledRowArrival t => Sys2Proof.Machine.execCompiledRowArrival t s
  | .armedReceiveMissed t => Sys2Proof.Machine.execArmedReceiveMissed t s
  | .lateItemRowWrite t item => Sys2Proof.Machine.execLateItemRowWrite t item s
  | .brakeFreeze r => Sys2Proof.Machine.execBrakeFreeze r s
  | .brakeThaw r => Sys2Proof.Machine.execBrakeThaw r s
  | .brakeTimeout r => Sys2Proof.Machine.execBrakeTimeout r s
  | .codeLoadBlock r slot t => Sys2Proof.Machine.execCodeLoadBlock r slot t s
  | .entryHoldRelease r => Sys2Proof.Machine.execEntryHoldRelease r s
  | .chanOpenRequest t ch => Sys2Proof.Machine.execChanOpenRequest t ch s
  | .chanMessageDelivery t ch => Sys2Proof.Machine.execChanMessageDelivery t ch s
  | .chanCreditReturn t ch => Sys2Proof.Machine.execChanCreditReturn t ch s
  | .chanCloseMarker t port => Sys2Proof.Machine.execChanCloseMarker t port s
  | .pageWalk req => Sys2Proof.Machine.execPageWalk req s
  | .dmaComplete t id => Sys2Proof.Machine.execDmaComplete t id s
  | .memReadRetry addr ok t found => Sys2Proof.Machine.execMemReadRetry addr ok t s found
  | .patrolScrub addr found => Sys2Proof.Machine.execPatrolScrub addr found s
  | .zeroSweep page => Sys2Proof.Machine.execZeroSweep page s
  | .memTempOver u => Sys2Proof.Machine.execMemTempOver u s
  | .memTempRecover u => Sys2Proof.Machine.execMemTempRecover u s
  | .unitReturn cls idx owner epoch => Sys2Proof.Machine.execUnitReturn cls idx s owner epoch
  | .unitReload cls idx => Sys2Proof.Machine.execUnitReload cls idx s
  | .frameSlotSend p frac => Sys2Proof.Machine.execFrameSlotSend p frac s
  | .dataFlit p f errs => Sys2Proof.Machine.execDataFlit p f errs s
  | .idleFlit p f errs => Sys2Proof.Machine.execIdleFlit p f errs s
  | .holdFlit p f errs => Sys2Proof.Machine.execHoldFlit p f errs s
  | .ctrlFlit p f errs frac => Sys2Proof.Machine.execCtrlFlit p f errs frac s
  | .replayTimeout p => Sys2Proof.Machine.execReplayTimeout p s
  | .laneSignalLoss p lane => Sys2Proof.Machine.execLaneSignalLoss p lane s
  | .laneUeThreshold p lane => Sys2Proof.Machine.execLaneUeThreshold p lane s
  | .linkTrainingDone p bad => Sys2Proof.Machine.execLinkTrainingDone p bad s
  | .trainingTimeout p => Sys2Proof.Machine.execTrainingTimeout p s
  | .helloTimeout p => Sys2Proof.Machine.execHelloTimeout p s
  | .rowWr p v => Sys2Proof.Machine.execRowWr p v s
  | .memWr p v => Sys2Proof.Machine.execMemWr p v s
  | .memAcc p v => Sys2Proof.Machine.execMemAcc p v s
  | .sig p v => Sys2Proof.Machine.execSig p v s
  | .barArr p v => Sys2Proof.Machine.execBarArr p v s
  | .barRel p v => Sys2Proof.Machine.execBarRel p v s
  | .barAbort p v => Sys2Proof.Machine.execBarAbort p v s
  | .memRej p v => Sys2Proof.Machine.execMemRej p v s
  | .drlMove p v => Sys2Proof.Machine.execDrlMove p v s
  | .drlMoveDone p v => Sys2Proof.Machine.execDrlMoveDone p v s
  | .drlRoundTimeout r => Sys2Proof.Machine.execDrlRoundTimeout r s
  | .fwMirrorData p v => Sys2Proof.Machine.execFwMirrorData p v s
  | .fwMirrorDone p v => Sys2Proof.Machine.execFwMirrorDone p v s
  | .fwMirrorAck p v => Sys2Proof.Machine.execFwMirrorAck p v s
  | .fwRestoreRequest p v => Sys2Proof.Machine.execFwRestoreRequest p v s
  | .fwRestoreData p v => Sys2Proof.Machine.execFwRestoreData p v s
  | .fwRestoreDone p v => Sys2Proof.Machine.execFwRestoreDone p v s
  | .fwRestoreRefuse p v => Sys2Proof.Machine.execFwRestoreRefuse p v s
  | .restoreTimeout r => Sys2Proof.Machine.execRestoreTimeout r s
  | .fwMirrorStart r => Sys2Proof.Machine.execFwMirrorStart r s
  | .fwRemirrorStart r => Sys2Proof.Machine.execFwRemirrorStart r s
  | .fwStall r => Sys2Proof.Machine.execFwStall r s
  | .exportStart r => Sys2Proof.Machine.execExportStart r s
  | .exportRecord r => Sys2Proof.Machine.execExportRecord r s
  | .exportComplete r => Sys2Proof.Machine.execExportComplete r s
  | .updStepStart r => Sys2Proof.Machine.execUpdStepStart r s
  | .updStepEnd r => Sys2Proof.Machine.execUpdStepEnd r s
  | .syncSetApply fn => Sys2Proof.Machine.execSyncSetApply fn s
  | .syncSetTimeout fn => Sys2Proof.Machine.execSyncSetTimeout fn s
  | .cadenceLoadBeat => Sys2Proof.Machine.execCadenceLoadBeat s
  | .cadenceLoss => Sys2Proof.Machine.execCadenceLoss s
  | .cadenceRecover err => Sys2Proof.Machine.execCadenceRecover err s
  | .powerWindow sample => Sys2Proof.Machine.execPowerWindow sample s
  | .limitBrakeEnd r => Sys2Proof.Machine.execLimitBrakeEnd r s
  | .clockStepChange => Sys2Proof.Machine.execClockStepChange s
  | .clockCeilEvent => Sys2Proof.Machine.execClockCeilEvent s
  | .paritySweep hits => Sys2Proof.Machine.execParitySweep hits s
  | .thermalTrip => Sys2Proof.Machine.execThermalTrip s
  | .vrFault reg => Sys2Proof.Machine.execVrFault reg s
  | .vrAlert => Sys2Proof.Machine.execVrAlert s
  | .pwrgoodRise vbkupLost straps => Sys2Proof.Machine.execPwrgoodRise vbkupLost straps s
  | .pwrgoodFall => Sys2Proof.Machine.execPwrgoodFall s
  | .coldRstN ns => Sys2Proof.Machine.execColdRstN ns s
  | .warmRstN ns => Sys2Proof.Machine.execWarmRstN ns s
  | .perstN ns => Sys2Proof.Machine.execPerstN s ns
  | .hubWatchdog => Sys2Proof.Machine.execHubWatchdog s
  | .resetReleaseStep waited fuseOk => Sys2Proof.Machine.execResetReleaseStep waited fuseOk s
  | .resetCommandStart => Sys2Proof.Machine.execResetCommandStart s
  | .flr fn => Sys2Proof.Machine.execFlr fn s
  | .loadFrame fn rg tag a => Sys2Proof.Machine.execLoadFrame fn rg tag a s
  | .loadRegionFrame fn rg tag a => Sys2Proof.Machine.execLoadRegionFrame fn rg tag a s
  | .frameLoadComplete image => Sys2Proof.Machine.execFrameLoadComplete image s
  | .retireColumn fn rg tag a => Sys2Proof.Machine.execRetireColumn fn rg tag a s
  | .retireFusePulseEnd readback => Sys2Proof.Machine.execRetireFusePulseEnd readback s
  | .revokeKey fn rg tag a => Sys2Proof.Machine.execRevokeKey fn rg tag a s
  | .setIdentity fn rg tag a => Sys2Proof.Machine.execSetIdentity fn rg tag a s
  | .linkRetrain fn rg tag a => Sys2Proof.Machine.execLinkRetrain fn rg tag a s
  | .cadenceSet fn rg tag a => Sys2Proof.Machine.execCadenceSet fn rg tag a s
  | .regionGrant fn rg tag a => Sys2Proof.Machine.execRegionGrant fn rg tag a s
  | .grantComplete r => Sys2Proof.Machine.execGrantComplete r s
  | .regionRevoke fn rg tag a => Sys2Proof.Machine.execRegionRevoke fn rg tag a s
  | .revokeComplete r => Sys2Proof.Machine.execRevokeComplete r s
  | .mmuRoot fn rg tag a => Sys2Proof.Machine.execMmuRoot fn rg tag a s
  | .mmuInval fn rg tag a => Sys2Proof.Machine.execMmuInval fn rg tag a s
  | .bufReg fn rg tag a => Sys2Proof.Machine.execBufReg fn rg tag a s
  | .bufFree fn rg tag a => Sys2Proof.Machine.execBufFree fn rg tag a s
  | .syncSet fn rg tag a => Sys2Proof.Machine.execSyncSet fn rg tag a s
  | .syncDump fn rg tag a => Sys2Proof.Machine.execSyncDump fn rg tag a s
  | .syncDumpComplete fn => Sys2Proof.Machine.execSyncDumpComplete fn s
  | .loadProgram fn rg tag a => Sys2Proof.Machine.execLoadProgram fn rg tag a s
  | .programLoadComplete r => Sys2Proof.Machine.execProgramLoadComplete r s
  | .loadDesc fn rg tag a => Sys2Proof.Machine.execLoadDesc fn rg tag a s
  | .updList fn rg tag a => Sys2Proof.Machine.execUpdList fn rg tag a s
  | .updSetStep fn rg tag a => Sys2Proof.Machine.execUpdSetStep fn rg tag a s
  | .updDisarm fn rg tag a => Sys2Proof.Machine.execUpdDisarm fn rg tag a s
  | .updEmit fn rg tag a => Sys2Proof.Machine.execUpdEmit fn rg tag a s
  | .drlRun fn rg tag a => Sys2Proof.Machine.execDrlRun fn rg tag a s
  | .fwConfig fn rg tag a => Sys2Proof.Machine.execFwConfig fn rg tag a s
  | .fwExport fn rg tag a => Sys2Proof.Machine.execFwExport fn rg tag a s
  | .rollback fn rg tag a => Sys2Proof.Machine.execRollback fn rg tag a s
  | .adopt fn rg tag a => Sys2Proof.Machine.execAdopt fn rg tag a s
  | .setClock fn rg tag a => Sys2Proof.Machine.execSetClock fn rg tag a s
  | .setPowerCap fn rg tag a => Sys2Proof.Machine.execSetPowerCap fn rg tag a s
  | .setCal fn rg tag a => Sys2Proof.Machine.execSetCal fn rg tag a s
  | .resetWarm fn rg tag a => Sys2Proof.Machine.execResetWarm fn rg tag a s
  | .resetCold fn rg tag a => Sys2Proof.Machine.execResetCold fn rg tag a s
  | .resetHubCpu fn rg tag a => Sys2Proof.Machine.execResetHubCpu fn rg tag a s
  | .resetPcieEp fn rg tag a => Sys2Proof.Machine.execResetPcieEp fn rg tag a s
  | .resetFuseCtl fn rg tag a => Sys2Proof.Machine.execResetFuseCtl fn rg tag a s
  | .resetCadence fn rg tag a => Sys2Proof.Machine.execResetCadence fn rg tag a s
  | .eventAck fn off seq => Sys2Proof.Machine.execEventAck fn off seq s
  | .latchingRead fn off => Sys2Proof.Machine.execLatchingRead fn off s
  | .syncVsel fn rg v => Sys2Proof.Machine.execSyncVsel fn rg v s
  | .xwinWrite fn rg win v => Sys2Proof.Machine.execXwinWrite fn rg win v s
  | .expTailWrite fn rg v => Sys2Proof.Machine.execExpTailWrite fn rg v s
  | .blkRstTileColumn idx idle => Sys2Proof.Machine.execBlkRstTileColumn idx idle s
  | .blkRstLinkPort idx idle => Sys2Proof.Machine.execBlkRstLinkPort idx idle s
  | .blkRstHbmChannel idx idle => Sys2Proof.Machine.execBlkRstHbmChannel idx idle s
  | .blkRstLpddrChannel idx idle => Sys2Proof.Machine.execBlkRstLpddrChannel idx idle s
  | .blkRstUpdateUnit idx idle => Sys2Proof.Machine.execBlkRstUpdateUnit idx idle s
  | .hubFwGo => Sys2Proof.Machine.execHubFwGo s
  | .hubFwLoadDone image => Sys2Proof.Machine.execHubFwLoadDone image s
  | .registerWrite fn off v => Sys2Proof.Machine.execRegisterWrite fn off v s
  | .smbusSetPointer bytes m => Sys2Proof.Machine.execSmbusSetPointer bytes s m
  | .smbusBlockRead m => Sys2Proof.Machine.execSmbusBlockRead s m
  | .smbusVersionRead m => Sys2Proof.Machine.execSmbusVersionRead s m
  | .jtagInstruction ir trst => Sys2Proof.Machine.execJtagInstruction ir s trst
  | .beatBoundary => Sys2Proof.Machine.execBeatBoundary s
  | .vrFaultClear reg => Sys2Proof.Machine.execVrFaultClear reg s
  | .vrAlertRelease => Sys2Proof.Machine.execVrAlertRelease s
  | .thermHoldRelease => Sys2Proof.Machine.execThermHoldRelease s
  | .vbkupLoss => Sys2Proof.Machine.execVbkupLoss s
  | .railOutOfTolerance rail => Sys2Proof.Machine.execRailOutOfTolerance rail s
  | .revokeFusePulseEnd => Sys2Proof.Machine.execRevokeFusePulseEnd s
  | .hazTailWrite fn rg v => Sys2Proof.Machine.execHazTailWrite fn rg v s

end Sys2Proof.Machine
end

