-- ==== Sys2Proof/Machine/FreeBank.lean ====
section
/-!
DEFINITION. Sys2Proof/Machine/FreeBank.lean: who gets the bank cycles that the schedule leaves free (02_tile.md R70; 07 R203):
the scrubber once per bank and window, then the accesses of variable latency, the oldest request first, then the scrubber.
-/
namespace Sys2Proof.Machine
open Sys2Proof

/-! ### Requests -/

/-- Rows `row` to `row + n − 1`, a bank cycle each. -/
def useRows (row n : Nat) : List FreeStep := (List.range n).map (fun k => .use (row + k))

/-- A request not served yet. -/
def FreeReq.of (who : FreeWho) (steps : List FreeStep) : FreeReq := { who := who, steps := steps, enters := [] }

/-- A DMA asks once its rows are at hand or its pages are translated (11 R299). -/
def Dma.request (d : Dma) : Option FreeReq :=
  let asks := match d.op with
    | .rd => d.data.isSome
    | .wr => d.pas.isSome && d.data.isNone
    | .acc => d.pas.isSome && d.data.isNone
    | _ => false
  if asks then some (.of (.dma d.id) (useRows d.row d.n)) else none

/-- A row of a late item asks once it has arrived and is declared (09 R240, R245): its scale row, if that is still to be read,
and the rows it becomes. -/
def Tile.lateRequest (x : Tile) (q : InRow) : Option FreeReq := match x.declOf q with
  | none => none
  | some d =>
    if d.n ≤ q.k then none
    else
      let wn := if d.widens then xvRows d.xv else 1
      some (.of q.who ((if d.widens && d.scale.isNone then [.use (xvScrow d.xv)] else []) ++ useRows (d.row + q.k * wn) wn))

/-- A channel row asks once all its messages are there (10 R277). -/
def CqRow.request (k : CqRow) : Option FreeReq :=
  if k.got.length = k.n then some (.of (.cqrow k.op) (useRows k.row 1)) else none

/-- The requests of a tile in this cycle: those it has made and that still stand, then the new ones. -/
def Tile.newReqs (x : Tile) (rows : List InRow) : List FreeReq :=
  let all := x.vec.asyncs.map (fun j => FreeReq.of (.async j.op) j.steps) ++ x.dmas.filterMap Dma.request
    ++ rows.filterMap x.lateRequest ++ x.cqrows.filterMap CqRow.request
  all.foldl (fun l q => if l.any (fun p => p.who == q.who) then l else l ++ [q])
    (x.reqs.filter (fun p => all.any (fun q => q.who == p.who)))

/-! ### One cycle -/

/-- What is left to give in a cycle: free banks, stage 1, and late items that already wait. -/
structure FreeTurn where
  banks : List Nat
  stage : Bool
  held : List (BitVec 16)

/-- The accesses at the head of a list that the free banks take in cycle `now`. A row that no bank holds takes none. -/
def takeUses (enters : Tab Nat) (depth now : Nat) : List FreeStep → List Nat → List FreeStep × List Nat
  | .use row :: rest, banks =>
    if 768 ≤ row then takeUses enters depth now rest banks
    else if banks.contains (row % 4) then takeUses enters depth now rest (banks.filter (fun b => b != row % 4))
    else (.use row :: rest, banks)
  | .put row g :: rest, banks =>
    if Tab.get now enters g + 4 * depth ≤ now then
      if 768 ≤ row then takeUses enters depth now rest banks
      else if banks.contains (row % 4) then takeUses enters depth now rest (banks.filter (fun b => b != row % 4))
      else (.put row g :: rest, banks)
    else (.put row g :: rest, banks)
  | l, banks => (l, banks)

/-- A request's cycle: a group into stage 1, or the accesses at its head. -/
def FreeReq.advance (q : FreeReq) (depth vals now : Nat) (f : FreeTurn) : FreeReq × FreeTurn :=
  match q.steps with
  | .stage g v :: rest =>
    if f.stage && decide (v ≤ vals) then ({ q with steps := rest, enters := q.enters.put g now }, { f with stage := false })
    else (q, f)
  | l =>
    let a := takeUses q.enters depth now l f.banks
    ({ q with steps := a.1 }, { f with banks := a.2 })

/-- The item whose rows go in the order they arrive (09 R240). -/
def FreeReq.item (q : FreeReq) : Option (BitVec 16) := match q.who with
  | .late item _ none => some item
  | _ => none

/-- One request of a tile in its turn, the oldest first: an asynchronous job stands while its region does (03 R96). -/
def Tile.serveReq (x : Tile) (still : Bool) (now : Nat) (q : FreeReq) (f : FreeTurn) : FreeReq × FreeTurn :=
  match q.who with
  | .async op =>
    if still then (q, f)
    else match x.vec.asyncs.find? (fun j => j.op == op) with
      | some j => q.advance j.setup.depth j.vcq.length now f
      | none => (q, f)
  | _ => match q.item with
    | some i =>
      if f.held.contains i then (q, f)
      else
        let a := q.advance 0 0 now f
        (a.1, if a.1.steps.isEmpty then a.2 else { a.2 with held := i :: a.2.held })
    | none => q.advance 0 0 now f

/-- The requests of a tile in one cycle. -/
def Tile.serveReqs (x : Tile) (still : Bool) (now : Nat) (l : List FreeReq) (f : FreeTurn) : List FreeReq × FreeTurn :=
  l.foldl (fun (a : List FreeReq × FreeTurn) q =>
    let b := x.serveReq still now q a.2
    (a.1 ++ [b.1], b.2)) ([], f)

/-- Stage 1 is claimed in cycle `c` by a static job or a drain (07 R200). -/
def Tile.stageClaimed (x : Tile) (c : Nat) : Bool :=
  x.vec.jobs.any (clashing [c]) || x.matrix.drains.any (fun d => clashing [c] d.job)

/-- The free bank cycles of a tile in this wall cycle. `still`: its region stands, or has none. -/
def bankCycle (rows : List InRow) (still : Bool) (now : Nat) (t : TileId) (s : State) : State :=
  let used := (s.tile t).uses.map (fun u => u.row % 4)
  let free := (List.range 4).filter (fun b => !used.contains b)
  let first := if s.tilesAt.isNone then [] else free.filter (fun b => !(s.tileHw t).had.getLsbD b && s.scrubWork t b)
  let s := first.foldl (fun s b => scrubBank t b s) s
  let x := s.tile t
  let l := x.newReqs rows
  let f : FreeTurn := { banks := free.filter (fun b => !first.contains b), stage := !x.stageClaimed now, held := [] }
  let q := x.serveReqs still now l f
  let s := if l.isEmpty && x.reqs.isEmpty then s else s.setTile t { x with reqs := q.1 }
  if s.tilesAt.isSome && q.2.banks.any (fun b => (s.tileHw t).backIn b) then rewriteRow t s else s

/-- The tiles that hold anything, in a region or not. -/
def State.keyedTiles (s : State) : List TileId :=
  (s.tiles.map (fun e => BitVec.ofNat 13 e.1))
  ++ ((s.hw.filter (fun e => (s.tiles.find e.1).isNone)).map (fun e => BitVec.ofNat 13 e.1))

/-- The free bank cycles of every tile. -/
def bankCycles (s : State) : State := s.keyedTiles.foldl (fun s t =>
  match s.regionOf t with
  | some r =>
    let g := s.region r
    bankCycle (g.rowsFor t) (g.frozen || g.st != .granted) g.cycle t s
  | none => bankCycle [] true 0 t s) s

/-- The ends of scrub windows, and the start of a pass, that are due (02 R74). -/
def State.scrubDue (s : State) : List Instr :=
  ((s.keyedTiles.filter s.windowOver).map (fun t => Instr.scrubWindow t [] []))
  ++ (if s.passDue then [.scrubPassStart] else [])

end Sys2Proof.Machine
end

