-- ==== Sys2Proof/Machine/Clock.lean ====
section
/-!
DEFINITION. Sys2Proof/Machine/Clock.lean: one wall cycle of the tile clock, what a step on an empty queue is (log
entry 1): the events that are due, the bundles that program memory holds, what the units of a region that is not frozen do
by the schedule in the region cycle that ends, the free bank cycles, and what the brake controllers see.
-/
namespace Sys2Proof.Machine
open Sys2Proof

/-! ### The sender's reads and the mesh (09 R228, R234) -/

/-- The rows of the region's packets that their senders read in cycle `c`; a packet whose row is poisoned is dropped. -/
def packetReads (r : RegionId) (c : Nat) (s : State) : State :=
  let q := (s.region r).packets.foldl (fun (a : List Packet × State) p =>
    if p.readAt ≠ c then (a.1 ++ [p], a.2)
    else
      let site := some (Slot.x, p.pc)
      match a.2.readRow r p.src p.srcRow p.issue site with
      | (_, some w, s) => (a.1, s.raise r (some p.src) site fTmemPoison (p.srcRow + (w <<< 16)))
      | (v, none, s) =>
        let junk := s.draw 4096
        if p.junk then (a.1 ++ [{ p with data := some junk.1 }], junk.2) else (a.1 ++ [{ p with data := some v }], s)) ([], s)
  q.2.modRegion r (fun g => { g with packets := q.1 })

/-- The links whose first flit of the packet they carry in cycle `c`: link and input, each once. -/
def Packet.wants (p : Packet) (c : Nat) : List (Nat × Nat) :=
  ((p.dests.flatMap (fun d => (d.2.2.filter (fun l => l.2.1 == c)).map (fun l => (l.1, l.2.2))))).eraseDups

/-- The destinations beyond a link are not reached. -/
def Packet.cut (p : Packet) (link : Nat) : Packet :=
  { p with dests := p.dests.filter (fun d => !(d.2.2.any (fun l => l.1 == link))) }

/-- One packet asks for one link: held, or wanted by an earlier input, it is cut there (R228). `all` is every request of
the cycle: packet, link, input. -/
def grantLink (c : Nat) (all : List (Nat × Nat × Nat)) (busy : Tab Nat) (n link inp : Nat) (p : Packet) : Packet :=
  let held := decide (c < Tab.get 0 busy link)
  let beaten := all.any (fun a => a.2.1 == link && (decide (a.2.2 < inp) || (a.2.2 == inp && decide (a.1 < n))))
  if held || beaten then p.cut link else p

/-- The mesh of a region in cycle `c`: first flits ask for their links. -/
def meshCycle (c : Nat) (g : Region) : Region :=
  let ps := g.packets.zipIdx
  let all := ps.flatMap (fun p => (p.1.wants c).map (fun l => (p.2, l.1, l.2)))
  if all.isEmpty then { g with links := g.links.filter (fun e => decide (c + 1 < e.2)) }
  else
    let cut := ps.map (fun p => (p.1.wants c).foldl (fun q l => grantLink c all g.links p.2 l.1 l.2 q) p.1)
    let links := all.foldl (fun (m : Tab Nat) a => if c < Tab.get 0 g.links a.2.1 then m else m.put a.2.1 (c + 16)) g.links
    { g with packets := cut.filter (fun p => !p.dests.isEmpty), links := links.filter (fun e => decide (c + 1 < e.2)) }

/-! ### Receives (09 R235, R244 to R246) -/

/-- The scale row of a widening receive, read in Q + 13 (R245). The receive is no compiled reader of 03 R103. -/
def armedScale (r : RegionId) (t : TileId) (c : Nat) (a : Armed) (s : State) : Armed × State :=
  if xvWiden a.xv && decide (c = a.at_ + 13) then
    let site := some (Slot.x, a.pc)
    match s.readSched r t (xvScrow a.xv) site with
    | (_, some w, s) => (a, s.raise r (some t) site fTmemPoison (xvScrow a.xv + (w <<< 16)))
    | (v, none, s) => ({ a with scale := some v }, s)
  else (a, s)

/-- The row that completes in the next cycle is at hand if it is the one expected (R236). -/
def armedCapture (t : TileId) (c : Nat) (g : Region) (a : Armed) : Armed :=
  match a.rowAt (c + 1) with
  | none => a
  | some k => match (g.arrivals t (c + 1)).find? (fun p => a.takes p k) with
    | some p => match p.data with
      | some v => { a with got := a.got.put k v, base := some (p.k - k) }
      | none => a
    | none => a

/-- A row write of a receive against the entries busy in this cycle (02 R79). -/
def receiveWrite (r : RegionId) (t : TileId) (a : Armed) (row : Nat) (v : Row) (s : State) : State :=
  let x := s.tile t
  match (x.sb.find? (fun e => decide (e.2.first ≤ row) && decide (row ≤ e.2.last))).map (·.1) with
  | some e => s.raise r (some t) none fRecvPending (row + (e <<< 16))
  | none =>
    let junk := s.draw 4096
    if a.junk then junk.2.writeRow r t row junk.1 (some (.x, a.pc)) else s.writeRow r t row v (some (.x, a.pc))

/-- Destination row `m` of incoming row `k` uses its bank in cycle `c` (R235, R244). -/
def armedWrite (r : RegionId) (t : TileId) (c : Nat) (a : Armed) (s : State) : State :=
  let wn := xvRows a.xv
  let f := c + 1 - a.at_
  let k := f / 16
  let m := f % 16
  if f < 16 ∨ a.n < k ∨ wn ≤ m then s
  else match a.got.find k with
    | none => s
    | some v =>
      if xvWiden a.xv then match a.scale with
        | none => s
        | some sc => receiveWrite r t a (a.dest k + m) (runRow (widenRow a.xv t a.key sc k v).1 m) s
      else receiveWrite r t a (a.dest k) v s

/-- The events of an incoming row, in the cycle in which its last destination row completes (R246). -/
def armedEvents (t : TileId) (c : Nat) (a : Armed) : Events :=
  let wn := xvRows a.xv
  let f := c + 1 - a.at_ - wn
  if xvWiden a.xv = false ∨ c + 1 < a.at_ + wn + 16 ∨ f % 16 ≠ 0 ∨ a.n < f / 16 then Events.none_
  else match a.got.find (f / 16), a.scale with
    | some v, some sc => (widenRow a.xv t a.key sc (f / 16) v).2
    | _, _ => Events.none_

/-- The receives of a tile in cycle `c`; one whose rows are all written goes. -/
def receiveCycle (r : RegionId) (t : TileId) (c : Nat) (s : State) : State :=
  let q := (s.tile t).exch.armed.foldl (fun (l : List Armed × State) a =>
    let a := armedScale r t c a l.2
    let b := armedCapture t c (a.2.region r) a.1
    let s := armedWrite r t c b a.2
    (l.1 ++ [b], s.modTile t (fun x => { x with guards := x.guards.add (armedEvents t c b) }))) ([], s)
  q.2.modTile t (fun x => { x with exch := { x.exch with
    armed := q.1.filter (fun a => decide (c + 1 < a.at_ + 16 * a.n + xvRows a.xv)) } })

/-! ### Copies and off-device sends (09 R237, R243) -/

/-- The row a mover reads in this cycle, if it is its turn; a poisoned row ends the mover. -/
def moverRead (r : RegionId) (t : TileId) (row : Nat) (m : Mover) (s : State) : Option Row × State :=
  let site := some (Slot.x, m.pc)
  match s.readRow r t row m.at_ site with
  | (_, some w, s) => (none, s.raise r (some t) site fTmemPoison (row + (w <<< 16)))
  | (v, none, s) =>
    let junk := s.draw 4096
    if m.junk then (some junk.1, junk.2) else (some v, s)

/-- One cycle of a copy: `none` when it has ended. -/
def copyCycle (r : RegionId) (t : TileId) (c : Nat) (m : Mover) (s : State) : Option Mover × State :=
  let k := c - m.at_
  let q : Option Mover × State := if k < m.n then
      match moverRead r t (m.row + k) m s with
      | (some v, s) => (some { m with got := m.got.put k v }, s)
      | (none, s) => (none, s)
    else (some m, s)
  match q.1 with
  | none => q
  | some m =>
    let s := match (if 2 ≤ k then m.got.find (k - 2) else none) with
      | some v => q.2.writeRow r t (m.dst + (k - 2)) v (some (.x, m.pc))
      | none => q.2
    (if m.n + 1 ≤ k then none else some m, s)

/-- The transaction header of row `k`, from 0, of an off-device send (12 R329). -/
def rowHdr (s : State) (m : Mover) (k : Nat) : BitVec 128 :=
  let sig := xrSigen m.xr && decide (k + 1 = m.n)
  mkHdr 1 (if sig then 1 else 0) (xrRdev m.xr).toNat s.ident.dev.toNat 512
    ((xrRtile m.xr).toNat + ((xrRitem m.xr).toNat <<< 16) + (k <<< 32) + (if sig then (xrSigobj m.xr).toNat <<< 48 else 0))

/-- One cycle of an off-device send: each row takes one reserved place of the outbound buffer; a FAILED port discards it
(12 R321). -/
def sendCycle (r : RegionId) (t : TileId) (c : Nat) (m : Mover) (s : State) : Option Mover × State :=
  let k := (c - m.at_) / 16
  if (c - m.at_) % 16 ≠ 0 ∨ m.n ≤ k then (some m, s)
  else
    let p := xrPort m.xr
    let s := s.modTile t (fun x =>
      let e := x.exch
      { x with exch := { e with reserved := e.reserved.put p.toNat (e.reserved.get p.toNat - 1) } })
    match moverRead r t (m.row + k) m s with
    | (none, s) => (none, s)
    | (some v, s) =>
      let s := if (s.port p).st = .failed then s
        else
          let h := rowHdr s m k
          s.modRegion r (fun g => { g with gateOut := g.gateOut.put p.toNat (Tab.get [] g.gateOut p.toNat ++ [(h, v)]) })
      (if k + 1 = m.n then none else some { m with got := m.got.put k v }, s)

/-- The movers of a list, one cycle. -/
def moverCycles (act : Mover → State → Option Mover × State) (l : List Mover) (s : State) : List Mover × State :=
  l.foldl (fun (a : List Mover × State) m =>
    let q := act m a.2
    (match q.1 with
      | some m => a.1 ++ [m]
      | none => a.1, q.2)) ([], s)

/-- The copies and off-device sends of a tile in cycle `c`. -/
def moveCycle (r : RegionId) (t : TileId) (c : Nat) (s : State) : State :=
  let a := moverCycles (sendCycle r t c) (s.tile t).exch.gates s
  let s := a.2.modTile t (fun x => { x with exch := { x.exch with gates := a.1 } })
  let b := moverCycles (copyCycle r t c) (s.tile t).exch.moves s
  b.2.modTile t (fun x => { x with exch := { x.exch with moves := b.1 } })

/-! ### The end of a region cycle -/

/-- A bundle whose S slot no command gave ends with a NOP there (log entry 5). -/
def Ctl.closeOpen (c : Ctl) (now : Nat) : Ctl := match c.bundle with
  | none => c
  | some b => match b.mode with
    | .live => { c.advance .seq with bundle := none, next := now + 1 }
    | _ => { c with bundle := none }

/-- What the end of region cycle `c` does to a tile: jobs that ended in it take effect (06 R171; 07 R208), marks on their way
arrive (15 R390), and the marks of this cycle's uses go. -/
def Tile.endCycle (x : Tile) (c : Nat) : Tile :=
  let x := x.endJobs
  let due := x.mark.filter (fun m => decide (m.2.2.2.2 ≤ c + 1))
  { x with
    ctl := x.ctl.closeOpen c, uses := [],
    expect := x.expect.filter (fun e => decide (c < e.2.1)),
    mark := x.mark.filter (fun m => !(decide (m.2.2.2.2 ≤ c + 1))),
    markDone := due.foldl (fun _ m => (m.1, m.2.1, m.2.2.1, m.2.2.2.1)) x.markDone }

/-- The units of a tile in region cycle `c`. -/
def tileCycle (r : RegionId) (c : Nat) (s : State) (t : TileId) : State :=
  vectorCycle r t c (matrixCycle r t c (moveCycle r t c (receiveCycle r t c s)))

/-- Starts of load descriptors by CLREQ take effect in the next cycle (09 R230). -/
def descStarts (r : RegionId) (s : State) : State :=
  let l := (s.region r).starts
  l.foldl (fun s e => startDesc r e.2.2.toNat s) (s.modRegion r (fun g => { g with starts := [] }))

/-- The region executes a cycle: it is granted and not frozen. -/
def Region.runs (g : Region) : Bool := g.st == .granted && !g.frozen

/-- What the units of a region that runs do in its cycle. -/
def regionCycle (r : RegionId) (s : State) : State :=
  let g := s.region r
  if !g.runs then s
  else (s.listedTiles g).foldl (tileCycle r g.cycle) ((packetReads r g.cycle (descStarts r s)).modRegion r (meshCycle g.cycle))

/-- The region cycle ends; what has reached objects in it is past (10 R254). -/
def regionEnd (r : RegionId) (s : State) : State :=
  let g := s.region r
  if !g.runs then s
  else
    let l := s.listedTiles g
    let s := l.foldl (fun s t => s.modTile t (fun x => x.endCycle g.cycle)) s
    let s := { s with undo := s.undo.drop (fun k => l.any (fun t => t.toNat == k)) }
    s.modRegion r (fun g => { g with cycle := g.cycle + 1, touched := [] })

/-! ### What an idle step performs (log entry 1) -/

/-- The state after a command, taken from inside. -/
def after (i : Instr) (s : State) : State := match exec i s with
  | .next t => t
  | _ => s

/-- Everything that is due at the start of the present wall cycle: brakes and halts, the beat, free accesses, the events of
region cycles, and the scrubber's windows. -/
def State.dueNow (s : State) : List Instr :=
  s.regionIds.flatMap s.brakeDue ++ (if s.beatDue then [.beatBoundary] else [])
  ++ s.regionIds.flatMap (fun r => s.freeDue r ++ s.cycleDue r) ++ s.scrubDue

/-- Perform what is due until nothing is; `n` bounds the rounds. -/
def runDue : Nat → State → State
  | 0, s => s
  | n + 1, s =>
    let l := s.dueNow
    if l.isEmpty then s else runDue n (l.foldl (fun s i => after i s) s)

/-- One slot of the bundle `b` of tile `t`, if it may issue (02 R47). A NOP of another slot than S does nothing. -/
def issueSlot (t : TileId) (b : Bundle) (s : State) (slot : Slot) : State :=
  let w := slotWord b slot
  if slot ≠ .s ∧ opOf w = 0 then s
  else match s.mayIssue t slot w with
    | some _ => after (decodeSlot slot t w) s
    | none => s

/-- The slots of a tile's bundle that have not been given (02 R47, R49). -/
def issueTile (s : State) (t : TileId) : State := slotOrder.foldl (issueSlot t (s.tile t).bundleAt) s

/-- The bundles of a region's tiles; `open_`: only those of which a slot has been given. -/
def issueRegion (open_ : Bool) (s : State) (r : RegionId) : State :=
  let g := s.region r
  if !g.runs then s
  else ((s.listedTiles g).filter (fun t => !open_ || s.midBundle t)).foldl issueTile s

/-- The function of a mailbox. -/
def mailFn (k : Nat) : Fn := if k = 0 then .pf else .vf (BitVec.ofNat 6 (k - 1))

/-- SYNC_SETs that wait for a cycle in which nothing reaches their object (10 R257). -/
def applySets (s : State) : State :=
  (s.hub.mail.filter (fun e => e.2.busy && e.2.curOp == 0x0E)).foldl (fun s e => after (.syncSetApply (mailFn e.1)) s) s

/-- The records of a wall cycle: lower-level errors into their rings (03 R104), credits on their way (10 R275). -/
def cycleRecords (s : State) (r : RegionId) : State := flushCredits r (s.flushHazards r)

/-- One wall cycle: open bundles are finished, what is due takes effect, every bundle issues, the units and then the free bank
cycles act, and the brake controllers, the derailleur and the reset controller see the result. -/
def tick (s : State) : State :=
  let wall := s.wall + 1
  let s := s.regionIds.foldl (issueRegion true) s
  let s := runDue 8 s
  let s := s.regionIds.foldl (issueRegion false) s
  let s := s.regionIds.foldl (fun s r => regionCycle r s) s
  let s := bankCycles (applySets s)
  let s := s.regionIds.foldl (fun s r => regionEnd r s) s
  let s := blockCycle (s.regionIds.foldl (fun s r => cycleRecords (drlNext r (brakeLook r s)) r) s)
  { s with wall := wall }

end Sys2Proof.Machine
end

