-- ==== Sys2Proof/Safety.lean ====
section
/-!
DEFINITION. Sys2Proof/Safety.lean: what counts as a safe run, and the words the statements use: a slot operation that
issues with its own effect, where a core goes on, and a mailbox command that is accepted.
-/
namespace Sys2Proof
open Sys2Proof.Machine

/-- The step answers a next state: neither a fault nor a refusal of the model. -/
def StepsOn (s : State) : Prop := ∃ t, step s = .next t

end Sys2Proof

namespace Sys2Proof.Machine
open Sys2Proof

/-- Slot `slot` of tile `t` may issue, in region `r`: `w` is its word of the bundle at the PC and nothing is due before it;
no slot of its bundle has faulted or is blocked; and the guard of its word holds (02 R47 to R49, R77; 03 R105): the operation is
performed. -/
abbrev Issues (s : State) (slot : Slot) (t : TileId) (w : SlotWord) (r : RegionId) : Prop :=
  s.mayIssue t slot w = some r ∧ ((s.opened r t).tile t).ctl.bundle.map (·.mode) = some .live
    ∧ ((s.opened r t).tile t).ctl.guard w = true

/-- Core `c` after slot `slot` of the bundle of region cycle `now` has had its effect: the slot counts as issued; the S
slot ends the bundle, issue goes on as `flow` says, and the next bundle may issue a cycle later (02 R47, R49, R57). -/
def Ctl.after (c : Ctl) (slot : Slot) (flow : Flow) (now : Nat) : Ctl :=
  if slot = .s then { c.advance flow with bundle := none, next := now + 1 } else c.noteSlot slot .live

/-- No scoreboard entry that was busy before the bundle bars a use of the row (02 R77). -/
abbrev State.rowFree (o : State) (t : TileId) (row : Nat) (write : Bool) : Prop :=
  ((o.tile t).before (o.startTile t).ops).blocking row write = none

/-- `a` with `f` applied to the core of tile `t`. -/
def State.core (a : State) (t : TileId) (f : Ctl → Ctl) : State := a.modTile t (fun x => { x with ctl := f x.ctl })

/-- State `a`, in which slot `slot` of tile `t` of region `r` has had its effect, with the slot counted as issued. -/
def State.issued (a : State) (r : RegionId) (t : TileId) (slot : Slot) (flow : Flow) : State :=
  a.modTile t (fun x => { x with ctl := x.ctl.after slot flow (a.region r).cycle })

/-- A doorbell of function `fn` for region `rg` is accepted and passes the checks every command shares (17 R422 to R424, R427): the
part is READY, its firmware runs, the mailbox is free, unused bytes of the block are zero, and the function may send a
command of the scope. -/
abbrev Accepts (s : State) (scope : Scope) (named : List (Nat × Nat)) (fn : Fn) (rg : RegionId) (a : ArgBlock) : Prop :=
  s.resets.ready = true ∧ s.hub.fwState = 2 ∧ (s.mail (fnNo fn)).busy = false ∧ blkZero a named = true ∧
    (scope = .d ∨ scope = .f → rg = 0) ∧ (scope = .r → (s.region (windowOf fn rg)).st = .granted) ∧
    ∀ n, fn = .vf n → (scope = .r ∨ scope = .f) ∧ rg = 0 ∧ s.vfOn n = true ∧ (s.region n).st = .granted

/-- `s` with the command of a doorbell in progress (17 R423). -/
def State.rung (s : State) (op : Nat) (fn : Fn) (rg : RegionId) (tag : BitVec 16) (a : ArgBlock) : State :=
  s.modMail (fnNo fn) (fun m => { m with
    args := a, busy := true, dropped := false, curOp := BitVec.ofNat 8 op, curTag := tag, curRegion := windowOf fn rg,
    curArgs := a, since := s.beats, wall := s.wall })

/-! ### For the statements over all slot operations and over the fuses -/

/-- The commands that are slot operations, with their slot and the OP of their words (02 R50). -/
def slotCommands : List (Slot × Nat × (TileId → SlotWord → Instr)) :=
  [(.s, 0x00, fun t w => .nop t .s w), (.m, 0x00, fun t w => .nop t .m w), (.v, 0x00, fun t w => .nop t .v w),
   (.x, 0x00, fun t w => .nop t .x w), (.s, 0x01, .alu), (.s, 0x02, .addi), (.s, 0x03, .andi), (.s, 0x04, .ori),
   (.s, 0x05, .xori), (.s, 0x06, .shi), (.s, 0x07, .lui), (.s, 0x08, .setp), (.s, 0x09, .plog), (.s, 0x0A, .br),
   (.s, 0x0B, .call), (.s, 0x0C, .jr), (.s, 0x0D, .loopi), (.s, 0x0E, .loopr), (.s, 0x10, .fop), (.s, 0x11, .dop),
   (.s, 0x12, .fsetp), (.s, 0x18, .mfc), (.s, 0x19, .mtc), (.s, 0x1A, .rowld), (.s, 0x1B, .rowst), (.s, 0x1C, .ldw),
   (.s, 0x1D, .stw), (.s, 0x1E, .cqrd), (.s, 0x1F, .endOp), (.s, 0x28, .ssig), (.s, 0x29, .ssigr), (.s, 0x2A, .swait),
   (.s, 0x2B, .sread), (.s, 0x2C, .sbar), (.s, 0x2D, .sarr), (.s, 0x2E, .sbwait), (.s, 0x2F, .scfg)] ++
  [(.m, 0x01, .mpass), (.m, 0x02, .mdrain), (.m, 0x03, .mdld), (.v, 0x01, .vdld), (.v, 0x02, .vjld), (.v, 0x03, .vpld),
   (.v, 0x04, .vrun), (.v, 0x05, .vruna), (.v, 0x06, .vmode), (.x, 0x01, .xrld), (.x, 0x02, .xvld), (.x, 0x03, .xsend),
   (.x, 0x04, .xrecv), (.x, 0x05, .xdue), (.x, 0x06, .xsel), (.x, 0x07, .clreq), (.x, 0x08, .xmov), (.x, 0x10, .dmld),
   (.x, 0x11, .dmard), (.x, 0x12, .dmawr), (.x, 0x13, .dmaacc), (.x, 0x14, .dmazf), (.x, 0x15, .dmaxr),
   (.x, 0x20, .chopen), (.x, 0x21, .chsend), (.x, 0x22, .chclose), (.x, 0x23, .cqrow)]

/-- The fuses stay within what the part can burn: at most eight retirement entries, a pulse in progress counted, and never
all four root keys revoked, a revocation in progress counted (01 R19, R32). -/
def FusesWithin (s : State) : Prop :=
  s.fuses.entries.length + (if s.fuses.pulse.isSome then 1 else 0) ≤ 8 ∧ s.fuses.revoked ≠ 0xF ∧
    ∀ fn k, s.fuses.revokePulse = some (fn, k) → s.fuses.revoked ||| (1#4 <<< k.toNat) ≠ 0xF

end Sys2Proof.Machine
end

