-- ==== Sys2Proof/WellFormed.lean ====
section
/-!
DEFINITION. Sys2Proof/WellFormed.lean: the slot, the operation code and the tile of a slot command, and the well-formed
commands: those whose operands name a thing the part has (tile 00 R6; port 12, its opening; unit classes 01 R41; memories 11
R283; regulators 19 R475) and whose slot word carries the command's own code. A meaning answers an ill-formed command too:
a slot word with another code issues in no slot (02 R50), a thing that is not there has no effect.
-/
namespace Sys2Proof

/-- Tile, slot, operation code and slot word of a slot command. -/
def Instr.slotParts : Instr → Option (TileId × Slot × Nat × SlotWord)
  | .nop t slot w => some (t, slot, 0, w)
  | .alu t w => some (t, .s, 0x01, w)
  | .addi t w => some (t, .s, 0x02, w)
  | .andi t w => some (t, .s, 0x03, w)
  | .ori t w => some (t, .s, 0x04, w)
  | .xori t w => some (t, .s, 0x05, w)
  | .shi t w => some (t, .s, 0x06, w)
  | .lui t w => some (t, .s, 0x07, w)
  | .setp t w => some (t, .s, 0x08, w)
  | .plog t w => some (t, .s, 0x09, w)
  | .br t w => some (t, .s, 0x0A, w)
  | .call t w => some (t, .s, 0x0B, w)
  | .jr t w => some (t, .s, 0x0C, w)
  | .loopi t w => some (t, .s, 0x0D, w)
  | .loopr t w => some (t, .s, 0x0E, w)
  | .fop t w => some (t, .s, 0x10, w)
  | .dop t w => some (t, .s, 0x11, w)
  | .fsetp t w => some (t, .s, 0x12, w)
  | .mfc t w => some (t, .s, 0x18, w)
  | .mtc t w => some (t, .s, 0x19, w)
  | .rowld t w => some (t, .s, 0x1A, w)
  | .rowst t w => some (t, .s, 0x1B, w)
  | .ldw t w => some (t, .s, 0x1C, w)
  | .stw t w => some (t, .s, 0x1D, w)
  | .cqrd t w => some (t, .s, 0x1E, w)
  | .endOp t w => some (t, .s, 0x1F, w)
  | .ssig t w => some (t, .s, 0x28, w)
  | .ssigr t w => some (t, .s, 0x29, w)
  | .swait t w => some (t, .s, 0x2A, w)
  | .sread t w => some (t, .s, 0x2B, w)
  | .sbar t w => some (t, .s, 0x2C, w)
  | .sarr t w => some (t, .s, 0x2D, w)
  | .sbwait t w => some (t, .s, 0x2E, w)
  | .scfg t w => some (t, .s, 0x2F, w)
  | .mpass t w => some (t, .m, 0x01, w)
  | .mdrain t w => some (t, .m, 0x02, w)
  | .mdld t w => some (t, .m, 0x03, w)
  | .vdld t w => some (t, .v, 0x01, w)
  | .vjld t w => some (t, .v, 0x02, w)
  | .vpld t w => some (t, .v, 0x03, w)
  | .vrun t w => some (t, .v, 0x04, w)
  | .vruna t w => some (t, .v, 0x05, w)
  | .vmode t w => some (t, .v, 0x06, w)
  | .xrld t w => some (t, .x, 0x01, w)
  | .xvld t w => some (t, .x, 0x02, w)
  | .xsend t w => some (t, .x, 0x03, w)
  | .xrecv t w => some (t, .x, 0x04, w)
  | .xdue t w => some (t, .x, 0x05, w)
  | .xsel t w => some (t, .x, 0x06, w)
  | .clreq t w => some (t, .x, 0x07, w)
  | .xmov t w => some (t, .x, 0x08, w)
  | .dmld t w => some (t, .x, 0x10, w)
  | .dmard t w => some (t, .x, 0x11, w)
  | .dmawr t w => some (t, .x, 0x12, w)
  | .dmaacc t w => some (t, .x, 0x13, w)
  | .dmazf t w => some (t, .x, 0x14, w)
  | .dmaxr t w => some (t, .x, 0x15, w)
  | .chopen t w => some (t, .x, 0x20, w)
  | .chsend t w => some (t, .x, 0x21, w)
  | .chclose t w => some (t, .x, 0x22, w)
  | .cqrow t w => some (t, .x, 0x23, w)
  | .haltEngage _ => none
  | .stallResume _ => none
  | .scoreboardClear _ _ => none
  | .scrubWindow _ _ _ => none
  | .scrubPassStart => none
  | .matrixPassComplete _ => none
  | .drainComplete _ => none
  | .vectorJobEnd _ => none
  | .asyncJobComplete _ _ => none
  | .syncOpArrival _ _ => none
  | .releaseWake _ _ => none
  | .waiterWake _ => none
  | .exchangeWindowOpen _ => none
  | .exchangeWindowEnd _ => none
  | .compiledRowArrival _ => none
  | .armedReceiveMissed _ => none
  | .lateItemRowWrite _ _ => none
  | .brakeFreeze _ => none
  | .brakeThaw _ => none
  | .brakeTimeout _ => none
  | .codeLoadBlock _ _ _ => none
  | .entryHoldRelease _ => none
  | .chanOpenRequest _ _ => none
  | .chanMessageDelivery _ _ => none
  | .chanCreditReturn _ _ => none
  | .chanCloseMarker _ _ => none
  | .pageWalk _ => none
  | .dmaComplete _ _ => none
  | .memReadRetry _ _ _ _ => none
  | .patrolScrub _ _ => none
  | .zeroSweep _ => none
  | .memTempOver _ => none
  | .memTempRecover _ => none
  | .unitReturn _ _ _ _ => none
  | .unitReload _ _ => none
  | .frameSlotSend _ _ => none
  | .dataFlit _ _ _ => none
  | .idleFlit _ _ _ => none
  | .holdFlit _ _ _ => none
  | .ctrlFlit _ _ _ _ => none
  | .replayTimeout _ => none
  | .laneSignalLoss _ _ => none
  | .laneUeThreshold _ _ => none
  | .linkTrainingDone _ _ => none
  | .trainingTimeout _ => none
  | .helloTimeout _ => none
  | .rowWr _ _ => none
  | .memWr _ _ => none
  | .memAcc _ _ => none
  | .sig _ _ => none
  | .barArr _ _ => none
  | .barRel _ _ => none
  | .barAbort _ _ => none
  | .memRej _ _ => none
  | .drlMove _ _ => none
  | .drlMoveDone _ _ => none
  | .drlRoundTimeout _ => none
  | .fwMirrorData _ _ => none
  | .fwMirrorDone _ _ => none
  | .fwMirrorAck _ _ => none
  | .fwRestoreRequest _ _ => none
  | .fwRestoreData _ _ => none
  | .fwRestoreDone _ _ => none
  | .fwRestoreRefuse _ _ => none
  | .restoreTimeout _ => none
  | .fwMirrorStart _ => none
  | .fwRemirrorStart _ => none
  | .fwStall _ => none
  | .exportStart _ => none
  | .exportRecord _ => none
  | .exportComplete _ => none
  | .updStepStart _ => none
  | .updStepEnd _ => none
  | .syncSetApply _ => none
  | .syncSetTimeout _ => none
  | .cadenceLoadBeat => none
  | .cadenceLoss => none
  | .cadenceRecover _ => none
  | .powerWindow _ => none
  | .limitBrakeEnd _ => none
  | .clockStepChange => none
  | .clockCeilEvent => none
  | .paritySweep _ => none
  | .thermalTrip => none
  | .vrFault _ => none
  | .vrAlert => none
  | .pwrgoodRise _ _ => none
  | .pwrgoodFall => none
  | .coldRstN _ => none
  | .warmRstN _ => none
  | .perstN _ => none
  | .hubWatchdog => none
  | .resetReleaseStep _ _ => none
  | .resetCommandStart => none
  | .flr _ => none
  | .loadFrame _ _ _ _ => none
  | .loadRegionFrame _ _ _ _ => none
  | .frameLoadComplete _ => none
  | .retireColumn _ _ _ _ => none
  | .retireFusePulseEnd _ => none
  | .revokeKey _ _ _ _ => none
  | .setIdentity _ _ _ _ => none
  | .linkRetrain _ _ _ _ => none
  | .cadenceSet _ _ _ _ => none
  | .regionGrant _ _ _ _ => none
  | .grantComplete _ => none
  | .regionRevoke _ _ _ _ => none
  | .revokeComplete _ => none
  | .mmuRoot _ _ _ _ => none
  | .mmuInval _ _ _ _ => none
  | .bufReg _ _ _ _ => none
  | .bufFree _ _ _ _ => none
  | .syncSet _ _ _ _ => none
  | .syncDump _ _ _ _ => none
  | .syncDumpComplete _ => none
  | .loadProgram _ _ _ _ => none
  | .programLoadComplete _ => none
  | .loadDesc _ _ _ _ => none
  | .updList _ _ _ _ => none
  | .updSetStep _ _ _ _ => none
  | .updDisarm _ _ _ _ => none
  | .updEmit _ _ _ _ => none
  | .drlRun _ _ _ _ => none
  | .fwConfig _ _ _ _ => none
  | .fwExport _ _ _ _ => none
  | .rollback _ _ _ _ => none
  | .adopt _ _ _ _ => none
  | .setClock _ _ _ _ => none
  | .setPowerCap _ _ _ _ => none
  | .setCal _ _ _ _ => none
  | .resetWarm _ _ _ _ => none
  | .resetCold _ _ _ _ => none
  | .resetHubCpu _ _ _ _ => none
  | .resetPcieEp _ _ _ _ => none
  | .resetFuseCtl _ _ _ _ => none
  | .resetCadence _ _ _ _ => none
  | .eventAck _ _ _ => none
  | .latchingRead _ _ => none
  | .syncVsel _ _ _ => none
  | .xwinWrite _ _ _ _ => none
  | .expTailWrite _ _ _ => none
  | .blkRstTileColumn _ _ => none
  | .blkRstLinkPort _ _ => none
  | .blkRstHbmChannel _ _ => none
  | .blkRstLpddrChannel _ _ => none
  | .blkRstUpdateUnit _ _ => none
  | .hubFwGo => none
  | .hubFwLoadDone _ => none
  | .registerWrite _ _ _ => none
  | .smbusSetPointer _ _ => none
  | .smbusBlockRead _ => none
  | .smbusVersionRead _ => none
  | .jtagInstruction _ _ => none
  | .beatBoundary => none
  | .vrFaultClear _ => none
  | .vrAlertRelease => none
  | .thermHoldRelease => none
  | .vbkupLoss => none
  | .railOutOfTolerance _ => none
  | .revokeFusePulseEnd => none
  | .hazTailWrite _ _ _ => none

/-- A legal tile ID on the largest grade: 128 columns of 48 rows (00 R4, R6). -/
def tileOk (t : TileId) : Bool := decide (t.toNat % 64 < 48)

/-- A port of the part: 0 to 11 (12). -/
def portOk (p : PortId) : Bool := decide (p.toNat ≤ 11)

/-- An upset of tile memory: in one of 768 rows (02 R68). -/
def TmUpset.wf (u : TmUpset) : Bool := decide (u.row.toNat < 768)

/-- A DMA of a tile, or an access of the region's engines. -/
def WalkReq.wf : WalkReq → Bool
  | .tileDma t _ => tileOk t
  | .engine _ _ _ => true

/-- HBM stacks 0 to 7, LPDDR packages 0 to 15 (11 R283). -/
def MemUnit.wf : MemUnit → Bool
  | .stack _ => true
  | .package _ => true

/-- The tile or port of a parity mismatch. -/
def ParityHit.wf (h : ParityHit) : Bool := h.tile.all tileOk && h.port.all portOk

/-- The wrong symbols of one codeword: distinct positions below 544 (12 R312). -/
def errsOk (errs : List (BitVec 10)) : Bool := errs.all (fun e => decide (e.toNat < 544)) && decide errs.Nodup

/-- Operands of the commands other than slot commands. -/
def Instr.operandsOk : Instr → Bool
  | .nop _ _ _ => true
  | .alu _ _ => true
  | .addi _ _ => true
  | .andi _ _ => true
  | .ori _ _ => true
  | .xori _ _ => true
  | .shi _ _ => true
  | .lui _ _ => true
  | .setp _ _ => true
  | .plog _ _ => true
  | .br _ _ => true
  | .call _ _ => true
  | .jr _ _ => true
  | .loopi _ _ => true
  | .loopr _ _ => true
  | .fop _ _ => true
  | .dop _ _ => true
  | .fsetp _ _ => true
  | .mfc _ _ => true
  | .mtc _ _ => true
  | .rowld _ _ => true
  | .rowst _ _ => true
  | .ldw _ _ => true
  | .stw _ _ => true
  | .cqrd _ _ => true
  | .endOp _ _ => true
  | .ssig _ _ => true
  | .ssigr _ _ => true
  | .swait _ _ => true
  | .sread _ _ => true
  | .sbar _ _ => true
  | .sarr _ _ => true
  | .sbwait _ _ => true
  | .scfg _ _ => true
  | .mpass _ _ => true
  | .mdrain _ _ => true
  | .mdld _ _ => true
  | .vdld _ _ => true
  | .vjld _ _ => true
  | .vpld _ _ => true
  | .vrun _ _ => true
  | .vruna _ _ => true
  | .vmode _ _ => true
  | .xrld _ _ => true
  | .xvld _ _ => true
  | .xsend _ _ => true
  | .xrecv _ _ => true
  | .xdue _ _ => true
  | .xsel _ _ => true
  | .clreq _ _ => true
  | .xmov _ _ => true
  | .dmld _ _ => true
  | .dmard _ _ => true
  | .dmawr _ _ => true
  | .dmaacc _ _ => true
  | .dmazf _ _ => true
  | .dmaxr _ _ => true
  | .chopen _ _ => true
  | .chsend _ _ => true
  | .chclose _ _ => true
  | .cqrow _ _ => true
  | .haltEngage _ => true
  | .stallResume t => tileOk t
  | .scoreboardClear t _ => tileOk t
  | .scrubWindow t tm _ => tileOk t && tm.all TmUpset.wf
  | .scrubPassStart => true
  | .matrixPassComplete t => tileOk t
  | .drainComplete t => tileOk t
  | .vectorJobEnd t => tileOk t
  | .asyncJobComplete t _ => tileOk t
  | .syncOpArrival _ _ => true
  | .releaseWake _ _ => true
  | .waiterWake t => tileOk t
  | .exchangeWindowOpen _ => true
  | .exchangeWindowEnd _ => true
  | .compiledRowArrival t => tileOk t
  | .armedReceiveMissed t => tileOk t
  | .lateItemRowWrite t _ => tileOk t
  | .brakeFreeze _ => true
  | .brakeThaw _ => true
  | .brakeTimeout _ => true
  | .codeLoadBlock _ _ t => tileOk t
  | .entryHoldRelease _ => true
  | .chanOpenRequest t _ => tileOk t
  | .chanMessageDelivery t _ => tileOk t
  | .chanCreditReturn t _ => tileOk t
  | .chanCloseMarker t port => tileOk t && decide (port.toNat ≤ 4)
  | .pageWalk req => req.wf
  | .dmaComplete t _ => tileOk t
  | .memReadRetry _ _ t _ => t.all tileOk
  | .patrolScrub _ _ => true
  | .zeroSweep _ => true
  | .memTempOver u => u.wf
  | .memTempRecover u => u.wf
  | .unitReturn cls _ _ _ => decide (1 ≤ cls.toNat) && decide (cls.toNat ≤ 6)
  | .unitReload cls _ => decide (1 ≤ cls.toNat) && decide (cls.toNat ≤ 6)
  | .frameSlotSend p _ => portOk p
  | .dataFlit p _ errs => portOk p && errsOk errs
  | .idleFlit p _ errs => portOk p && errsOk errs
  | .holdFlit p _ errs => portOk p && errsOk errs
  | .ctrlFlit p _ errs _ => portOk p && errsOk errs
  | .replayTimeout p => portOk p
  | .laneSignalLoss p _ => portOk p
  | .laneUeThreshold p _ => portOk p
  | .linkTrainingDone p _ => portOk p
  | .trainingTimeout p => portOk p
  | .helloTimeout p => portOk p
  | .rowWr p _ => portOk p
  | .memWr p _ => portOk p
  | .memAcc p _ => portOk p
  | .sig p _ => portOk p
  | .barArr p _ => portOk p
  | .barRel p _ => portOk p
  | .barAbort p _ => portOk p
  | .memRej p _ => portOk p
  | .drlMove p _ => portOk p
  | .drlMoveDone p _ => portOk p
  | .drlRoundTimeout _ => true
  | .fwMirrorData p _ => portOk p
  | .fwMirrorDone p _ => portOk p
  | .fwMirrorAck p _ => portOk p
  | .fwRestoreRequest p _ => portOk p
  | .fwRestoreData p _ => portOk p
  | .fwRestoreDone p _ => portOk p
  | .fwRestoreRefuse p _ => portOk p
  | .restoreTimeout _ => true
  | .fwMirrorStart _ => true
  | .fwRemirrorStart _ => true
  | .fwStall _ => true
  | .exportStart _ => true
  | .exportRecord _ => true
  | .exportComplete _ => true
  | .updStepStart _ => true
  | .updStepEnd _ => true
  | .syncSetApply _ => true
  | .syncSetTimeout _ => true
  | .cadenceLoadBeat => true
  | .cadenceLoss => true
  | .cadenceRecover _ => true
  | .powerWindow _ => true
  | .limitBrakeEnd _ => true
  | .clockStepChange => true
  | .clockCeilEvent => true
  | .paritySweep hits => hits.all ParityHit.wf
  | .thermalTrip => true
  | .vrFault reg => decide (reg.toNat ≤ 4)
  | .vrAlert => true
  | .pwrgoodRise _ _ => true
  | .pwrgoodFall => true
  | .coldRstN _ => true
  | .warmRstN _ => true
  | .perstN _ => true
  | .hubWatchdog => true
  | .resetReleaseStep _ _ => true
  | .resetCommandStart => true
  | .flr _ => true
  | .loadFrame _ _ _ _ => true
  | .loadRegionFrame _ _ _ _ => true
  | .frameLoadComplete _ => true
  | .retireColumn _ _ _ _ => true
  | .retireFusePulseEnd _ => true
  | .revokeKey _ _ _ _ => true
  | .setIdentity _ _ _ _ => true
  | .linkRetrain _ _ _ _ => true
  | .cadenceSet _ _ _ _ => true
  | .regionGrant _ _ _ _ => true
  | .grantComplete _ => true
  | .regionRevoke _ _ _ _ => true
  | .revokeComplete _ => true
  | .mmuRoot _ _ _ _ => true
  | .mmuInval _ _ _ _ => true
  | .bufReg _ _ _ _ => true
  | .bufFree _ _ _ _ => true
  | .syncSet _ _ _ _ => true
  | .syncDump _ _ _ _ => true
  | .syncDumpComplete _ => true
  | .loadProgram _ _ _ _ => true
  | .programLoadComplete _ => true
  | .loadDesc _ _ _ _ => true
  | .updList _ _ _ _ => true
  | .updSetStep _ _ _ _ => true
  | .updDisarm _ _ _ _ => true
  | .updEmit _ _ _ _ => true
  | .drlRun _ _ _ _ => true
  | .fwConfig _ _ _ _ => true
  | .fwExport _ _ _ _ => true
  | .rollback _ _ _ _ => true
  | .adopt _ _ _ _ => true
  | .setClock _ _ _ _ => true
  | .setPowerCap _ _ _ _ => true
  | .setCal _ _ _ _ => true
  | .resetWarm _ _ _ _ => true
  | .resetCold _ _ _ _ => true
  | .resetHubCpu _ _ _ _ => true
  | .resetPcieEp _ _ _ _ => true
  | .resetFuseCtl _ _ _ _ => true
  | .resetCadence _ _ _ _ => true
  | .eventAck _ _ _ => true
  | .latchingRead _ _ => true
  | .syncVsel _ _ _ => true
  | .xwinWrite _ _ _ _ => true
  | .expTailWrite _ _ _ => true
  | .blkRstTileColumn _ _ => true
  | .blkRstLinkPort _ _ => true
  | .blkRstHbmChannel _ _ => true
  | .blkRstLpddrChannel _ _ => true
  | .blkRstUpdateUnit _ _ => true
  | .hubFwGo => true
  | .hubFwLoadDone _ => true
  | .registerWrite _ _ _ => true
  | .smbusSetPointer _ _ => true
  | .smbusBlockRead _ => true
  | .smbusVersionRead _ => true
  | .jtagInstruction _ _ => true
  | .beatBoundary => true
  | .vrFaultClear reg => decide (reg.toNat ≤ 4)
  | .vrAlertRelease => true
  | .thermHoldRelease => true
  | .vbkupLoss => true
  | .railOutOfTolerance _ => true
  | .revokeFusePulseEnd => true
  | .hazTailWrite _ _ _ => true

/-- A well-formed command. -/
def Instr.wf (i : Instr) : Bool :=
  i.operandsOk && (match i.slotParts with
    | some (t, _, op, w) => tileOk t && (Word.bits w 26 6 == op)
    | none => true)

end Sys2Proof
end

