-- ==== Sys2Proof/Certificates/Slice0/Obligations.lean ====
section
/-!
DEFINITION. Sys2Proof/Certificates/Slice0/Obligations.lean: the statements for the provers, most of them rules of the
spec about what a command does. `s.opened r t` is the state with the tile's bundle begun; `a.issued r t slot flow` is `a`
with the slot counted as issued and, for the S slot, the bundle ended.
-/
open Sys2Proof Sys2Proof.Machine

/-! ### The queue and the clock -/

/-- A step takes the command at the front of the queue and performs it with the queue's rest. -/
def Obligations.StepRunsTheFrontCommand : Prop :=
  ∀ (c : Instr) (rest : List Instr) (s : State),
    step { s with pending := c :: rest } = exec c { s with pending := rest }

/-- On an empty queue a step is one cycle of the wall clock (the model's choice, log entry 1): the tile clock's count
of wall cycles rises by one. -/
def Obligations.EmptyQueueCountsAWallCycle : Prop :=
  ∀ s : State, s.pending = [] → ∃ u, step s = .next u ∧ u.wall = s.wall + 1

/-! ### S-slot operations (02_tile.md) -/

/-- The operations with an immediate, and LDW: one result, readable a cycle later; nothing else changes but where the core
goes on. -/
def Obligations.ImmediateOperationsWriteRd : Prop :=
  ∀ (s : State) (t : TileId) (w : SlotWord) (r : RegionId), Issues s .s t w r →
    let o := s.opened r t
    let c := (o.tile t).ctl
    let now := (o.region r).cycle
    let put (v : Word) : State := (o.core t (fun c => c.setReg (rdOf w) v now (now + 1))).issued r t .s .seq
    (opOf w = 0x02 → exec (.addi t w) s = .next (put (c.reg (raOf w) + simmOf w))) ∧
    (opOf w = 0x03 → exec (.andi t w) s = .next (put (c.reg (raOf w) &&& simmOf w))) ∧
    (opOf w = 0x04 → exec (.ori t w) s = .next (put (c.reg (raOf w) ||| simmOf w))) ∧
    (opOf w = 0x05 → exec (.xori t w) s = .next (put (c.reg (raOf w) ^^^ simmOf w))) ∧
    (opOf w = 0x07 → exec (.lui t w) s = .next (put (BitVec.ofNat 32 (uimmOf w * 2 ^ 15)))) ∧
    (opOf w = 0x1C → exec (.ldw t w) s = .next (put (rowWord c.srb ((c.reg (raOf w) + simmOf w).toNat % 128))))

/-- ALU and SHI: one result; an ALU result is readable after the latency of its FN. -/
def Rules.AluAndShiftWriteRd : Prop :=
  ∀ (s : State) (t : TileId) (w : SlotWord) (r : RegionId), Issues s .s t w r →
    let o := s.opened r t
    let c := (o.tile t).ctl
    let now := (o.region r).cycle
    let put (v : Word) (lat : Nat) : State :=
      (o.core t (fun c => c.setReg (rdOf w) v now (now + lat))).issued r t .s .seq
    (∀ v, opOf w = 0x01 → aluOp (fnOf w) (c.reg (raOf w)) (c.reg (rbOf w)) = some v →
      exec (.alu t w) s = .next (put v (if fnOf w = 0x08 ∨ fnOf w = 0x09 then 2 else 1))) ∧
    (opOf w = 0x06 → Word.bits w 5 5 = 0 →
      (Word.bits w 10 2 = 0 → exec (.shi t w) s = .next (put (c.reg (raOf w) <<< Word.bits w 0 5) 1)) ∧
      (Word.bits w 10 2 = 1 → exec (.shi t w) s = .next (put (c.reg (raOf w) >>> Word.bits w 0 5) 1)) ∧
      (Word.bits w 10 2 = 2 → exec (.shi t w) s = .next (put ((c.reg (raOf w)).sshiftRight (Word.bits w 0 5)) 1)))

/-- The ALU functions in integers. -/
def Rules.AluFunctionsInIntegers : Prop :=
  ∀ a b : Word,
    aluOp 0x00 a b = some (BitVec.ofNat 32 (a.toNat + b.toNat)) ∧
    aluOp 0x01 a b = some (BitVec.ofInt 32 ((a.toNat : Int) - b.toNat)) ∧
    (∀ n : Fin 32, ∃ v4 v2 v3 : Word, aluOp 0x02 a b = some v2 ∧ aluOp 0x03 a b = some v3 ∧ aluOp 0x04 a b = some v4 ∧
      v2.getLsbD n = (a.getLsbD n && b.getLsbD n) ∧ v3.getLsbD n = (a.getLsbD n || b.getLsbD n) ∧
      v4.getLsbD n = (a.getLsbD n != b.getLsbD n)) ∧
    aluOp 0x05 a b = some (BitVec.ofNat 32 (a.toNat * 2 ^ (b.toNat % 32))) ∧
    aluOp 0x06 a b = some (BitVec.ofNat 32 (a.toNat / 2 ^ (b.toNat % 32))) ∧
    aluOp 0x07 a b = some (BitVec.ofInt 32 (a.toInt / 2 ^ (b.toNat % 32))) ∧
    aluOp 0x08 a b = some (BitVec.ofNat 32 (a.toNat * b.toNat % 2 ^ 32)) ∧
    aluOp 0x09 a b = some (BitVec.ofNat 32 (a.toNat * b.toNat / 2 ^ 32)) ∧
    aluOp 0x0A a b = some (BitVec.ofInt 32 (min a.toInt b.toInt)) ∧
    aluOp 0x0B a b = some (BitVec.ofInt 32 (max a.toInt b.toInt)) ∧
    aluOp 0x0C a b = some (BitVec.ofNat 32 (min a.toNat b.toNat)) ∧
    aluOp 0x0D a b = some (BitVec.ofNat 32 (max a.toNat b.toNat)) ∧
    (∀ fn, 0x0E ≤ fn → aluOp fn a b = none)

/-- ALU and SHI write one register, set no flag, and compute the functions of R53 modulo 2^32. -/
def Obligations.AluOperationsCompute : Prop := Rules.AluAndShiftWriteRd ∧ Rules.AluFunctionsInIntegers

/-- SETP, PLOG, FSETP: one predicate; FSETP also raises its flags. -/
def Obligations.PredicateOperationsWritePd : Prop :=
  ∀ (s : State) (t : TileId) (w : SlotWord) (r : RegionId), Issues s .s t w r →
    let o := s.opened r t
    let c := (o.tile t).ctl
    let now := (o.region r).cycle
    let put (v : Bool) : State := (o.core t (fun c => c.setPred (pdOf w) v now (now + 1))).issued r t .s .seq
    let flagged (v : Bool) (fl : BitVec 5) (lat : Nat) : State :=
      (o.core t (fun c => ({ c with ff := c.ff ++ [(now + lat, fl)] } : Ctl).setPred (pdOf w) v now (now + lat))).issued r t .s .seq
    (opOf w = 0x08 → cmpOf w < 6 → Word.bits w 0 6 = 0 →
      exec (.setp t w) s = .next (put (intCmp (cmpOf w) (c.reg (praOf w)) (c.reg (prbOf w))))) ∧
    (opOf w = 0x09 → Word.bits w 0 11 = 0 →
      exec (.plog t w) s = .next (put (predOp (Word.bits w 11 2) (c.pred (Word.bits w 16 3)) (c.pred (Word.bits w 13 3))))) ∧
    (opOf w = 0x12 → Word.bits w 0 6 = 0 → cmpOf w < 4 →
      let q := fpCmp .fp32 (cmpOf w) (c.reg (praOf w)).toNat (c.reg (prbOf w)).toNat
      exec (.fsetp t w) s = .next (flagged q.1 q.2 4)) ∧
    (opOf w = 0x12 → Word.bits w 0 6 = 0 → 4 ≤ cmpOf w → praOf w % 2 = 0 → prbOf w % 2 = 0 →
      let q := fpCmp .fp64 (cmpOf w) (c.pair (praOf w)).toNat (c.pair (prbOf w)).toNat
      exec (.fsetp t w) s = .next (flagged q.1 q.2 8))

/-- FOP and DOP: the result in a register or a pair, and the flags, after the latency of the FN. -/
def Obligations.FloatingOperationsWriteResultAndFlags : Prop :=
  ∀ (s : State) (t : TileId) (w : SlotWord) (r : RegionId), Issues s .s t w r →
    let o := s.opened r t
    let c := (o.tile t).ctl
    let now := (o.region r).cycle
    let rm := Word.bits c.fsr 0 2
    let one (v : Nat) (fl : BitVec 5) (lat : Nat) : State :=
      (o.core t (fun c => ({ c with ff := c.ff ++ [(now + lat, fl)] } : Ctl).setReg (rdOf w) (BitVec.ofNat 32 v) now (now + lat))).issued r t .s .seq
    let two (v : Nat) (fl : BitVec 5) (lat : Nat) : State :=
      (o.core t (fun c => ({ c with ff := c.ff ++ [(now + lat, fl)] } : Ctl).setPair (rdOf w) (BitVec.ofNat 64 v) now (now + lat))).issued r t .s .seq
    (opOf w = 0x10 → fpEnc false w = true →
      let q := fpOp .fp32 (fnOf w) rm (c.reg (rdOf w)).toNat (c.reg (raOf w)).toNat (c.reg (rbOf w)).toNat
      let lat := fpLatency false (fnOf w)
      exec (.fop t w) s = .next (if fnOf w = 0x0A then two q.code q.flags lat else one q.code q.flags lat)) ∧
    (opOf w = 0x11 → fpEnc true w = true →
      let a := if fnOf w = 0x08 then (c.reg (raOf w)).toNat else (c.pair (raOf w)).toNat
      let q := fpOp .fp64 (fnOf w) rm (c.pair (rdOf w)).toNat a (c.pair (rbOf w)).toNat
      let lat := fpLatency true (fnOf w)
      exec (.dop t w) s = .next (if fnOf w = 0x09 ∨ fnOf w = 0x0A then one q.code q.flags lat else two q.code q.flags lat))

/-- BR, CALL and JR are taken after the next bundle; CALL also writes g31. -/
def Rules.BranchesTakeEffect : Prop :=
  ∀ (s : State) (t : TileId) (w : SlotWord) (r : RegionId), Issues s .s t w r →
    let o := s.opened r t
    let c := (o.tile t).ctl
    let now := (o.region r).cycle
    c.branch = none → c.loopHere = none →
    (opOf w = 0x0A → Word.bits w 11 11 = 0 → exec (.br t w) s = .next (o.issued r t .s (.branch (baOf w)))) ∧
    (opOf w = 0x0B → Word.bits w 11 11 = 0 →
      exec (.call t w) s = .next ((o.core t (fun d => d.setReg 31 (BitVec.ofNat 32 (c.pc.toNat + 2)) now (now + 1))).issued r t .s (.branch (baOf w)))) ∧
    (opOf w = 0x0C → Word.bits w 17 5 = 0 → Word.bits w 0 12 = 0 →
      exec (.jr t w) s = .next (o.issued r t .s (.branch ((c.reg (raOf w)).extractLsb' 0 11))))

/-- LOOPI and LOOPR in a legal place: a count above 0 starts the loop, a count of 0 skips its body. -/
def Rules.LoopsStartOrSkip : Prop :=
  ∀ (s : State) (t : TileId) (w : SlotWord) (r : RegionId), Issues s .s t w r →
    let o := s.opened r t
    let c := (o.tile t).ctl
    let go (count : Word) : State :=
      if count = 0 then (o.core t (fun d => { d with lc := d.lc.put (lcOf w) 0 })).issued r t .s (.skip ((baOf w).toNat + 1))
      else (o.core t (fun d => { d with
        lc := d.lc.put (lcOf w) count,
        loops := { lc := BitVec.ofNat 2 (lcOf w), start := BitVec.ofNat 11 (c.pc.toNat + 1), stop := baOf w } :: d.loops })).issued r t .s .seq
    c.branch = none → c.loopHere = none → c.pc.toNat < (baOf w).toNat →
    (∀ l ∈ c.loops, l.lc.toNat ≠ lcOf w ∧ l.stop ≠ baOf w) → (∀ l, c.loops.head? = some l → ¬ l.stop < baOf w) →
    (opOf w = 0x0D → exec (.loopi t w) s = .next (go (BitVec.ofNat 32 (countOf w)))) ∧
    (opOf w = 0x0E → Word.bits w 11 4 = 0 → exec (.loopr t w) s = .next (go (c.reg (lraOf w))))

/-- BR, CALL, JR, LOOPI and LOOPR in a legal place. -/
def Obligations.BranchesAndLoopsTakeEffect : Prop := Rules.BranchesTakeEffect ∧ Rules.LoopsStartOrSkip

/-- Where the core goes on after a bundle: after a delay bundle to the branch's target; after a loop's END back to its
start or, the counter having reached zero, on; else to the next bundle. -/
def Obligations.BundleEndMovesThePc : Prop :=
  ∀ (c : Ctl) (now : Nat),
    (c.after .s .seq now).next = now + 1 ∧ (c.after .s .seq now).bundle = none ∧
    (∀ target, c.branch = some target → (c.after .s .seq now).pc = target ∧ (c.after .s .seq now).branch = none) ∧
    (c.branch = none → c.loopHere = none → c.pc.toNat < 2047 →
      (c.after .s .seq now).pc.toNat = c.pc.toNat + 1 ∧
      ∀ target, (c.after .s (.branch target) now).pc.toNat = c.pc.toNat + 1 ∧ (c.after .s (.branch target) now).branch = some target) ∧
    (∀ l, c.branch = none → c.loopHere = some l → c.lc.wf = true →
      (c.after .s .seq now).lc.get l.lc.toNat = c.lc.get l.lc.toNat - 1 ∧
      (c.lc.get l.lc.toNat ≠ 1 → (c.after .s .seq now).pc = l.start) ∧
      (c.lc.get l.lc.toNat = 1 → c.pc.toNat < 2047 → (c.after .s .seq now).pc.toNat = c.pc.toNat + 1)) ∧
    (∀ n, c.branch = none → n < 2048 → (c.after .s (.skip n) now).pc.toNat = n)

/-- MFC and MTC: a defined register is read, with what the read latches, where no asynchronous job makes the read wait; or
written, and the hidden parity over it then agrees. -/
def Obligations.ControlRegistersAreReadAndWritten : Prop :=
  ∀ (s : State) (t : TileId) (w : SlotWord) (r : RegionId), Issues s .s t w r →
    let o := s.opened r t
    let c := (o.tile t).ctl
    let now := (o.region r).cycle
    (opOf w = 0x18 → cregAccess (immOf w) ≠ .none_ → Word.bits w 12 5 = 0 →
      ((o.tile t).vec.asyncs = [] ∨ cregHeadroom (immOf w) = false ∧ cregSummary (immOf w) = false) →
      exec (.mfc t w) s = .next (((o.modTile t (cregLatch (o.region r) (o.startTile t).vec.pos (immOf w))).core t
        (fun d => d.setReg (rdOf w) (cregRead o (o.site r .s t w) (immOf w)) now (now + 1))).issued r t .s .seq)) ∧
    (opOf w = 0x19 → cregAccess (immOf w) = .rw ∨ cregAccess (immOf w) = .wo → Word.bits w 17 5 = 0 →
      ¬ (immOf w = 0x04A ∧ 16 < Word.bits (c.reg (raOf w)) 4 5) →
      exec (.mtc t w) s = .next (((o.parityClean (fun h => h.tile == some t && h.loc == parityAt 1 (immOf w))).modTile t
        (cregWrite now (o.startTile t).vec.pos (immOf w) (c.reg (raOf w)))).issued r t .s .seq))

/-- ROWLD and ROWST move a whole row between tile memory and the row buffer, STW writes one word of the buffer. -/
def Rules.RowBufferOperations : Prop :=
  ∀ (s : State) (t : TileId) (w : SlotWord) (r : RegionId), Issues s .s t w r →
    let o := s.opened r t
    let c := (o.tile t).ctl
    let now := (o.region r).cycle
    let row := (c.reg (raOf w) + simmOf w).toNat
    let mark : Option (Slot × BitVec 11) := some (.s, c.pc)
    (∀ v u, opOf w = 0x1A → Word.bits w 17 5 = 0 → row < 768 → o.rowFree t row false →
      o.readRow r t row now mark = (v, none, u) →
      exec (.rowld t w) s = .next ((u.core t (fun d => { d with srbw := d.srbw ++ [{ word := none, val := v, ready := now + 2 }] })).issued r t .s .seq)) ∧
    (opOf w = 0x1B → Word.bits w 17 5 = 0 → row < 768 → o.rowFree t row true →
      exec (.rowst t w) s = .next ((o.writeRow r t row c.srb mark).issued r t .s .seq)) ∧
    (opOf w = 0x1D →
      let k := (c.reg (rdOf w) + simmOf w).toNat % 128
      exec (.stw t w) s = .next ((o.core t (fun d => { d with
        srbw := d.srbw ++ [{ word := some (BitVec.ofNat 7 k), val := setRowWord 0 k (c.reg (raOf w)), ready := now + 1 }] })).issued r t .s .seq))

/-- NOP does nothing, in any slot; END gates the tile for good; CQRD gates it until a message is its own, or pops one. -/
def Rules.NopEndAndCqrd : Prop :=
  ∀ (s : State) (t : TileId) (w : SlotWord) (r : RegionId),
    (∀ slot, Issues s slot t w r → opOf w = 0 → exec (.nop t slot w) s = .next ((s.opened r t).issued r t slot .seq)) ∧
    (Issues s .s t w r →
      let o := s.opened r t
      let now := (o.region r).cycle
      let q := Word.bits w 0 2
      let gated : State := (o.core t (fun d => { d with run := .waitPort (BitVec.ofNat 2 q) (BitVec.ofNat 5 (rdOf w)) })).issued r t .s .seq
      (opOf w = 0x1F → exec (.endOp t w) s =
        .next ((noteComplete r (o.core t (fun d => { d with run := .ended }))).issued r t .s .seq)) ∧
      (opOf w = 0x1E → Word.bits w 2 10 = 0 → Word.bits w 12 5 = 0 → rdOf w % 2 = 0 → (o.region r).inExchange = false →
        ((o.tile t).cqrows.any (fun k => k.q.toNat == q && decide (k.got.length < k.n)) = true → exec (.cqrd t w) s = .next gated) ∧
        (((o.tile t).rx q).buf = [] → exec (.cqrd t w) s = .next gated) ∧
        (∀ m rest, (o.tile t).cqrows = [] → ((o.tile t).rx q).buf = m :: rest →
          exec (.cqrd t w) s = .next (((returnCredit r t ((o.tile t).rx q)
            (o.modTile t (fun y => { y with ports := y.ports.put q { (o.tile t).rx q with buf := rest } }))).core t
              (fun d => d.setPair (rdOf w) m now (now + 2))).issued r t .s .seq))))

/-- ROWLD, ROWST, STW, NOP, END and CQRD. -/
def Obligations.RowBufferNopEndAndCqrd : Prop := Rules.RowBufferOperations ∧ Rules.NopEndAndCqrd

/-! ### Sync operations (10_sync_and_channels.md) -/

/-- A sync operation on an object the region owns is on its way and reaches the object 10 cy later; SWAIT and the barrier
waits gate the tile, SARR holds the split arrival. -/
def Obligations.SyncOperationsReachTheirObject : Prop :=
  ∀ (s : State) (t : TileId) (w : SlotWord) (r : RegionId), Issues s .s t w r →
    let o := s.opened r t
    let c := (o.tile t).ctl
    let now := (o.region r).cycle
    let obj : BitVec 16 := (c.reg (raOf w)).extractLsb' 0 16
    let sent (q : BitVec 16) (k : SyncKind) : State := o.modRegion r (fun g =>
      { g with flights := g.flights ++ [{ due := now + 10, obj := q, src := .op t c.pc, kind := k }] })
    let mine : Prop := (o.region r).ownsObj obj.toNat = true ∧ o.stale 2 (obj.toNat / 256) = false
    let gate (a : State) (q : BitVec 16) : State := a.core t (fun d => { d with run := .waitBar q.toNat })
    (opOf w = 0x28 → Word.bits w 17 5 = 0 → Word.bits w 0 12 ≠ 0 → mine →
      exec (.ssig t w) s = .next ((sent obj (.ssig (immOf w))).issued r t .s .seq)) ∧
    (opOf w = 0x29 → Word.bits w 17 5 = 0 → Word.bits w 0 7 = 0 → mine →
      exec (.ssigr t w) s = .next ((sent obj (.ssig (Word.bits (c.reg (rbOf w)) 0 16))).issued r t .s .seq)) ∧
    (opOf w = 0x2A → Word.bits w 17 5 = 0 → Word.bits w 0 12 ≠ 0 → mine →
      exec (.swait t w) s = .next (((sent obj (.swait (immOf w))).core t (fun d => { d with run := .waitObj obj.toNat })).issued r t .s .seq)) ∧
    (opOf w = 0x2B → Word.bits w 0 12 = 0 → mine →
      exec (.sread t w) s = .next ((sent obj (.sread (BitVec.ofNat 5 (rdOf w)))).issued r t .s .seq)) ∧
    (opOf w = 0x2C → Word.bits w 17 5 = 0 → Word.bits w 0 12 = 0 → mine → (o.tile t).split = none →
      exec (.sbar t w) s = .next ((gate (sent obj (.sbar (o.startTile t).exch.nextWin)) obj).issued r t .s .seq)) ∧
    (opOf w = 0x2D → Word.bits w 17 5 = 0 → Word.bits w 0 12 = 0 → mine → (o.tile t).split = none →
      exec (.sarr t w) s = .next (((sent obj .sarr).modTile t (fun x => { x with split := some (obj, none, now) })).issued r t .s .seq)) ∧
    (∀ q rest, opOf w = 0x2E → Word.bits w 17 5 = 0 → Word.bits w 12 5 = 0 → Word.bits w 0 12 = 0 →
      (o.tile t).split = some (q, rest) →
      exec (.sbwait t w) s = .next ((gate (sent q .sbwait) q).issued r t .s .seq)) ∧
    (opOf w = 0x2F → Word.bits w 17 5 = 0 → Word.bits w 0 7 = 0 → mine →
      exec (.scfg t w) s = .next ((sent obj (.scfg (c.reg (rbOf w)))).issued r t .s .seq))

/-! ### M, V and X slots -/

/-- The loads of unit registers from the scalar row buffer, the pending vector mode, the next window, and the start of a
load descriptor. -/
def Obligations.UnitRegistersAreLoaded : Prop :=
  ∀ (s : State) (t : TileId) (w : SlotWord) (r : RegionId),
    let o := s.opened r t
    let now := (o.region r).cycle
    let words (n : Nat) : Nat := srbWords (o.tile t).ctl.srb (wField w) n
    (Issues s .m t w r → opOf w = 0x03 → wField w % 4 = 0 → Word.bits w 7 12 = 0 →
      exec (.mdld t w) s = .next ((o.modTile t (fun x =>
        { x with matrix := { x.matrix with md := x.matrix.md.put (reg3Of w) (BitVec.ofNat 128 (words 4)) } })).issued r t .m .seq)) ∧
    (Issues s .v t w r → opOf w = 0x01 → wField w % 8 = 0 → Word.bits w 7 11 = 0 →
      exec (.vdld t w) s = .next ((o.modTile t (fun x =>
        { x with vec := { x.vec with vd := x.vec.vd.put (reg4Of w) (BitVec.ofNat 256 (words 8)) } })).issued r t .v .seq)) ∧
    (Issues s .v t w r → opOf w = 0x02 → wField w % 16 = 0 → Word.bits w 7 12 = 0 →
      exec (.vjld t w) s = .next ((o.modTile t (fun x =>
        { x with vec := { x.vec with vj := x.vec.vj.put (reg3Of w) (BitVec.ofNat 512 (words 16)) } })).issued r t .v .seq)) ∧
    (Issues s .v t w r → opOf w = 0x06 → Word.bits w 0 21 = 0 →
      exec (.vmode t w) s = .next ((o.modTile t (fun x => { x with vec := { x.vec with pending := some (Word.bit w 21) } })).issued r t .v .seq)) ∧
    (Issues s .x t w r → opOf w = 0x01 → wField w % 4 = 0 → Word.bits w 7 11 = 0 →
      exec (.xrld t w) s = .next ((o.modTile t (fun x =>
        { x with exch := { x.exch with xr := x.exch.xr.put (reg4Of w) (BitVec.ofNat 128 (words 4)) } })).issued r t .x .seq)) ∧
    (Issues s .x t w r → opOf w = 0x02 → wField w % 4 = 0 → Word.bits w 7 11 = 0 →
      exec (.xvld t w) s = .next ((o.modTile t (fun x =>
        { x with exch := { x.exch with xv := x.exch.xv.put (reg4Of w) (BitVec.ofNat 128 (words 4)) } })).issued r t .x .seq)) ∧
    (Issues s .x t w r → opOf w = 0x06 → Word.bits w 8 14 = 0 →
      exec (.xsel t w) s = .next ((o.modTile t (fun x => { x with exch := { x.exch with nextWin := w.extractLsb' 0 8 } })).issued r t .x .seq)) ∧
    (Issues s .x t w r → opOf w = 0x07 → Word.bits w 6 16 = 0 →
      exec (.clreq t w) s = .next ((o.modRegion r (fun g => { g with starts := g.starts ++ [(now, t, w.extractLsb' 0 6)] })).issued r t .x .seq)) ∧
    (Issues s .x t w r → opOf w = 0x10 → wField w % 4 = 0 → Word.bits w 7 12 = 0 →
      exec (.dmld t w) s = .next ((o.modTile t (fun x =>
        { x with dr := x.dr.put (reg3Of w) (BitVec.ofNat 128 (words 4)) })).issued r t .x .seq))

/-- MPASS and MDRAIN with legal descriptors put a pass or a drain in flight. -/
def Obligations.MatrixOperationsStart : Prop :=
  ∀ (s : State) (t : TileId) (w : SlotWord) (r : RegionId), Issues s .m t w r →
    let o := s.opened r t
    let i := o.site r .m t w
    let m := (o.tile t).matrix
    (let d := m.md.get (reg3Of w)
     let bank := Word.bit w 18
     let first := (firstOperand m.lastOp (mdRamp d) i.now).1
     opOf w = 0x01 → Word.bits w 0 17 = 0 → mdLegal d bank = true →
     (mdBlk d false = true → first = i.now + 6 → o.rowFree t (Word.bits d 20 10) false) →
     ∃ (u : State) (junk : Bool), exec (.mpass t w) s = .next (u.issued r t .m .seq) ∧
       (∃ ps, ps.length = m.passes.length ∧ (u.tile t).matrix.passes = ps ++ [
         { md := d, bank := bank, init := Word.bit w 17, first := first,
           cycles := mdCycles d * mdStretch d, pc := i.pc, passNo := m.passNo, got := [], issue := i.now, junk := junk }]) ∧
       (u.tile t).matrix.passNo = m.passNo + 1 ∧
       (u.tile t).matrix.lastOp = some (first + mdCycles d * mdStretch d - 1) ∧
       u.mem = s.mem ∧ ∀ q, q ≠ t → u.tile q = o.tile q) ∧
    (let job := jobSetup i (Word.bits w 16 3) o
     let mode : BitVec 2 := w.extractLsb' 19 2
     let bank := Word.bit w 21
     opOf w = 0x02 → Word.bits w 0 16 = 0 → Word.bits w 19 2 ≤ 1 → ¬ (bank = true ∧ Word.bits w 19 2 = 1) → drainLegal job = true →
     ∃ (u : State) (junk : Bool), exec (.mdrain t w) s = .next (u.issued r t .m .seq) ∧
       (∃ ds, ds.length = m.drains.length ∧ (u.tile t).matrix.drains = ds ++
         [{ job := { job.begin_ i.now (i.now + 2) with junk := junk }, at_ := i.now, bank := bank, mode := mode, rows := [],
            audit := m.valid.getLsbD (if bank then 1 else 0), col := (if bank then m.init1 else m.init0).toNat % 32, noted := false }]) ∧
       (u.tile t).matrix.lastDrain = some i.now ∧
       u.mem = s.mem ∧ ∀ q, q ≠ t → u.tile q = o.tile q)

/-- VPLD, VRUN and VRUNA: a program for jobs issued 3 cy later; a static job in flight; an asynchronous job with an entry
for each of its ranges. -/
def Obligations.VectorOperationsStart : Prop :=
  ∀ (s : State) (t : TileId) (w : SlotWord) (r : RegionId), Issues s .v t w r →
    let o := s.opened r t
    let i := o.site r .v t w
    let v := (o.tile t).vec
    (∀ x u, opOf w = 0x03 → Word.bits w 10 3 = 0 → rowField w < 768 → o.rowFree t (rowField w) false →
      o.readRow r t (rowField w) i.now i.mark = (x, none, u) →
      let prog := (List.range (Word.bits w 15 5 + 1)).map (fun k => rowWord x (32 * Word.bits w 13 2 + k))
      exec (.vpld t w) s = .next ((u.modTile t (fun y =>
        { y with vec := { y.vec with progs := y.vec.progs.put (reg2Of w) ((i.now + 3, prog) :: (Tab.get [] y.vec.progs (reg2Of w)).take 3) } })).issued r t .v .seq)) ∧
    (let job := jobSetup i (reg3Of w) o
     opOf w = 0x04 → Word.bits w 0 19 = 0 → jobLegal job false = true →
     (∀ q ∈ (job.begin_ i.now (i.now + 1)).rows, o.rowFree t q.1 q.2) →
     ∃ (u : State) (junk : Bool), exec (.vrun t w) s = .next (u.issued r t .v .seq) ∧
       (∃ js, js.length = v.jobs.length ∧
         (u.tile t).vec.jobs = js ++ [{ job.begin_ i.now (i.now + 1) with junk := junk }]) ∧
       u.mem = s.mem ∧ ∀ q, q ≠ t → u.tile q = o.tile q) ∧
    (let job := jobSetup i (reg3Of w) o
     let rs := (job.begin_ i.now 0).ranges
     opOf w = 0x05 → Word.bits w 0 19 = 0 → jobLegal job true = true → v.asyncs.length < 2 →
     rs.length ≤ (o.tile t).freeEntries →
     ∃ u : State, exec (.vruna t w) s = .next ((feedPort r t 4 64 u).issued r t .v .seq) ∧
       (u.tile t).vec.asyncs = v.asyncs ++ [{ setup := job, op := (o.tile t).ops, need := job.vcqNeed, vcq := [] }] ∧
       (u.tile t).ops = (o.tile t).ops + 1 ∧ u.regions = o.regions ∧ u.mem = s.mem ∧ ∀ q, q ≠ t → u.tile q = o.tile q)

/-- XSEND in an exchange phase: the rows of an on-device send are on the mesh, those of an off-device send go to the gate,
and the injection port is taken for 16 cycles a row. -/
def Rules.SendsAreInjected : Prop :=
  ∀ (s : State) (t : TileId) (w : SlotWord) (r : RegionId), Issues s .x t w r →
    let o := s.opened r t
    let i := o.site r .x t w
    let x := (o.tile t).exch.xr.get (reg4Of w)
    let b := portBusy i o
    opOf w = 0x03 → Word.bits w 10 2 = 0 → (o.region r).inExchange = true → xrLegal x = true →
    rowField w + nOf w ≤ 768 → o.rowFree t (rowField w) false →
    (xrGate x = false → badDest o (o.region r) x = none → staleDest o r x = none →
      (xrSigen x = true → (o.region r).ownsObj (xrSigobj x).toNat = true) →
      exec (.xsend t w) s = .next (((b.2.modRegion r (fun g =>
        { g with packets := g.packets ++ sendPackets i b.2 x (nOf w) (rowField w) b.1 })).modTile t (fun y =>
        { y with exch := { y.exch with sendFree := i.now + 16 * nOf w } })).issued r t .x .seq)) ∧
    (xrGate x = true → o.portEnabled (xrPort x) = true → ((o.region r).lane (xrPort x)).isSome = true →
      (o.port (xrPort x)).nbrDev = xrRdev x → nOf w ≤ (o.tile t).spare (xrPort x) →
      badTileId o (xrRtile x).toNat = false → staleLane o r (xrPort x) = none →
      exec (.xsend t w) s = .next ((b.2.modTile t (fun y =>
        let m : Mover := { at_ := i.now, n := nOf w, row := rowField w, dst := 0, xr := x, got := [], pc := i.pc, junk := b.1 }
        { y with exch := { y.exch with sendFree := i.now + 16 * nOf w, gates := y.exch.gates ++ [m] } })).issued r t .x .seq))

/-- XRECV in an exchange phase: a compiled receive is armed from its issue cycle on; a late item is declared. -/
def Rules.ReceivesAreArmedOrDeclared : Prop :=
  ∀ (s : State) (t : TileId) (w : SlotWord) (r : RegionId), Issues s .x t w r →
    let o := s.opened r t
    let i := o.site r .x t w
    let e := (o.tile t).exch
    let x := e.xv.get (reg4Of w)
    opOf w = 0x04 → Word.bits w 10 2 = 0 → (o.region r).inExchange = true → xvLegal x (nOf w) = true →
    rowField w + nOf w * xvRows x ≤ 768 → (xvWiden x = true → xvScrow x < 768) →
    (xvLate x = false → badTileId o (xvSender x).toNat = false →
      (∀ e ∈ ((o.tile t).before (o.startTile t).ops).sb, e.2.last < rowField w ∨ rowField w + nOf w * xvRows x ≤ e.2.first) →
      ∃ (u : State) (junk : Bool), exec (.xrecv t w) s = .next (u.issued r t .x .seq) ∧
        (u.tile t).exch.armed = e.armed ++ [
          { at_ := i.now, xv := x, n := nOf w, row := rowField w, done := 0, base := none,
            key := (o.tile t).vec.key, pc := i.pc, scale := none, got := [], junk := junk }] ∧
        u.mem = s.mem ∧ ∀ q, q ≠ t → u.tile q = o.tile q) ∧
    (xvLate x = true → (o.tile t).decl (xvItem x) = none →
      ∃ (u : State) (junk : Bool), exec (.xrecv t w) s = .next (u.issued r t .x .seq) ∧
        (u.tile t).exch.decls = e.decls ++ [
          { id := (o.tile t).ops, pc := i.pc, junk := junk, item := xvItem x, n := nOf w,
            row := rowField w, xv := x, dma := false, written := [], key := (o.tile t).vec.key, port := none,
            scale := none, events := Events.none_ }] ∧
        u.mem = s.mem ∧ ∀ q, q ≠ t → u.tile q = o.tile q)

/-- XDUE places its mark in its issue cycle; XMOV starts a copy of its rows. -/
def Rules.DueMarksAndCopies : Prop :=
  ∀ (s : State) (t : TileId) (w : SlotWord) (r : RegionId), Issues s .x t w r →
    let o := s.opened r t
    let i := o.site r .x t w
    let item : BitVec 16 := w.extractLsb' 0 16
    let marked (a : State) (k : DueKind) : State := a.modRegion r (fun g =>
      { g with brake := { g.brake with marks := insertMark { tile := t, kind := k, item := item, cyc := i.now } g.brake.marks } })
    (opOf w = 0x05 → Word.bits w 16 4 = 0 → (o.region r).inExchange = true →
      (∀ d, reg2Of w = 0 → (o.tile t).decl item = some d →
        exec (.xdue t w) s = .next ((marked (o.modTile t (fun y =>
          { y with exch := { y.exch with leads := (d.row, d.n * (if d.dma then 1 else xvRows d.xv), item.toNat, i.now) :: y.exch.leads } })) (.item d.id)).issued r t .x .seq)) ∧
      (reg2Of w = 1 → Word.bits w 6 10 = 0 →
        exec (.xdue t w) s = .next ((marked o (.code (w.extractLsb' 0 6))).issued r t .x .seq)) ∧
      (reg2Of w = 2 → Word.bits w 9 3 = 0 → Word.bits w 12 4 ≤ 11 →
        exec (.xdue t w) s = .next ((marked o (.gate (w.extractLsb' 12 4) (Word.bits w 0 9 + 1))).issued r t .x .seq))) ∧
    (let n := Word.bits w 17 5 + 1
     let dst := Word.bits ((o.tile t).ctl.reg (raOf w)) 0 10
     opOf w = 0x08 → Word.bits w 10 2 = 0 → rowField w + n ≤ 768 → dst + n ≤ 768 →
     o.rowFree t (rowField w) false →
     exec (.xmov t w) s = .next ((o.modTile t (fun y =>
       let m : Mover := { at_ := i.now, n := n, row := rowField w, dst := dst, xr := 0, got := [], pc := i.pc, junk := false }
       let z : Tile := { y with exch := { y.exch with moves := y.exch.moves ++ [m] } }
       { z with expect := z.expect ++ (List.range n).map (fun k => (dst + k, i.now + k + 2, i.now, i.pc)) })).issued r t .x .seq))

/-- XSEND, XRECV, XDUE and XMOV. -/
def Obligations.ExchangeOperationsStart : Prop := Rules.SendsAreInjected ∧ Rules.ReceivesAreArmedOrDeclared ∧ Rules.DueMarksAndCopies

/-- The DMA operations on a legal register start a DMA; the row DMAs take a scoreboard entry over their rows, DMAXR
declares its item. -/
def Obligations.DmaOperationsStart : Prop :=
  ∀ (s : State) (t : TileId) (w : SlotWord) (r : RegionId), Issues s .x t w r →
    let o := s.opened r t
    let i := o.site r .x t w
    let x := (o.tile t).dr.get (reg3Of w)
    let id := (o.tile t).ops
    let dma (op : DmaOp) (n row : Nat) : Dma :=
      { id := id, op := op, n := n, row := row, dr := x, pas := none, data := none, pc := i.pc }
    let started (op : DmaOp) (n row : Nat) : State :=
      o.modTile t (fun y => { y with ops := y.ops + 1, dmas := y.dmas ++ [dma op n row] })
    let held (op : DmaOp) : State := ((started op (nOf w) (rowField w)).modTile t (fun y =>
      y.allocate (rowField w) (rowField w + nOf w - 1) op.writesTile id)).issued r t .x .seq
    (drSigen x = true → (o.region r).ownsObj (drSigobj x).toNat = true) →
    (Word.bits w 10 2 = 0 → Word.bits w 18 1 = 0 → rowField w + nOf w ≤ 768 →
      (1 ≤ (o.tile t).freeEntries →
        (opOf w = 0x11 → drLegal .rd x = true → exec (.dmard t w) s = .next (held .rd)) ∧
        (opOf w = 0x12 → drLegal .wr x = true → exec (.dmawr t w) s = .next (held .wr)) ∧
        (opOf w = 0x13 → drLegal .acc x = true → exec (.dmaacc t w) s = .next (held .acc))) ∧
      (opOf w = 0x15 → drLegal .xr x = true → (o.region r).inExchange = true → (o.tile t).decl (drItem x) = none →
        ∃ (u : State) (junk : Bool), exec (.dmaxr t w) s = .next (u.issued r t .x .seq) ∧
          (u.tile t).dmas = (o.tile t).dmas ++ [dma .xr (nOf w) (rowField w)] ∧
          (∃ d, (u.tile t).exch.decls = (o.tile t).exch.decls ++ [d] ∧ d.id = id ∧ d.item = drItem x ∧ d.n = nOf w ∧
            d.row = rowField w ∧ d.dma = true ∧ d.junk = junk ∧ d.written = []) ∧
          u.mem = s.mem ∧ ∀ q, q ≠ t → u.tile q = o.tile q)) ∧
    (opOf w = 0x14 → Word.bits w 0 19 = 0 → drLegal .zf x = true → (o.region r).inExchange = false →
      (o.tile t).zeroFills < 4 → exec (.dmazf t w) s = .next ((started .zf 0 0).issued r t .x .seq))

/-- The channel operations in a compute phase: an open is requested or waits for a close, a message leaves for a credit
or waits, a close marker leaves, and a CQROW takes an entry of KIND W for its row. -/
def Obligations.ChannelOperations : Prop :=
  ∀ (s : State) (t : TileId) (w : SlotWord) (r : RegionId), Issues s .x t w r →
    let o := s.opened r t
    let c := (o.tile t).ctl
    let ch : BitVec 2 := w.extractLsb' 20 2
    let k := (o.tile t).chan ch.toNat
    let put (k : Chan) : State := (o.modTile t (fun x => { x with chans := x.chans.put ch.toNat k })).issued r t .x .seq
    let gated (g : Gate) : State := (o.core t (fun d => { d with gate := some g })).issued r t .x .seq
    (o.region r).inExchange = false →
    (let d : TileId := (c.reg (raOf w)).extractLsb' 0 13
     let port : BitVec 3 := w.extractLsb' 17 3
     opOf w = 0x20 → Word.bits w 0 12 = 0 → Word.bits w 17 3 ≤ 4 → outside o (o.region r) d = false →
     o.staleColumn r (colOf d) = false →
     (k.st = .closed → exec (.chopen t w) s = .next (put
       { st := .opening, credits := 0, dst := d, port := port, flight := [], marker := false, back := 0, pc := c.pc })) ∧
     (k.st = .closing → exec (.chopen t w) s = .next (gated (.reopen ch d port c.pc)))) ∧
    (let m := c.pair (raOf w)
     opOf w = 0x21 → Word.bits w 0 12 = 0 → Word.bits w 17 3 = 0 → raOf w % 2 = 0 →
     (k.st = .open_ → 0 < k.credits →
       exec (.chsend t w) s = .next (put { k with credits := k.credits - 1, flight := k.flight ++ [m] })) ∧
     (k.st = .open_ → k.credits = 0 → exec (.chsend t w) s = .next (gated (.send ch m))) ∧
     (k.st = .opening → exec (.chsend t w) s = .next (gated (.send ch m)))) ∧
    (opOf w = 0x22 → Word.bits w 0 20 = 0 →
      (k.st = .closed ∨ k.st = .closing → exec (.chclose t w) s = .next (o.issued r t .x .seq)) ∧
      (k.st = .open_ ∨ k.st = .opening → exec (.chclose t w) s = .next (put { k with st := .closing, marker := true }))) ∧
    (let q : BitVec 2 := w.extractLsb' 20 2
     let row := rowField w
     opOf w = 0x23 → Word.bits w 18 2 = 0 → Word.bits w 10 2 = 0 → row < 768 → 1 ≤ (o.tile t).freeEntries →
     exec (.cqrow t w) s = .next ((feedPort r t q.toNat 64 (o.modTile t (fun x =>
       let y := x.allocate row row true x.ops
       { y with ops := x.ops + 1, cqrows := y.cqrows ++ [{ q := q, n := nOf w, row := row, op := x.ops, got := [] }] }))).issued r t .x .seq))

/-! ### Halts, brakes, windows and wakes (03_timing_contract.md, 10_sync_and_channels.md) -/

/-- HALT_ENGAGE: 24 wall cycles after a halt began the region freezes and counts as halted; earlier nothing happens. No tile,
object or byte of memory changes. -/
def Obligations.HaltEngagesAfter24WallCycles : Prop :=
  ∀ (s : State) (r : RegionId) (w : Nat), (s.region r).brake.haltAt = some w →
    (s.wall < w + 24 → exec (.haltEngage r) s = .next s) ∧
    (w + 24 ≤ s.wall → (s.region r).brake.halted = false →
      ∃ u : State, exec (.haltEngage r) s = .next u ∧
        (u.region r).frozen = true ∧ (u.region r).brake.halted = true ∧ (u.region r).cycle = (s.region r).cycle ∧
        (u.region r).faults = (s.region r).faults ∧ u.tiles = s.tiles ∧ u.objs = s.objs ∧ u.mem = s.mem ∧ u.hub = s.hub ∧
        ∀ q, q ≠ r → u.region q = s.region q)

/-- BRAKE_FREEZE, BRAKE_THAW and LIMIT_BRAKE_END: a change of the missing mark or of the limit brake reaches the region 24
wall cycles after it, a freeze is counted when it begins, and a brake by duty ends with its window. -/
def Rules.BrakesReachTheRegion : Prop :=
  ∀ (s : State) (r : RegionId),
    let g := s.region r
    let b := g.brake
    let set (c : Brake) : State := s.setRegion r { g with brake := c }
    (∀ w rest, w + 24 ≤ s.wall →
      (b.flips = (w, true) :: rest → b.limitFlips = [] →
        exec (.brakeFreeze r) s = .next (set { b with flips := rest, frozen := true, count := b.counted })) ∧
      (b.flips = [] → b.limitFlips = (w, true) :: rest →
        exec (.brakeFreeze r) s = .next (set { b with limitFlips := rest, limited := true, count := b.counted })) ∧
      (b.flips = (w, false) :: rest → b.limitFlips = [] →
        exec (.brakeThaw r) s = .next (set { b with flips := rest, frozen := false })) ∧
      (b.flips = [] → b.limitFlips = (w, false) :: rest →
        exec (.brakeThaw r) s = .next (set { b with limitFlips := rest, limited := false }))) ∧
    (b.frozen = false → b.limited = false → b.counted = Word.satAdd b.count 1) ∧
    (b.frozen = true ∨ b.limited = true → b.counted = b.count) ∧
    (b.dutyOn = true → 64 * b.duty ≤ s.cad.beat.toNat % 1024 →
      exec (.limitBrakeEnd r) s = .next (relimit r (set { b with dutyOn := false }))) ∧
    (b.dutyOn = false ∨ s.cad.beat.toNat % 1024 < 64 * b.duty → exec (.limitBrakeEnd r) s = .next s)

/-- BRAKE_TIMEOUT: a run of frozen cycles past BRAKE_LIMIT raises 0x17, charged to the tile of the oldest missing mark with
its item as detail; at or below the limit nothing happens. That the count starts anew, and which of several marks of one cycle is
the oldest, is the model's choice (log entry 97). Marks stand in order, which placing one keeps. -/
def Rules.BrakeTimeoutIsCharged : Prop :=
  ∀ (s : State) (r : RegionId),
    let g := s.region r
    let b := g.brake
    let fresh : State := s.setRegion r { g with brake := { b with run := 0 } }
    (b.run ≤ b.limit.toNat → exec (.brakeTimeout r) s = .next s) ∧
    (b.limit.toNat < b.run → b.marks = [] → exec (.brakeTimeout r) s = .next (fresh.raise r none none fBrakeTimeout 0)) ∧
    (b.limit.toNat < b.run → b.marks ≠ [] → b.marks.Pairwise (fun m k => k.before m = false) →
      ∃ m ∈ b.marks, (∀ k ∈ b.marks, m.cyc ≤ k.cyc ∧ (m.cyc = k.cyc → m.tile.toNat ≤ k.tile.toNat)) ∧
        exec (.brakeTimeout r) s = .next (fresh.raise r (some m.tile) none fBrakeTimeout m.item.toNat)) ∧
    ∀ (m : DueMark) (l : List DueMark), l.Pairwise (fun a k => k.before a = false) →
      (insertMark m l).Pairwise (fun a k => k.before a = false)

/-- Brakes freeze and thaw a region after 24 wall cycles; a long run of frozen cycles faults. -/
def Obligations.BrakesReachAndTimeOut : Prop := Rules.BrakesReachTheRegion ∧ Rules.BrakeTimeoutIsCharged

/-- STALL_RESUME and WAITER_WAKE: a tile issues again in the cycle it was given and not before; a barrier wait lets a pending
vector mode take effect. -/
def Rules.WaitingTilesGoOn : Prop :=
  ∀ (s : State) (t : TileId) (r : RegionId) (n : Nat), s.regionOf t = some r → (s.region r).frozen = false →
    (s.tile t).ctl.bundle = none →
    let x := s.tile t
    let now := (s.region r).cycle
    let on (y : Tile) : State := s.setTile t { y with ctl := { y.ctl with run := .running, next := now } }
    (∀ need, x.ctl.run = .stalled need (some n) →
      (n ≤ now → exec (.stallResume t) s = .next (on x)) ∧ (now < n → exec (.stallResume t) s = .next s)) ∧
    (x.ctl.run = .waking n false →
      (n ≤ now → exec (.waiterWake t) s = .next (on x)) ∧ (now < n → exec (.waiterWake t) s = .next s)) ∧
    (∀ m, x.ctl.run = .waking n true → x.vec.pending = some m → n ≤ now →
      exec (.waiterWake t) s = .next (on { x with vec := { x.vec with mode := some m, pending := none } })) ∧
    (x.ctl.run = .waking n true → x.vec.pending = none → n ≤ now → exec (.waiterWake t) s = .next (on x))

/-- RELEASE_WAKE and ENTRY_HOLD_RELEASE: 48 cy after the release, and not before, every released tile goes on; entry hold
ends with every tile held in it at bundle 0 and its CYC counting from 0; a tile that already runs is as before. -/
def Rules.ReleasesReachTheTiles : Prop :=
  ∀ (s : State) (r : RegionId), (s.region r).frozen = false →
    let g := s.region r
    (∀ o l ts, (s.obj o).xch = false → g.releases = [(o, l, ts)] → ts.Nodup →
      (g.cycle < l + 48 → exec (.releaseWake r o) s = .next (s.setRegion r g)) ∧
      (l + 48 ≤ g.cycle →
        ∃ u : State, exec (.releaseWake r o) s = .next u ∧ (u.region r).releases = [] ∧ u.objs = s.objs ∧ u.mem = s.mem ∧
          (∀ t ∈ ts, ∀ n, (s.tile t).ctl.run = .released n → (u.tile t).ctl.run = .running ∧ (u.tile t).ctl.next = g.cycle ∧
            (u.tile t).tm = (s.tile t).tm) ∧
          ∀ t, t ∉ ts → u.tile t = s.tile t)) ∧
    (∀ l c, g.startRel = some l → g.cfg = some c → s.power.cur.toNat ≤ c.floor → g.st = .granted →
      (g.cycle < l + 48 → exec (.entryHoldRelease r) s = .next s) ∧
      (l + 48 ≤ g.cycle →
        ∃ u : State, exec (.entryHoldRelease r) s = .next u ∧ (u.region r).startRel = none ∧
          u.objs = s.objs ∧ u.mem = s.mem ∧
          (∀ t ∈ c.tiles, (s.tile t).ctl.run = .entryHold →
            (u.tile t).ctl.run = .running ∧ (u.tile t).ctl.pc = 0 ∧ (u.tile t).ctl.next = g.cycle ∧
            (u.region r).cyc (u.tile t) = 0 ∧ (u.tile t).tm = (s.tile t).tm) ∧
          (∀ t ∈ c.tiles, (s.tile t).ctl.run ≠ .entryHold → u.tile t = s.tile t) ∧
          ∀ t, t ∉ c.tiles → u.tile t = s.tile t))

/-- Stalled, waiting, released and held tiles go on in the cycle they were given. -/
def Obligations.WaitingAndReleasedTilesGoOn : Prop := Rules.WaitingTilesGoOn ∧ Rules.ReleasesReachTheTiles

/-- EXCHANGE_WINDOW_OPEN and EXCHANGE_WINDOW_END: 48 cy after the exchange barrier's release the window opens on every tile
with its XLEN, a CROSS window only once a beat boundary has passed; XLEN cycles later it ends. -/
def Obligations.ExchangeWindowsOpenAndEnd : Prop :=
  ∀ (s : State) (r : RegionId), (s.region r).frozen = false →
    let g := s.region r
    (∀ l win, g.window.next = some (l, win) →
      let head : Word := Tab.get 0x10 g.xwin win.toNat
      (g.cycle < l + 48 ∨ (head.getLsbD 16 = true ∧ g.window.beat = false) → exec (.exchangeWindowOpen r) s = .next s) ∧
      (l + 48 ≤ g.cycle → (head.getLsbD 16 = true → g.window.beat = true) →
        ∃ u : State, exec (.exchangeWindowOpen r) s = .next u ∧
          (u.region r).window.open_ = true ∧ (u.region r).window.e0 = g.cycle ∧ (u.region r).window.next = none ∧
          (u.region r).window.xlen = Word.bits head 0 16 ∧ (u.region r).xwin = g.xwin ∧
          u.objs = s.objs ∧ u.mem = s.mem ∧ (∀ t ∈ g.tiles, (u.tile t).exch.win = win ∧ (u.tile t).tm = (s.tile t).tm) ∧
          ∀ t, t ∉ g.tiles → u.tile t = s.tile t)) ∧
    (g.window.open_ = true →
      (g.cycle < g.window.e0 + g.window.xlen → exec (.exchangeWindowEnd r) s = .next s) ∧
      (g.window.e0 + g.window.xlen ≤ g.cycle →
        ∃ u : State, exec (.exchangeWindowEnd r) s = .next u ∧
          (u.region r).window.open_ = false ∧ (u.region r).inExchange = false ∧ u.objs = s.objs ∧ u.mem = s.mem ∧
          (∀ t ∈ g.tiles, (u.tile t).exch.decls = [] ∧ (∀ a ∈ (u.tile t).exch.armed, a.n ≤ a.done) ∧ (u.tile t).tm = (s.tile t).tm) ∧
          ∀ t, t ∉ g.tiles → u.tile t = s.tile t))

/-! ### Sync objects (10_sync_and_channels.md) -/

/-- SYNC_OP_ARRIVAL, one operation alone: a signal adds its amount to a counter and is stamped in LAST and LBEAT, or
overflows; a wait the counter satisfies takes its amount and wakes the tile 6 cy later, any other joins the list; a read
is readable 20 cy after its issue; a configuration word is taken where nothing else has reached the object in the cycle; a
quarantined block takes nothing and faults STALE_UNIT. -/
def Obligations.SyncOperationsArrive : Prop :=
  ∀ (s : State) (r : RegionId) (f : SyncFlight) (t : TileId) (pc : BitVec 11), (s.region r).frozen = false →
    (s.region r).flights = [f] → f.due ≤ (s.region r).cycle → f.src = .op t pc →
    let x := s.obj f.obj
    let v : State := s.setRegion r { s.region r with flights := [] }
    let u : State := touch r f.obj v
    let stamped (y : SyncObj) : SyncObj := { y with last := 0x40000000 ||| t.setWidth 32, lbeat := s.cad.lap ++ s.cad.beat }
    (s.stale 2 (f.obj.toNat / 256) = true →
      exec (.syncOpArrival r f.obj) s = .next (v.raise r (some t) (some (.s, pc)) fStaleUnit (blockDetail f.obj))) ∧
    (s.stale 2 (f.obj.toNat / 256) = false →
    (∀ n, f.kind = .ssig n → x.bar = false → x.waiters = [] →
      (x.value.toNat + n ≤ 65535 → exec (.syncOpArrival r f.obj) s =
        .next (u.setObj f.obj (stamped { x with value := BitVec.ofNat 16 (x.value.toNat + n) }))) ∧
      (65535 < x.value.toNat + n → exec (.syncOpArrival r f.obj) s =
        .next ((u.raise r (some t) (some (.s, pc)) fSyncOverflow f.obj.toNat).setObj f.obj x))) ∧
    (∀ n, f.kind = .ssig n → x.bar = true → exec (.syncOpArrival r f.obj) s =
        .next ((u.raise r (some t) (some (.s, pc)) fSyncMisuse f.obj.toNat).setObj f.obj x)) ∧
    (∀ n, f.kind = .swait n → x.bar = false → x.waiters = [] →
      ∃ v : State, exec (.syncOpArrival r f.obj) s = .next v ∧ v.mem = s.mem ∧ (∀ q, q ≠ t → v.tile q = s.tile q) ∧
        (n ≤ x.value.toNat →
          v.obj f.obj = { x with value := BitVec.ofNat 16 (x.value.toNat - n) } ∧
          (v.tile t).ctl = { (s.tile t).ctl with run := .waking ((s.region r).cycle + 6) false }) ∧
        (x.value.toNat < n →
          v.obj f.obj = { x with waiters := [{ tile := some t, count := n }] } ∧ v.tile t = s.tile t)) ∧
    (∀ rd, f.kind = .sread rd → x.waiters = [] → exec (.syncOpArrival r f.obj) s =
      .next ((u.setObj f.obj x).core t (fun c => c.setReg rd.toNat x.read (f.due - 10) (f.due + 10)))) ∧
    (∀ v, f.kind = .scfg v → configRefused r f.obj v s = false → (∀ q ∈ (s.region r).touched, q.1 ≠ f.obj.toNat) →
      exec (.syncOpArrival r f.obj) s = .next (u.setObj f.obj (x.configure v))))

/-- An arrival at a barrier takes one from the count; the last one turns the sense, counts the generation, restores the
count, and releases every waiter in its cycle. -/
def Obligations.BarrierArrivalsCountDown : Prop :=
  ∀ (s : State) (r : RegionId) (f : SyncFlight) (t : TileId) (pc : BitVec 11) (win : Byte), (s.region r).frozen = false →
    (s.region r).flights = [f] → f.due ≤ (s.region r).cycle → f.src = .op t pc → f.kind = .sbar win →
    s.stale 2 (f.obj.toNat / 256) = false →
    let x := s.obj f.obj
    let now := (s.region r).cycle
    x.bar = true → x.xch = false → x.up = false → x.parEn = false → x.children = [] →
    (∀ e ∈ (s.region r).releases, e.1 ≠ f.obj ∨ e.2.1 ≠ now) →
    (2 ≤ x.value.toNat →
      ∃ v : State, exec (.syncOpArrival r f.obj) s = .next v ∧ v.tiles = s.tiles ∧ v.mem = s.mem ∧
        (v.obj f.obj).value = x.value - 1 ∧ (v.obj f.obj).waiters = x.waiters ++ [{ tile := some t, count := 0 }] ∧
        (v.obj f.obj).sense = x.sense ∧ (v.obj f.obj).gen = x.gen) ∧
    (x.value = 1 → (s.region r).fw.conf = false → (s.region r).drl.st = .idle →
      ∃ v : State, exec (.syncOpArrival r f.obj) s = .next v ∧ v.mem = s.mem ∧
        (v.obj f.obj).value = x.pcount ∧ (v.obj f.obj).waiters = [] ∧ (v.obj f.obj).sense = !x.sense ∧
        (v.obj f.obj).gen = x.gen + 1 ∧
        (∀ q, { tile := some q, count := 0 } ∈ x.waiters ++ [{ tile := some t, count := 0 : Waiter }] →
          (v.tile q).ctl.run = .released (now + 48)) ∧
        (v.region r).releases = (s.region r).releases ++ [(f.obj, now, x.waiters.filterMap (·.tile) ++ [t])])

/-! ### Channels (10_sync_and_channels.md) -/

/-- The events of channels: an open binds an unbound port of a higher rank and gives 8 credits, or raises CHAN_RANK; a
message lands behind those in the buffer; a credit returns; a close marker that has passed every message unbinds the port
and closes the channel. -/
def Rules.ChannelEvents : Prop :=
  ∀ (s : State) (t : TileId) (ch : BitVec 2) (r : RegionId), s.moving t = some r →
    let g := s.region r
    let c := (s.tile t).chan ch.toNat
    let q := c.port.toNat
    (s.midBundle c.dst = false → c.st = .opening →
      (g.rank t < g.rank c.dst → ((s.tile c.dst).rx q).bound = none →
        exec (.chanOpenRequest t ch) s = .next (retryGate r t ((s.modRx c.dst q (fun _ => { bound := some (t, ch), buf := [] })).modChan
          t ch (fun k => { k with st := .open_, credits := 8 })))) ∧
      (g.rank c.dst ≤ g.rank t ∨ (∃ b, ((s.tile c.dst).rx q).bound = some b) →
        exec (.chanOpenRequest t ch) s = .next ((s.modChan t ch (fun _ => Chan.reset)).raise r (some t) (some (.x, c.pc)) fChanRank
          (c.dst.toNat + (g.rank t <<< 16) + (g.rank c.dst <<< 32))))) ∧
    (∀ m rest, s.midBundle c.dst = false → c.flight = m :: rest →
      exec (.chanMessageDelivery t ch) s = .next (feedPort r c.dst q 64
        ((s.modChan t ch (fun k => { k with flight := rest })).modRx c.dst q (fun x => { x with buf := x.buf ++ [m] })))) ∧
    (0 < c.back → (s.tile t).ctl.gate = none →
      exec (.chanCreditReturn t ch) s = .next (s.modChan t ch (fun k => { k with back := k.back - 1, credits := k.credits + 1 }))) ∧
    (∀ p : BitVec 3, ∀ src k, ((s.tile t).rx p.toNat) = { bound := some (src, k), buf := [] } → s.midBundle src = false →
      ((s.tile src).chan k.toNat).marker = true → ((s.tile src).chan k.toNat).flight = [] →
      exec (.chanCloseMarker t p) s = .next (retryGate r src ((s.modRx t p.toNat (fun _ => RxPort.reset)).modChan src k (fun _ => Chan.reset))))

/-- The operation that holds a tile's gate goes on when its channel lets it: a message leaves for the credit that came, an
open starts on the channel that closed; the tile issues from the next cycle. Else nothing happens. -/
def Rules.GatedChannelOperationsGoOn : Prop :=
  ∀ (s : State) (t : TileId) (r : RegionId) (ch : BitVec 2),
    let c := (s.tile t).chan ch.toNat
    let now := (s.region r).cycle
    let free (a : State) : State := a.core t (fun d => { d with gate := none, next := max d.next (now + 1) })
    (∀ m, (s.tile t).ctl.gate = some (.send ch m) →
      (c.st = .open_ → 0 < c.credits → retryGate r t s =
        free (s.modChan t ch (fun k => { k with credits := k.credits - 1, flight := k.flight ++ [m] }))) ∧
      (c.st ≠ .open_ ∨ c.credits = 0 → retryGate r t s = s)) ∧
    (∀ d p pc, (s.tile t).ctl.gate = some (.reopen ch d p pc) →
      (c.st = .closed → retryGate r t s =
        free (s.modChan t ch (fun _ => { Chan.reset with st := .opening, dst := d, port := p, pc := pc }))) ∧
      (c.st ≠ .closed → retryGate r t s = s))

/-- Opens, messages, credits and close markers, and the operations that wait for them. -/
def Obligations.ChannelEventsAct : Prop := Rules.ChannelEvents ∧ Rules.GatedChannelOperationsGoOn

/-- A read that arrives alone at an object puts into its register VALUE for a counter; for a barrier the remaining arrivals
in bits 15:0, SENSE in bit 16, and zero above. -/
def Obligations.SreadReturnsTheCounterOrTheBarrier : Prop :=
  ∀ (s : State) (r : RegionId) (f : SyncFlight) (t : TileId) (pc : BitVec 11) (rd : BitVec 5), (s.region r).frozen = false →
    (s.region r).flights = [f] → f.due ≤ (s.region r).cycle → f.src = .op t pc → f.kind = .sread rd →
    s.stale 2 (f.obj.toNat / 256) = false →
    let x := s.obj f.obj
    x.waiters = [] →
    ∃ v : Word,
      exec (.syncOpArrival r f.obj) s = .next (((touch r f.obj (s.setRegion r { s.region r with flights := [] })).setObj f.obj x).core t
        (fun c => c.setReg rd.toNat v (f.due - 10) (f.due + 10))) ∧
      (x.bar = false → v.toNat = x.value.toNat) ∧
      (x.bar = true → v.toNat % 2 ^ 16 = x.value.toNat ∧ v.getLsbD 16 = x.sense ∧ v.toNat / 2 ^ 17 = 0)

/-! ### Rows that arrive (09_exchange.md) -/

/-- A row of a compiled send that completes at the tile in this cycle is taken by the receive armed for it, or raises
XUNEXPECTED; an armed cycle that passes with no row raises it too; the row of a declared late item is written in tile memory
once its free bank cycles have come, and its buffer space is freed; a row beyond the declared count faults. -/
def Obligations.RowsArriveOrFault : Prop :=
  ∀ (s : State) (t : TileId) (r : RegionId), s.moving t = some r →
    let g := s.region r
    let e := (s.tile t).exch
    (∀ p, g.arrivals t g.cycle = [p] →
      (e.armed = [] → exec (.compiledRowArrival t) s = .next ((s.raise r (some t) none fXunexpected
        (p.srcRow % 1024 + (p.src.toNat <<< 16))).modRegion r (fun h => h.dropArrivals t g.cycle))) ∧
      (∀ a k, e.armed = [a] → a.rowAt g.cycle = some k → a.done < k → a.takes p k = true → p.sig = none →
        exec (.compiledRowArrival t) s = .next ((s.modTile t (fun x =>
          { x with exch := { x.exch with armed := [{ a with done := k }] } })).modRegion r (fun h => h.dropArrivals t g.cycle))) ∧
      (∀ a k, e.armed = [a] → a.rowAt g.cycle = some k → a.done < k → a.takes p k = false →
        exec (.compiledRowArrival t) s = .next (((s.modTile t (fun x =>
          { x with exch := { x.exch with armed := [{ a with done := k }] } })).raise r (some t) none fXunexpected
          (a.dest k + (p.src.toNat <<< 16))).modRegion r (fun h => h.dropArrivals t g.cycle)))) ∧
    (∀ a, e.armed = [a] → a.done < a.n → a.at_ + 16 * (a.done + 1) ≤ g.cycle → g.arrivals t (a.at_ + 16 * (a.done + 1)) = [] →
      exec (.armedReceiveMissed t) s = .next ((s.modTile t (fun x =>
          { x with exch := { x.exch with armed := [{ a with done := a.done + 1 }] } })).raise r (some t) none fXunexpected
        (a.dest (a.done + 1) + ((xvSender a.xv).toNat <<< 16)))) ∧
    (∀ q d, g.inRows = [q] → q.tile = t → q.decl = none → (s.tile t).decl q.item = some d → d.dma = false →
      (d.n ≤ q.k → exec (.lateItemRowWrite t q.item) s =
        .next ((takeInRow r t q s).raise r (some t) none fXunexpected ((d.row + q.k) % 1024))) ∧
      (q.k < d.n → (s.tile t).granted q.who = false → exec (.lateItemRowWrite t q.item) s = .next s) ∧
      (q.k < d.n → (s.tile t).granted q.who = true → xvWiden d.xv = false → d.junk = false → q.sig = none → (s.tile t).tm.wf = true →
        ∃ u : State, exec (.lateItemRowWrite t q.item) s = .next u ∧ (u.region r).inRows = [] ∧ u.mem = s.mem ∧
          (u.tile t).row (d.row + q.k) = q.data ∧ (∀ n, n ≠ d.row + q.k → (u.tile t).row n = (s.tile t).row n) ∧
          ∀ z, z ≠ t → u.tile z = s.tile z))

/-! ### Memory (11_memory_tiers.md) -/

/-- Bytes written are read back, and every other byte of memory reads as before. -/
def Rules.MemoryWritesChangeTheirBytesOnly : Prop :=
  ∀ (m : Mem) (pa : Nat) (b : List Byte) (a : Nat), m.bytes.wf = true →
    (pa ≤ a → a < pa + b.length → (m.write pa b).byte a = b.getD (a - pa) 0) ∧
    (a < pa ∨ pa + b.length ≤ a → (m.write pa b).byte a = m.byte a)

/-- A page that is marked reads zero, whatever was there, undefined contents too; every other page reads as before. -/
def Rules.MarkedPagesReadZero : Prop :=
  ∀ (m : Mem) (page a : Nat),
    (pageOf a = page → m.bytes.wf = true → (m.mark page).byte a = 0) ∧
    (pageOf a ≠ page → m.bytes.wf = true → (m.mark page).byte a = m.byte a) ∧ (m.mark page).marked page = true

/-- Memory reads what was written, a marked page reads zero, and a write changes its bytes only. -/
def Obligations.MemoryReadsWhatWasWritten : Prop := Rules.MemoryWritesChangeTheirBytesOnly ∧ Rules.MarkedPagesReadZero

/-- A translation that succeeds is cached: the same access then gives the same address and changes nothing; a hit is not
counted, a miss is. -/
def Rules.TranslationsAreCached : Prop :=
  ∀ (s u : State) (r : RegionId) (va kind pa : Nat), s.translate r va kind = (.ok pa, u) →
    u.translate r va kind = (.ok pa, u) ∧ pa % 0x200000 = va % 0x200000 ∧ (u.region r).ownsAddr (pa / 0x200000 * 0x200000) = true ∧
    (u = s ∨ (u.region r).mem.miss = Word.satAdd (s.region r).mem.miss 1) ∧ u.mem = s.mem ∧ u.tiles = s.tiles

/-- PAGE_WALK: the pages of a DMA are translated all, or the first failure latches WALK_VA, ends the DMA and is charged to
its tile; the walk of an engine does the same with no tile; for a halted region nothing is walked. -/
def Rules.WalksTranslateOrFault : Prop :=
  ∀ (s : State) (r : RegionId),
    (∀ va kind : Nat, ∀ pa u, s.translate r va kind = (.ok pa, u) → s.engineWalk r va kind = (some pa, u)) ∧
    (∀ va kind : Nat, ∀ code detail u, s.translate r va kind = (.fault code detail, u) →
      s.engineWalk r va kind = (none, (u.latchWalk r va code).raise r none none code detail)) ∧
    ((s.region r).brake.halted = true → ∀ va kind, exec (.pageWalk (.engine r va kind)) s = .next s) ∧
    ((s.region r).brake.halted = false → ∀ (va : BitVec 48) (kind : BitVec 2),
      exec (.pageWalk (.engine r va kind)) s = .next (s.engineWalk r va.toNat kind.toNat).2) ∧
    (∀ t id d, s.regionOf t = some r → (s.region r).brake.halted = false → (s.tile t).dmas.find? (fun e => e.id == id) = some d →
      (∀ pas, d.pas = some pas → exec (.pageWalk (.tileDma t id)) s = .next s) ∧
      (d.pas = none → ∀ pas u, translateAll r d.op.kind d.vas s = ((pas, none), u) →
        exec (.pageWalk (.tileDma t id)) s = .next (u.modDma t id (fun e => some { e with pas := some pas }))) ∧
      (d.pas = none → ∀ pas va code detail u, translateAll r d.op.kind d.vas s = ((pas, some (va, code, detail)), u) →
        exec (.pageWalk (.tileDma t id)) s =
          .next (((u.latchWalk r va code).modDma t id (fun _ => none)).raise r (some t) (some (.x, d.pc)) code detail)))

/-- A translation is cached; a walk translates every page of a request or faults. -/
def Obligations.TranslationsWalkAndAreCached : Prop := Rules.TranslationsAreCached ∧ Rules.WalksTranslateOrFault

/-- DMA_COMPLETE and SCOREBOARD_CLEAR: a translated DMA with no earlier one in its way takes its rows from memory, writes
them, accumulates them or zeroes its range, and signals; a poisoned line ends it with MEM_UE. Once its free bank cycles have come, and
not before, the rows of a load go to tile memory and its entries clear; a store's rows are taken and its entries clear, or a poisoned
word of them ends it with TMEM_POISON. -/
def Rules.DmasMoveTheirRows : Prop :=
  ∀ (s : State) (t : TileId) (r : RegionId) (d : Dma), s.between t = some r →
    let x := s.tile t
    let gone (u : State) : State := u.modDma t d.id (fun _ => none)
    x.dmas.find? (fun e => e.id == d.id) = some d →
    (∀ pas, d.pas = some pas → x.earlier d = false → (s.region r).brake.haltFrozen = false →
      (∀ n, d.staleUnit s = some n → (d.op = .rd → d.data = none) →
        exec (.dmaComplete t d.id) s = .next ((gone s).raise r (some t) (some (.x, d.pc)) fStaleUnit n)) ∧
      (d.staleUnit s = none →
        (d.op = .rd → d.data = none → (dmaRows s.mem pas).1 = none →
          exec (.dmaComplete t d.id) s =
            .next (dmaSignal r t d (s.modDma t d.id (fun e => some { e with data := some (pas.map s.mem.readRow) })))) ∧
        (∀ l, d.op = .rd → d.data = none → (dmaRows s.mem pas).1 = some l →
          exec (.dmaComplete t d.id) s = .next ((gone s).raise r (some t) (some (.x, d.pc)) fMemUe l)) ∧
        (∀ rows, d.op = .wr → d.data = some rows →
          exec (.dmaComplete t d.id) s = .next (dmaSignal r t d (gone { s with
            mem := (pas.zip rows).foldl (fun m q => m.write q.1 (rowBytes q.2)) s.mem }))) ∧
        (∀ rows u, d.op = .acc → d.data = some rows → accRows r (drBf16 d.dr) (pas.zip rows) s = (none, u) →
          exec (.dmaComplete t d.id) s = .next (dmaSignal r t d (gone u))) ∧
        (d.op = .zf →
          exec (.dmaComplete t d.id) s = .next ((dmaSignal r t d (gone { s with
            mem := pas.zipIdx.foldl (fun m q => m.zero q.1 (d.piece q.2)) s.mem })).noteClear r t)))) ∧
    (∀ (e : BitVec 4) en, x.sb.find e.toNat = some en → en.op = d.id →
      let v := dropOp t d.id s
      let taken := captureRows r t (some (.x, d.pc)) ((List.range d.n).map (fun k => d.row + k)) v
      (x.opGranted d.id = false → exec (.scoreboardClear t e) s = .next s) ∧
      (x.opGranted d.id = true →
        (∀ rows, d.op = .rd → d.data = some rows →
          exec (.scoreboardClear t e) s = .next (clearOp r t d.id (gone
            (rows.zipIdx.foldl (fun a q => a.writeFree t (d.row + q.2) q.1) v)))) ∧
        (d.op = .wr ∨ d.op = .acc → d.data = none → d.pas.isSome = true →
          (∀ rows u, taken = ((none, rows), u) →
            exec (.scoreboardClear t e) s = .next (clearOp r t d.id (u.modDma t d.id (fun c => some { c with data := some rows })))) ∧
          (∀ row word rows u, taken = ((some (row, word), rows), u) →
            exec (.scoreboardClear t e) s =
              .next ((gone u).raise r (some t) (some (.x, d.pc)) fTmemPoison (row + (word <<< 16)))))))

/-- A read or the patrol counts what it corrects, in the region's counter or the provider's; a failing read line is poisoned and
charged: to the DMA that reads it, which ends, else to the region that owns the channel; a retry that succeeds is counted. The patrol
poisons what it cannot correct; the sweep clears a page's mark; a memory over its temperature is throttled once with OVER_LIMIT until
it recovers. -/
def Rules.MemoryErrorsAndSweeps : Prop :=
  ∀ (s : State) (addr : BitVec 40), (chanOf addr.toNat).isSome = true →
    let bad : State := { s with
      mem := s.mem.poisonLine (addr.toNat / 64) }
    (∀ r, s.chanOwner addr.toNat = some r →
      let counted : State := s.modRegion r (fun g => { g with mem := { g.mem with ce := Word.satAdd g.mem.ce 1 } })
      (∀ t, exec (.memReadRetry addr true t .uncorrectable) s =
        .next (s.modRegion r (fun g => { g with mem := { g.mem with retry := Word.satAdd g.mem.retry 1 } }))) ∧
      exec (.memReadRetry addr false none .uncorrectable) s = .next (bad.raise r none none fMemUe addr.toNat) ∧
      (∀ ok t, exec (.memReadRetry addr ok t .corrected) s = .next counted) ∧
      exec (.patrolScrub addr .corrected) s = .next counted) ∧
    (s.chanOwner addr.toNat = none →
      let counted : State := { s with mem := { s.mem with provCe := Word.satAdd s.mem.provCe 1 } }
      (∀ ok t, exec (.memReadRetry addr ok t .corrected) s = .next counted) ∧
      (∀ t, exec (.memReadRetry addr true t .uncorrectable) s = .next s) ∧
      exec (.patrolScrub addr .corrected) s = .next counted) ∧
    (∀ (t : TileId) (r : RegionId) (d : Dma), s.regionOf t = some r →
      (s.tile t).dmas.find? (fun d => (d.pas.getD []).any (fun pa =>
        decide (pa / 64 ≤ addr.toNat / 64) && decide (addr.toNat / 64 < (pa + 512) / 64))) = some d →
      exec (.memReadRetry addr false (some t) .uncorrectable) s =
        .next ((bad.modDma t d.id (fun _ => none)).raise r (some t) (some (.x, d.pc)) fMemUe addr.toNat)) ∧
    (∀ ok t, exec (.memReadRetry addr ok t .clean) s = .next s) ∧
    exec (.patrolScrub addr .clean) s = .next s ∧ exec (.patrolScrub addr .uncorrectable) s = .next bad ∧
    (bad.mem.poisonedAt (addr.toNat / 64 * 64) 64 = some (addr.toNat / 64 * 64)) ∧
    (∀ page : BitVec 19, (chanOf (page.toNat * 0x200000)).isSome = true →
      exec (.zeroSweep page) s = .next { s with mem := s.mem.touch page.toNat } ∧ (s.mem.touch page.toNat).marked page.toNat = false ∧
      ∀ a, (s.mem.touch page.toNat).byte a = s.mem.byte a) ∧
    (∀ m, memUnitNo m ∉ s.power.throttled →
      exec (.memTempOver m) s = .next (({ s with power := { s.power with throttled := memUnitNo m :: s.power.throttled } }).hubEvent 2)) ∧
    (∀ m, exec (.memTempRecover m) s =
      .next { s with power := { s.power with throttled := s.power.throttled.filter (fun k => k ≠ memUnitNo m) } })

/-- A DMA moves its rows; failing lines, sweeps and hot memories are handled. -/
def Obligations.DmasMoveRowsAndErrorsAreHandled : Prop := Rules.DmasMoveTheirRows ∧ Rules.MemoryErrorsAndSweeps

/-! ### Units, the scrubber and code loads (01_fabric_and_frame.md, 02_tile.md) -/

/-- UNIT_RETURN: a unit comes back with the record it left with. One that differs from the present epoch of the region that claims
the unit is quarantined, with UNIT_STALE and, in a running region, fault 0x12; one that no region claims is parked. UNIT_RELOAD puts a
quarantined unit into service under the present epoch. -/
def Rules.UnitsAreComparedAndReloaded : Prop :=
  ∀ (s : State) (cls : BitVec 8) (idx : BitVec 16) (r owner : RegionId) (epoch : Word), 1 ≤ cls.toNat → cls.toNat ≤ 6 →
    let k (o : RegionId) : Nat := recordKey cls.toNat idx.toNat o
    let back : State := bringRecord (k owner) owner epoch s
    (s.claimants cls.toNat idx.toNat = [] →
      exec (.unitReturn cls idx owner epoch) s = .next (parkUnit (k owner) back) ∧ exec (.unitReload cls idx) s = .next s) ∧
    (s.claimants cls.toNat idx.toNat = [r] →
      let u := Tab.get UnitRec.reset s.units (k r)
      let e := (s.region r).epoch
      let apart : UnitRec := { Tab.get UnitRec.reset back.units (k r) with quarantined := true }
      let held : State := ({ back with units := back.units.put (k r) apart }).regionEvent r 2
      (cls.toNat = 1 → owner ≠ r → exec (.unitReturn cls idx owner epoch) s = .next (parkUnit (k owner) back)) ∧
      (owner = r → epoch = e → exec (.unitReturn cls idx owner epoch) s = .next back) ∧
      ((cls.toNat = 1 → owner = r) → ¬ (owner = r ∧ epoch = e) →
        ((s.region r).st ≠ .granted → exec (.unitReturn cls idx owner epoch) s = .next held) ∧
        ((s.region r).st = .granted → (s.region r).brake.halted = false →
          exec (.unitReturn cls idx owner epoch) s = .next (held.raise r none none fStaleUnit (cls.toNat + (idx.toNat <<< 8))))) ∧
      (u.quarantined = true → exec (.unitReload cls idx) s =
        .next { s with units := s.units.put (k r) { owner := some r, epoch := e, quarantined := false } }) ∧
      (u.quarantined = false → exec (.unitReload cls idx) s = .next s))

/-- SCRUB_PASS_START: a pass begins when 2^29 cy of the release of the tiles have gone by for each before it, and not sooner. The walk
reads one row of each bank a window. SCRUB_WINDOW records the upsets that struck, of which a second one in a word or a half-bundle makes
it a double error; at the end of a window in which a bank with a row to walk had no cycle it counts LATE. A write-back leaves the row without its
single errors. -/
def Obligations.TheScrubberWalksAndWritesBack : Prop :=
  ∀ (s : State) (t : TileId),
    (∀ w, s.tilesAt = some w →
      (s.scrubPass * 2 ^ 29 ≤ s.wall - w → exec .scrubPassStart s = .next { s with scrubPass := s.scrubPass + 1 }) ∧
      (s.wall - w < s.scrubPass * 2 ^ 29 → exec .scrubPassStart s = .next s)) ∧
    (s.tilesAt = none → exec .scrubPassStart s = .next s) ∧
    (∀ (h : TileHw) (pass win b : Nat), h.pass ≠ pass → pass ≠ 0 →
      (win < 192 → h.walkRow pass win b = some (4 * win + b)) ∧ (192 ≤ win → h.walkRow pass win b = none)) ∧
    (∀ tm pm, s.windowOver t = false →
      exec (.scrubWindow t tm pm) s = .next (s.modTile t (fun x => x.struck tm pm))) ∧
    (∀ (x : Tile) (row : BitVec 10) (word : BitVec 6), row.toNat < 768 →
      (row.toNat, word.toNat, true) ∈ (x.struck [⟨row, word, false⟩, ⟨row, word, false⟩] []).upsets) ∧
    (∀ (x : Tile) (n : BitVec 11) (high : Bool),
      (n.toNat, high, true) ∈ (x.struck [] [⟨n, high, false⟩, ⟨n, high, false⟩]).pmUpsets) ∧
    (s.windowOver t = true → (s.tileHw t).window ≠ 0 → (s.tileHw t).window + 1 = s.windowNo →
      ∃ u : State, exec (.scrubWindow t [] []) s = .next u ∧ (u.tileHw t).window = s.windowNo ∧ u.mem = s.mem ∧ u.objs = s.objs ∧
        (u.tile t).tm = (s.tile t).tm ∧
        (s.starvedBanks t (s.windowNo - 1) = [] → (u.tileHw t).late = (s.tileHw t).late) ∧
        (s.starvedBanks t (s.windowNo - 1) ≠ [] →
          (u.tileHw t).late = if (s.tileHw t).late = 0xFFFF then 0xFFFF else (s.tileHw t).late + 1)) ∧
    (∀ row, (s.tileHw t).wb = some row →
      let u := rewriteRow t s
      (u.tileHw t).wb = none ∧ (u.tile t).upsets = (s.tile t).upsets.filter (fun e => !(e.1 == row && !e.2.2)) ∧
        (u.tile t).tm = (s.tile t).tm ∧ u.mem = s.mem)

/-- CODE_LOAD_BLOCK: the block fetched for a tile that may take it is written to its program memory; the last one arrives at
the descriptor's barrier; a tile that may not take it faults CODELOAD. -/
def Rules.CodeBlocksAreDelivered : Prop :=
  ∀ (s u : State) (r : RegionId) (slot : BitVec 6) (t : TileId) (q : Loading) (b : Nat) (rest : List (Nat × TileId)) (pa : Nat),
    (s.region r).running.find slot.toNat = some q → q.left = (b, t) :: rest → (s.region r).brake.haltFrozen = false →
    s.engineWalk r (q.desc.src.toNat + 512 * (b - q.desc.block0)) kRead = (some pa, u) →
    u.mem.poisonedAt pa 512 = none → u.staleAt pa = none →
    let w : State := u.modTile t (fun x => x.writeBlock b (u.mem.readRow pa))
    ((s.tile t).takesCode q.desc.obj = true →
      (rest ≠ [] → exec (.codeLoadBlock r slot t) s =
        .next (w.modRegion r (fun g => { g with running := g.running.put slot.toNat { q with left := rest } }))) ∧
      (rest = [] → q.again = false → exec (.codeLoadBlock r slot t) s = .next (endDesc r slot.toNat q.desc w))) ∧
    ((s.tile t).takesCode q.desc.obj = false → exec (.codeLoadBlock r slot t) s = .next (u.raise r (some t) none fCodeload b))

/-- Stale units are quarantined and reloaded; code blocks reach tiles that may take them. -/
def Obligations.UnitsAndCodeBlocksAreChecked : Prop := Rules.UnitsAreComparedAndReloaded ∧ Rules.CodeBlocksAreDelivered

/-! ### Completions of the array and the vector engine (05_matrix_array.md, 07_vector_engine.md) -/

/-- A pass updates cell (i, j) with group g of its steps, which the array takes in the operand cycles up to
O + (g + 1) P − 1, so that the cell holds the update 3 + i + j cycles after the last of them, each cell once for each group. -/
def Rules.CellsTakeTheirGroups : Prop :=
  ∀ (p : Pass) (rows c i j g : Nat),
    (i, j, g) ∈ p.updates rows c ↔
      i < rows ∧ j < 32 ∧ g < mdGroups p.md ∧ c + 1 = p.first + (g + 1) * mdPeriod p.md - 1 + i + j + 3

/-- MATRIX_PASS_COMPLETE, DRAIN_COMPLETE, VECTOR_JOB_END and ASYNC_JOB_COMPLETE: at the cycle the schedule gives, and not
before, a pass, a drain or a job is over, and drains and jobs count; an asynchronous job runs once its bank cycles have been given, and
its entries clear. -/
def Rules.UnitsEndTheirWork : Prop :=
  ∀ (s : State) (t : TileId) (r : RegionId), s.moving t = some r →
    let x := s.tile t
    let now := (s.region r).cycle
    let rows := gearRows ((s.region r).gear t)
    (∀ p, x.matrix.passes = [p] →
      (now < p.first + p.cycles + rows + 32 → exec (.matrixPassComplete t) s = .next (s.setTile t x)) ∧
      (p.first + p.cycles + rows + 32 ≤ now →
        exec (.matrixPassComplete t) s = .next (s.setTile t { x with matrix := { x.matrix with passes := [] } }))) ∧
    (∀ d, x.matrix.drains = [d] → d.noted = false →
      (now < d.job.ends → exec (.drainComplete t) s = .next (s.setTile t x)) ∧
      (d.job.ends ≤ now → exec (.drainComplete t) s =
        .next (s.setTile t (({ x with matrix := { x.matrix with drains := [{ d with noted := true }] } } : Tile).jobOver d.job)))) ∧
    (∀ j, x.vec.jobs = [j] →
      (now < j.ends → exec (.vectorJobEnd t) s = .next (s.setTile t x)) ∧
      (j.ends ≤ now → exec (.vectorJobEnd t) s =
        .next (s.setTile t (({ x with vec := { x.vec with jobs := [] } } : Tile).jobOver j)))) ∧
    (∀ j, x.vec.asyncs[0]? = some j →
      let gone (u : State) : State := u.modTile t (fun y =>
        { y.dropReq (.async j.op) with vec := { y.vec with asyncs := y.vec.asyncs.filter (fun c => c.op ≠ j.op) } })
      (x.granted (.async j.op) = false → exec (.asyncJobComplete t 0) s = .next s) ∧
      (x.granted (.async j.op) = true →
        (∀ jb u, asyncRun r t j s = (jb, none, u) →
          exec (.asyncJobComplete t 0) s =
            .next ((feedPort r t 4 64 ((gone u).modTile t (fun y => (y.jobOver jb).release j.op))).noteClear r t)) ∧
        (∀ jb c e u, asyncRun r t j s = (jb, some (c, e), u) →
          exec (.asyncJobComplete t 0) s = .next ((gone u).raise r (some t) (some (.v, j.setup.pc)) c e))))

/-- Cells take their groups in their cycles; passes, drains and jobs end in theirs. -/
def Obligations.PassesDrainsAndJobsComplete : Prop := Rules.CellsTakeTheirGroups ∧ Rules.UnitsEndTheirWork

/-! ### Links (12_links_and_cadence.md) -/

/-- A flit as built from its fields decodes to them, and a DATA flit is good by its CRC and its zero fields: no field of the
layout overlaps another or is dropped. -/
def Obligations.FlitsDecodeAsBuilt : Prop :=
  ∀ type vl seq ack payload : Nat, type < 4 → vl < 256 → seq < 4096 → ack < 65536 → payload < 2 ^ 1952 →
    let f := mkFlit type vl seq ack payload
    flType f = type ∧ flVl f = vl ∧ (flSeq f).toNat = seq ∧ (flAck f).toNat = ack % 4096 ∧ flNak f = decide (32768 ≤ ack) ∧
    flPayload f = leBytes 244 payload ∧ flAt f 252 4 = crc32c (leBytes 252 (f.toNat % 2 ^ 2016)) ∧
    (type = tData → vl < 8 → flGood tData f false = true) ∧ (∀ ue, (flGood tData f ue = true → type = tData ∧ ue = false))

/-- FRAME_SLOT_SEND: a port that is not running sends nothing; slot 0 of the 65 carries CTRL; a flit asked for again goes
before a new one, with the present ACK; with 512 flits kept HOLD goes; a lane of an UP port sends the next 244 bytes it has
under the next SEQ; a row of a frozen region's tiles stays where it stands; a port that may not send data sends IDLE under the next
SEQ. -/
def Obligations.SlotsSendTheirFlit : Prop :=
  ∀ (s : State) (p : PortId) (frac : BitVec 10),
    let x := s.port p
    let y : Port := { x with slot := (x.slot + 1) % 65 }
    let sent (q : Port) : Prop := ∃ u : State, exec (.frameSlotSend p frac) s = .next u ∧ u.port p = q ∧
      u.regions = s.regions ∧ u.tiles = s.tiles ∧ u.mem = s.mem ∧ ∀ k, k ≠ p → u.port k = s.port k
    let kept (f : Flit) (q : Port) : Port := ({ q with buf := x.buf ++ [(x.txSeq, f)], txSeq := x.txSeq + 1 } : Port).send f
    (x.running = false → exec (.frameSlotSend p frac) s = .next s) ∧
    (x.running = true →
      (x.slot = 0 → exec (.frameSlotSend p frac) s = .next (sendCtrl p frac (s.setPort p y)) ∧
        flType ((sendCtrl p frac (s.setPort p y)).port p).sentFlit = tCtrl) ∧
      (x.slot ≠ 0 →
        (∀ q f rest, x.resend = (q, f) :: rest →
          sent (({ y with resend := rest } : Port).send (mkFlit (flType f) (flVl f) q.toNat x.ackField (flAt f 8 244)))) ∧
        (x.resend = [] → 512 ≤ x.buf.length → sent (y.send (mkFlit tHold 0 0 x.ackField 0))) ∧
        (x.resend = [] → x.buf.length < 512 →
          (x.st ≠ .up ∨ s.resets.warm = true → sent (kept (mkFlit tIdle 0 x.txSeq.toNat x.ackField 0) y)) ∧
          (∀ v : Lane, x.st = .up → s.resets.warm = false →
            slotLane ((s.frame.vlShare.drop (8 * p.toNat)).take 8) (x.slot - 1) 0 8 = some v →
            (s.partHeld p v = false → 244 ≤ (x.lane v).part.length →
              sent (kept (mkFlit tData v.toNat x.txSeq.toNat x.ackField (leNat ((x.lane v).part.take 244)))
                { y with lanes := x.lanes.put v.toNat { x.lane v with part := (x.lane v).part.drop 244 } })) ∧
            (s.partHeld p v = true → (x.lane v).part ≠ [] → sent (kept (mkFlit tIdle 0 x.txSeq.toNat x.ackField 0) y))))))

/-- A good sequenced flit with the expected SEQ is accepted and its ACK taken; a bad one sets NAK, as does one out of order.
HOLD and CTRL carry no SEQ; a bad one changes nothing but what the correction of its codewords counts. -/
def Rules.FlitsAreCheckedOnReceipt : Prop :=
  ∀ (s : State) (p : PortId) (f : Flit) (errs : List (BitVec 10)),
    let x := s.port p
    let ue := (x.takeFec errs s.beats).1
    let y := (x.takeFec errs s.beats).2
    let set (q : Port) : State := s.setPort p q
    (x.running = false → ∀ frac, exec (.dataFlit p f errs) s = .next s ∧ exec (.idleFlit p f errs) s = .next s ∧
      exec (.holdFlit p f errs) s = .next s ∧ exec (.ctrlFlit p f errs frac) s = .next s) ∧
    (x.running = true →
      (flGood tIdle f ue = true → flSeq f = (takeAck f s.beats y).rxSeq →
        exec (.idleFlit p f errs) s = .next (set { takeAck f s.beats y with rxSeq := (takeAck f s.beats y).rxSeq + 1, nak := false })) ∧
      (flGood tIdle f ue = true → flSeq f ≠ (takeAck f s.beats y).rxSeq →
        exec (.idleFlit p f errs) s = .next (set { takeAck f s.beats y with nak := true })) ∧
      (flGood tIdle f ue = false → exec (.idleFlit p f errs) s = .next (set { y with nak := true })) ∧
      (flGood tData f ue = true → flSeq f = (takeAck f s.beats y).rxSeq →
        exec (.dataFlit p f errs) s =
          .next (rxContent p f (set { takeAck f s.beats y with rxSeq := (takeAck f s.beats y).rxSeq + 1, nak := false }))) ∧
      (flGood tData f ue = false → exec (.dataFlit p f errs) s = .next (set { y with nak := true })) ∧
      (flGood tHold f ue = true → exec (.holdFlit p f errs) s = .next (set (takeAck f s.beats y))) ∧
      (flGood tHold f ue = false → exec (.holdFlit p f errs) s = .next (set y)) ∧
      (∀ frac, flGood tCtrl f ue = false → exec (.ctrlFlit p f errs frac) s = .next (set y)) ∧
      (∀ frac, flGood tCtrl f ue = true → Word.bit f 320 = false → s.frame.source ≠ 1 →
        exec (.ctrlFlit p f errs frac) s = .next (set { takeCredit f (takeAck f s.beats y) with
          peer := some (BitVec.ofNat 64 (flAt f 0x48 8), s.steadyNow frac) })))

/-- An ACK releases the flits before it and no other; every NAK counts a replay; one with no resend waiting has every kept flit
sent again, and counts how often that SEQ was asked for. -/
def Rules.AcknowledgementsReleaseFlits : Prop :=
  ∀ (f : Flit) (beats : Nat) (x : Port),
    let y := takeAck f beats x
    y.buf = x.buf.filter (fun e => !seqBefore e.1 (flAck f)) ∧ y.rxSeq = x.rxSeq ∧ y.txSeq = x.txSeq ∧ y.st = x.st ∧
    (flNak f = false → y.replays = x.replays ∧ y.resend = x.resend.filter (fun e => !seqBefore e.1 (flAck f))) ∧
    (flNak f = true → y.replays = Word.satAdd x.replays 1) ∧
    (flNak f = true → x.resend = [] →
      y.resend = y.buf ∧ y.nakSeq = some (flAck f) ∧
      (x.nakSeq = some (flAck f) → y.nakCount = x.nakCount + 1 ∧ y.replayAt = x.replayAt) ∧
      (x.nakSeq ≠ some (flAck f) → y.nakCount = 1 ∧ y.replayAt = some beats))

/-- The fifth flit of a pair completes two codewords of 544 symbols, whose symbols go round-robin over the active lanes. A received
codeword with up to 15 wrong symbols is corrected and they are counted; one with more is uncorrectable and counted; the first codeword of
a pair touches the pair's first three flits, the second the last three. -/
def Rules.CodewordsAreSentAndCorrected : Prop :=
  (∀ (x : Port) (f : Flit),
    (x.txPair.length < 4 → (x.send f).txPair = x.txPair ++ [f] ∧ (x.send f).wire = x.wire) ∧
    (x.txPair.length = 4 → (x.send f).txPair = [] ∧
      (x.send f).wire = dealt x.activeLanes.length (codewordPair x.activeLanes.length (x.txPair ++ [f])))) ∧
  (∀ (second : Bool) (lanes : Nat) (bytes : List Byte), (codeword second lanes bytes).length = 544) ∧
  (∀ (n j i : Nat) (syms : List Sym), j < n → ((dealt n syms).getD j [])[i]? = syms[i * n + j]?) ∧
  (∀ (x : Port) (errs : List Sym) (beats : Nat),
    let e := (errPositions errs).length
    let q := x.takeFec errs beats
    q.2.rxPos = (x.rxPos + 1) % 5 ∧
    (x.rxPos = 0 ∨ x.rxPos = 2 →
      (e ≤ 15 → q.2.fecCe = Word.satAdd x.fecCe e ∧ q.2.fecUe = x.fecUe ∧
        q.1 = (decide (x.rxPos = 2) && x.cwBad.getLsbD 0)) ∧
      (15 < e → q.2.fecCe = x.fecCe ∧ q.2.fecUe = Word.satAdd x.fecUe 1 ∧ q.1 = true)) ∧
    (x.rxPos ≠ 0 → x.rxPos ≠ 2 → q.2.fecCe = x.fecCe ∧ q.2.fecUe = x.fecUe ∧ q.2.cwBad = x.cwBad ∧
      q.1 = (if x.rxPos ≤ 2 then x.cwBad.getLsbD 0 else x.cwBad.getLsbD 1)))

/-- Codewords are sent and corrected; received flits are checked in order; an ACK releases, a NAK has flits sent again. -/
def Obligations.FlitsAreCheckedAndAcknowledged : Prop :=
  Rules.FlitsAreCheckedOnReceipt ∧ Rules.AcknowledgementsReleaseFlits ∧ Rules.CodewordsAreSentAndCorrected

/-- Faults of a link: 8 NAKs of one SEQ or 250 beats without delivery retrain it; a lane lost, or that took part in more than 16
uncorrectable codewords within 1,024 beats, retrains it without the lane, or fails it below two lanes; training ends in UP or HOLD with the kept flits to send again; training
past 3,750 beats and a hello missed for 4,096 beats fail the port. -/
def Rules.LinkFaultsRetrainOrFail : Prop :=
  ∀ (s : State) (p : PortId),
    let x := s.port p
    let lost (lane : BitVec 2) : State :=
      (s.setPort p { x with lanesOk := x.lanesOk &&& ~~~(1#4 <<< lane.toNat) }).portEvent p 0
    let bad (lane : BitVec 2) : Nat := (x.ueLog.filter (fun q => decide (s.beats < q.1 + 1024) && q.2.getLsbD lane.toNat)).length
    (x.running = true → (8 ≤ x.nakCount ∨ ∃ b, x.replayAt = some b ∧ b + 250 ≤ s.beats) →
      exec (.replayTimeout p) s = .next (startTraining p s)) ∧
    (x.nakCount < 8 → x.replayAt = none → exec (.replayTimeout p) s = .next s) ∧
    (∀ lane, x.running = true → x.lanesOk.getLsbD lane.toNat = true →
      (2 ≤ popCount (x.lanesOk &&& ~~~(1#4 <<< lane.toNat)).toNat 4 →
        exec (.laneSignalLoss p lane) s = .next (startTraining p (lost lane)) ∧
        (16 < bad lane → exec (.laneUeThreshold p lane) s = .next (startTraining p (lost lane)))) ∧
      (popCount (x.lanesOk &&& ~~~(1#4 <<< lane.toNat)).toNat 4 < 2 →
        exec (.laneSignalLoss p lane) s = .next (failPort p (lost lane)) ∧
        (16 < bad lane → exec (.laneUeThreshold p lane) s = .next (failPort p (lost lane))))) ∧
    (∀ lane, bad lane ≤ 16 → exec (.laneUeThreshold p lane) s = .next s) ∧
    (x.st = .training → x.full = true →
      let trained : State := s.setPort p { x with lanesOk := 0xF, full := false, resend := x.buf, lastHello := s.beats }
      exec (.linkTrainingDone p 0) s = .next (enterChecked p trained) ∧
      (∀ bad : BitVec 4, popCount (0xF#4 &&& ~~~bad).toNat 4 < 2 →
        exec (.linkTrainingDone p bad) s =
          .next (failPort p ((s.setPort p { x with lanesOk := 0xF#4 &&& ~~~bad, full := false, resend := x.buf, lastHello := s.beats }).portEvent p 0)))) ∧
    (x.st = .training → x.trainAt + 3750 ≤ s.beats → exec (.trainingTimeout p) s = .next (failPort p s)) ∧
    (x.st = .training → s.beats < x.trainAt + 3750 → exec (.trainingTimeout p) s = .next s) ∧
    (x.running = true → x.lastHello + 4096 ≤ s.beats → exec (.helloTimeout p) s = .next (failPort p s)) ∧
    (x.running = true → s.beats < x.lastHello + 4096 → exec (.helloTimeout p) s = .next s)

/-- Entering FAILED empties the port's buffers, the region's gate buffers on it and the rows that wait from it, with the
event; no byte of tile memory or of external memory changes. -/
def Rules.FailedPortsAreEmptied : Prop :=
  ∀ (s : State) (p : PortId) (r : RegionId) (t : TileId),
    let u := failPort p s
    (u.port p).st = .failed ∧ (u.port p).buf = [] ∧ (u.port p).resend = [] ∧ (u.port p).lanes = [] ∧ (u.port p).txSeq = 0 ∧
    (u.port p).rxSeq = 0 ∧ (u.port p).evt = (s.port p).evt.event 1 ∧ (∀ q, q ≠ p → u.port q = s.port q) ∧
    ((∃ v, (s.region r).lane p = some v) →
      Tab.get [] (u.region r).gateOut p.toNat = [] ∧ ∀ e ∈ (u.region r).inRows, e.port = p → e.decl.isSome = true) ∧
    (u.tile t).tm = (s.tile t).tm ∧ (∀ d ∈ (u.tile t).exch.decls, d.port = some p → d.complete = true) ∧ u.mem = s.mem

/-- Link faults retrain or fail a port; a failed port is emptied. -/
def Obligations.LinkFaultsRetrainOrEmptyThePort : Prop := Rules.LinkFaultsRetrainOrFail ∧ Rules.FailedPortsAreEmptied

/-! ### Transactions received (12_links_and_cadence.md) -/

/-- The oldest transaction of a lane is taken off it, once no row before it waits to be written: one that no granted, running region
of the lane may take, or that a quarantined lane brings, is discarded and counted with its space freed; a row waits for its
declaration; writes and accumulations go to translated memory; a signal or a barrier message acts on the region's object, or is
misuse; a tag that differs faults; MEM_REJ is counted. -/
def Obligations.TransactionsActOnTheirRegion : Prop :=
  ∀ (s : State) (p : PortId) (v : Lane) (t : Txn) (rest : List Txn), ((s.port p).lane v).rxq = t :: rest →
    let a := popTxn p v s
    let o : BitVec 16 := BitVec.ofNat 16 (t.arg 0 16)
    let b (r : RegionId) : State := touch r o a
    let src := SigSrc.remote t.sdev p
    let freed (u : State) : State := freeUnits p v t.units u
    let gone : Host.Outcome State Fault Refusal := .next (dropTxn p v t a)
    (s.laneWaits p v = true → exec (.memWr p v) s = .next s ∧ exec (.sig p v) s = .next s ∧ exec (.rowWr p v) s = .next s) ∧
    (s.stale 6 (laneUnit p v) = true → s.admits p v t = none) ∧
    (s.laneWaits p v = false → s.admits p v t = none →
      (t.code = 1 → exec (.rowWr p v) s = gone) ∧ (t.code = 2 → exec (.memWr p v) s = gone) ∧
      (t.code = 3 → exec (.memAcc p v) s = gone) ∧ (t.code = 4 → exec (.sig p v) s = gone) ∧
      (t.code = 5 → exec (.barArr p v) s = gone) ∧ (t.code = 6 → exec (.barRel p v) s = gone) ∧
      (t.code = 7 → exec (.barAbort p v) s = gone) ∧ (t.code = 8 → exec (.memRej p v) s = gone)) ∧
    (∀ r, s.laneWaits p v = false → s.admits p v t = some r →
      let owned := (s.region r).ownsObj o.toNat
      let fit := s.stale 2 (o.toNat / 256) = false
      (t.code = 1 → s.regionOf (BitVec.ofNat 13 (t.arg 0 13)) = some r →
        exec (.rowWr p v) s = .next (a.modRegion r (fun g => { g with inRows := g.inRows ++ [{
          tile := BitVec.ofNat 13 (t.arg 0 13), item := BitVec.ofNat 16 (t.arg 16 16), k := t.arg 32 16,
          data := BitVec.ofNat 4096 (leNat t.data), decl := none, port := p, dev := t.sdev,
          sig := if t.flags % 2 = 1 then some (BitVec.ofNat 16 (t.arg 48 16)) else none }] }))) ∧
      (∀ va pa u, va = t.arg 0 48 / 64 * 64 → va % 0x200000 + t.len ≤ 0x200000 →
        (t.code = 2 → a.translate r va kWrite = (.ok pa, u) → u.staleAt pa = none →
          exec (.memWr p v) s = .next (freed { u with mem := u.mem.write pa (t.data.take t.len) })) ∧
        (∀ w, t.code = 3 → a.translate r va kAcc = (.ok pa, u) → u.staleAt pa = none →
          u.accumulate r (t.flags % 2 == 1) pa (t.data.take t.len) = (none, w) → exec (.memAcc p v) s = .next (freed w)) ∧
        (∀ code detail, t.code = 2 → a.translate r va kWrite = (.fault code detail, u) →
          exec (.memWr p v) s = .next (freed (rejectMem r p t.sdev va kWrite code detail
            ((u.latchWalk r va code).raise r none none code detail))))) ∧
      (t.code = 4 → exec (.sig p v) s = .next (freed (if owned then landSignal r o src a else misuse r o src a))) ∧
      (t.code = 5 ∨ t.code = 6 → owned = false →
        (t.code = 5 → exec (.barArr p v) s = .next (freed (misuse r o src a))) ∧
        (t.code = 6 → exec (.barRel p v) s = .next (freed (misuse r o src a)))) ∧
      (owned = true → t.arg 32 32 ≠ (s.region r).tag.toNat →
        (t.code = 5 → exec (.barArr p v) s = .next (freed (tagFault r o (t.arg 32 32) a))) ∧
        (t.code = 6 → exec (.barRel p v) s = .next (freed (tagFault r o (t.arg 32 32) a)))) ∧
      (owned = true → t.arg 32 32 = (s.region r).tag.toNat →
        (t.code = 5 → fit → arriveRefused r o s = false → (s.obj o).children.length < 16 →
          exec (.barArr p v) s = .next (freed (arrive r o src none none ((b r).setObj o { s.obj o with
            children := (s.obj o).children ++ [{ port := p, dev := t.sdev, obj := BitVec.ofNat 16 (t.arg 16 16) }] })))) ∧
        (t.code = 6 → fit → (s.obj o).bar = true →
          exec (.barRel p v) s = .next (freed (releaseBarrier r o (s.region r).cycle ((b r).setObj o ((s.obj o).stamp s src))))) ∧
        (t.code = 6 → ¬ fit → exec (.barRel p v) s = .next (freed (a.raise r none none fStaleUnit (blockDetail o))))) ∧
      (t.code = 7 → exec (.barAbort p v) s = .next (freed (if owned then tagFault r o (t.arg 32 32) a else misuse r o src a))) ∧
      (t.code = 8 → exec (.memRej p v) s = .next (freed ((a.modRegion r (fun g =>
        { g with mem := { g.mem with rej := Word.satAdd g.mem.rej 1 } })).regionEvent r 3))))

/-! ### The derailleur and the freewheel (13_training_state.md, 15_checkpoint_restart.md) -/

/-- Moves of a derailleur run: data of the run's table lands in the scratch window, a DONE is noted for its port and round;
a move of another table ends the run with E_DIGEST, one outside the window with E_RANGE; a round of a second ends it with
E_TIMEOUT. -/
def Rules.DerailleurMovesLand : Prop :=
  ∀ (s : State) (p : PortId) (v : Lane) (t : Txn) (rest : List Txn) (r : RegionId), ((s.port p).lane v).rxq = t :: rest →
    s.laneWaits p v = false → s.admits p v t = some r → t.code = 9 → t.flags.testBit 1 = false →
    let a := popTxn p v s
    let d := (s.region r).drl
    let freed (u : State) : Host.Outcome State Fault Refusal := .next (freeUnits p v t.units u)
    (t.flags.testBit 0 = false →
      (d.strange t = true → exec (.drlMove p v) s = freed (drlDrop r eDigest a)) ∧
      (d.strange t = false → d.scrSize < t.arg 0 32 * 64 + t.len → exec (.drlMove p v) s = freed (drlDrop r eRange a)) ∧
      (d.strange t = false → t.arg 0 32 * 64 + t.len ≤ d.scrSize → t.len ≠ 0 → t.len % 64 = 0 →
        exec (.drlMove p v) s = freed { a with mem := a.mem.write (d.scrBase + t.arg 0 32 * 64) t.data })) ∧
    (t.flags.testBit 0 = true →
      (d.strange t = true → exec (.drlMoveDone p v) s = freed (drlDrop r eDigest a)) ∧
      (d.strange t = false → exec (.drlMoveDone p v) s = freed (drlProgress r (a.modRegion r (fun g =>
        { g with drl := { g.drl with dones := (p.toNat, t.arg 32 16) :: g.drl.dones } }))))) ∧
    (d.st = .running → d.since + 125000000 ≤ s.beats → exec (.drlRoundTimeout r) s = .next (drlEnd r eTimeout s)) ∧
    (d.st = .running → s.beats < d.since + 125000000 → exec (.drlRoundTimeout r) s = .next s)

/-- Moves of the freewheel: one that its region does not take is dropped and counted; mirror data lands in quarter 2 + BANK;
a DONE, an acknowledgement, a request, a reply and a refusal do what their kind says; 1,250,000 beats without a reply of
some channel end the command with E_NORES. -/
def Rules.FreewheelMovesLand : Prop :=
  ∀ (s : State) (p : PortId) (v : Lane) (t : Txn) (rest : List Txn) (r : RegionId), ((s.port p).lane v).rxq = t :: rest →
    s.laneWaits p v = false → s.admits p v t = some r → t.code = 9 → t.flags.testBit 1 = true → t.flags < 64 →
    let a := popTxn p v s
    let k := moveKind t.flags
    let takes := (s.region r).takesMove p t
    let freed (u : State) : Host.Outcome State Fault Refusal := .next (freeUnits p v t.units u)
    (takes = false →
      (k = .mirrorData → exec (.fwMirrorData p v) s = freed (fwDrop r a)) ∧
      (k = .restoreRequest → exec (.fwRestoreRequest p v) s = freed (fwDrop r a))) ∧
    (takes = true →
      (k = .mirrorData → exec (.fwMirrorData p v) s = freed (if t.dataOk then
        { a with mem := a.mem.write (quarterBase t.chan (2 + t.bank) + t.arg 0 32 * 64) t.data } else fwDrop r a)) ∧
      (k = .mirrorDone → exec (.fwMirrorDone p v) s = freed (mirrorDone r p t a)) ∧
      (k = .mirrorAck → exec (.fwMirrorAck p v) s = freed (mirrorAck r t a)) ∧
      (k = .restoreRequest → exec (.fwRestoreRequest p v) s = freed (answerRequest r p t a)) ∧
      (k = .restoreData → exec (.fwRestoreData p v) s = freed (restoreMove r t false a)) ∧
      (k = .restoreDone → exec (.fwRestoreDone p v) s = freed (restoreMove r t true a)) ∧
      (k = .restoreRefuse → (s.region r).fw.restore.isSome = true → exec (.fwRestoreRefuse p v) s = freed (fwFinish r eNores a)) ∧
      (k = .restoreRefuse → (s.region r).fw.restore = none → exec (.fwRestoreRefuse p v) s = freed (fwDrop r a))) ∧
    (∀ q, (s.region r).fw.restore = some q → q.silent ≠ [] →
      (q.since + 1250000 ≤ s.beats → exec (.restoreTimeout r) s = .next (fwFinish r eNores s)) ∧
      (s.beats < q.since + 1250000 → exec (.restoreTimeout r) s = .next s))

/-- Moves of the derailleur and the freewheel land in their windows. -/
def Obligations.StateMovesLand : Prop := Rules.DerailleurMovesLand ∧ Rules.FreewheelMovesLand

/-! ### Engines of a region (13_training_state.md, 15_checkpoint_restart.md) -/

/-- UPD_STEP_START and UPD_STEP_END: a step starts once START_OBJ was met, no derailleur runs and step s − 2 is committed, and
not before; it ends, with UPD_STEP one further and its signal at DONE_OBJ, unless an export still reads the bank. -/
def Rules.UpdateStepsRun : Prop :=
  ∀ (s : State) (r : RegionId), (s.region r).st = .granted → (s.region r).brake.halted = false →
    let g := s.region r
    (g.upd.phase = .waitStart → g.upd.startMet = true →
      (g.drl.st ≠ .running → g.commitMet = true → exec (.updStepStart r) s = .next (updStart r s)) ∧
      (g.drl.st = .running ∨ g.commitMet = false → exec (.updStepStart r) s = .next s)) ∧
    (g.upd.phase = .waitStart → g.upd.startMet = false → exec (.updStepStart r) s = .next s) ∧
    (g.upd.phase = .running →
      (g.exportHolds = true → exec (.updStepEnd r) s = .next s) ∧
      (g.exportHolds = false →
        (∀ u, overBlocks (updShard r g.upd.step.toNat) g.upd.blocks.zipIdx s = (none, u) →
          exec (.updStepEnd r) s = .next (updStep1 r (landSignal r g.upd.doneObj .engine (u.modRegion r (fun h =>
            { h with upd := { h.upd with step := h.upd.step + 1, doneBlocks := g.upd.blocks.length } }))))) ∧
        (∀ e u, overBlocks (updShard r g.upd.step.toNat) g.upd.blocks.zipIdx s = (some e, u) →
          exec (.updStepEnd r) s = .next (updTrouble r g.upd.step.toNat e u))))

/-- FW_MIRROR_START, FW_REMIRROR_START and FW_STALL: a mirror of the step that has ended begins when the step before it is
committed, a re-mirror when it is asked for; a mirror past its limit stalls once, with FW_EVT. -/
def Rules.MirrorsBeginAndStall : Prop :=
  ∀ (s : State) (r : RegionId),
    let g := s.region r
    (g.fwReady = true →
      (g.fw.remirror = false → g.fw.commitValid = true → g.fw.commitStep = g.upd.step - 2 →
        exec (.fwMirrorStart r) s = .next (fwMirror r false s)) ∧
      (g.fw.remirror = true ∨ g.fw.commitValid = false ∨ g.fw.commitStep ≠ g.upd.step - 2 → exec (.fwMirrorStart r) s = .next s) ∧
      (g.fw.remirror = true → g.upd.armed = true → g.fw.commitValid = false ∨ g.fw.commitStep = g.upd.step - 1 →
        exec (.fwRemirrorStart r) s = .next (fwMirror r true s))) ∧
    (g.fwReady = false → exec (.fwMirrorStart r) s = .next s ∧ exec (.fwRemirrorStart r) s = .next s) ∧
    (∀ b, g.fw.startBeat = some b → g.fw.st = .mirroring → g.fw.stalled = false →
      (b + g.fw.limit ≤ s.beats → exec (.fwStall r) s =
        .next ((s.setRegion r { g with fw := { g.fw with stalled := true } }).fwEvent r 0)) ∧
      (s.beats < b + g.fw.limit → exec (.fwStall r) s = .next s))

/-- EXPORT_START, EXPORT_RECORD and EXPORT_COMPLETE: the oldest due export, whose map is read and legal, begins with its records to
write; a map that cannot be read faults too; a record is written to the ring when it has room and EXP_HEAD moves past it; a ring whose
handle is freed takes none; the last record ends the export with EXP_DONE. -/
def Rules.ExportsWriteTheirRecords : Prop :=
  ∀ (s : State) (r : RegionId), (s.region r).brake.halted = false →
    let g := s.region r
    let x := g.exp
    (∀ w later, x.want = w :: later → x.running = false →
      let a : State := s.setRegion r { g with exp := { x with want := later } }
      (s.ringHeld x = false → exec (.exportStart r) s = .next (a.fwEvent r 3)) ∧
      (∀ e u, s.ringHeld x = true → a.readVa r x.mapVa.toNat (128 * g.upd.blocks.length) = (.error e, u) →
        exec (.exportStart r) s = .next (engineFault r e (u.fwEvent r 3))) ∧
      ∀ b u, s.ringHeld x = true → a.readVa r x.mapVa.toNat (128 * g.upd.blocks.length) = (.ok b, u) →
        let map := cutBlocks g.upd.blocks.length b
        ((g.upd.blocks.zip map).all (fun q => mapLegal q.1 q.2) = true → exec (.exportStart r) s =
          .next (u.modRegion r (fun h => { h with exp := { h.exp with
            running := true, cur := w.1, curBeat := w.2, map := map, left := exportPlan g.upd.blocks } }))) ∧
        ((g.upd.blocks.zip map).all (fun q => mapLegal q.1 q.2) = false → exec (.exportStart r) s = .next (u.fwEvent r 3))) ∧
    (∀ q rest, x.running = true → x.left = q :: rest → s.ringHeld x = false → exec (.exportRecord r) s = .next (endExport r s)) ∧
    (∀ i k rest data, x.running = true → x.left = (i, k) :: rest → k ≠ 7 → s.ringHeld x = true →
      s.readPa (quarterBase (blkChan (g.upd.blocks.getD i 0)) ((x.cur.toNat + 1) % 2) + blkArrayOff (g.upd.blocks.getD i 0) k)
        (4 * (blkArrays (g.upd.blocks.getD i 0)).getD k 0) = .ok data →
      let rec_ := recordHeader s r i k data ++ data ++ List.replicate (up64 data.length - data.length) 0
      let used := (x.head.toNat + x.size - x.tail.toNat % x.size) % x.size
      (x.size < used + rec_.length → exec (.exportRecord r) s = .next s) ∧
      (used + rec_.length ≤ x.size → exec (.exportRecord r) s =
        .next ((ringWrite x.base x.size x.head.toNat rec_ s).modRegion r (fun h => { h with exp := { h.exp with
          left := rest, head := BitVec.ofNat 32 ((x.head.toNat + rec_.length) % x.size) } })))) ∧
    (x.running = true → x.left = [] → exec (.exportComplete r) s =
      .next ((s.setRegion r { g with exp := { x with running := false, step := x.cur } }).fwEvent r 2))

/-- Update steps, mirrors and exports begin and end. -/
def Obligations.TrainingStepsRun : Prop := Rules.UpdateStepsRun ∧ Rules.MirrorsBeginAndStall ∧ Rules.ExportsWriteTheirRecords

/-! ### Cadence, power and parity (12_links_and_cadence.md, 17_host_interface.md, 18_reset_clocks_power.md) -/

/-- BEAT_BOUNDARY: once the beat has had its 10, 9, 8 or 7 cycles by the clock step, BEAT counts, and LAP when it wraps; every
region's brake counts its frozen beats; the beat of a multiple of 1,024 ends the power window and makes a hello due on every port.
Nothing else of a region, and no tile or byte, changes. -/
def Rules.BeatsAreCounted : Prop :=
  ∀ s : State,
    (s.wall < s.beatAt + (10 - s.power.cur.toNat) → exec .beatBoundary s = .next s) ∧
    (s.beatAt + (10 - s.power.cur.toNat) ≤ s.wall → s.hubRuns = false →
      exec .beatBoundary s = .next { s with beats := s.beats + 1, beatAt := s.wall }) ∧
    (s.beatAt + (10 - s.power.cur.toNat) ≤ s.wall → s.hubRuns = true → s.cadStopped = false →
    ∃ u : State, exec .beatBoundary s = .next u ∧ u.beatAt = s.wall ∧
      u.cad.beat = s.cad.beat + 1 ∧ u.cad.lap = (if s.cad.beat = 0xFFFFFFFFFFFF then s.cad.lap + 1 else s.cad.lap) ∧
      u.beats = s.beats + 1 ∧ u.tiles = s.tiles ∧ u.objs = s.objs ∧ u.mem = s.mem ∧ u.hub = s.hub ∧
      (∀ r, (u.region r).brake.run = (if (s.region r).brake.frozenAt s.wall then (s.region r).brake.run + 1 else 0) ∧
        (u.region r).brake.beats = (if (s.region r).brake.frozenAt s.wall || (s.region r).brake.limited then
          Word.satAdd (s.region r).brake.beats 1 else (s.region r).brake.beats) ∧
        (u.region r).cycle = (s.region r).cycle ∧ (u.region r).faults = (s.region r).faults) ∧
      (u.power.window = (if (s.cad.beat + 1).toNat % 1024 = 0 then 1 else s.power.window)) ∧
      ∀ p x, s.ports.find p = some x → ∃ y, u.ports.find p = some y ∧
        y = { x with helloDue := x.helloDue || decide ((s.cad.beat + 1).toNat % 1024 = 0) })

/-- CADENCE_LOAD_BEAT, CADENCE_LOSS and CADENCE_RECOVER: the value accepted last before a beat is loaded in it if the beat
qualifies, with LOCKED, and one accepted in the beat itself waits; the loss of a locked cadence raises HOLDOVER; its return ends
HOLDOVER, and beyond 4,096 beats unlocks with CAD_SLIP. -/
def Rules.TheCadenceLoadsAndHolds : Prop :=
  ∀ s : State,
    (∀ beat lap n old new, s.cad.pending = old ++ (beat, lap, n) :: new → n < s.beats → (∀ q ∈ new, s.beats ≤ q.2.2) →
      s.frame.loaded = true → s.frame.source ≠ 1 → s.cadStopped = false →
      (17 ≤ s.cad.edges → ∃ u : State, exec .cadenceLoadBeat s = .next u ∧
        u.cad.beat = beat ∧ u.cad.lap = lap ∧ u.cad.locked = true ∧ (∀ q, q ∈ u.cad.pending ↔ q ∈ s.cad.pending ∧ s.beats ≤ q.2.2) ∧
        u.tiles = s.tiles ∧ u.mem = s.mem) ∧
      (s.cad.edges < 17 → exec .cadenceLoadBeat s = .next s)) ∧
    ((∀ q ∈ s.cad.pending, s.beats ≤ q.2.2) → exec .cadenceLoadBeat s = .next s) ∧
    (s.frame.loaded = true → s.frame.source ≠ 1 → s.cad.holdover = false →
      (s.cad.locked = true → exec .cadenceLoss s =
        .next (({ s with cad := { s.cad with edges := 0, good := 0, holdover := true } }).cadEvent 0)) ∧
      (s.cad.locked = false → exec .cadenceLoss s = .next { s with cad := { s.cad with edges := 0, good := 0 } })) ∧
    (∀ err : BitVec 48, s.cad.holdover = true →
      ∃ u : State, exec (.cadenceRecover err) s = .next u ∧ u.cad.holdover = false ∧ u.cad.beat = s.cad.beat ∧
        u.cad.lap = s.cad.lap ∧ u.tiles = s.tiles ∧ u.regions = s.regions ∧ u.mem = s.mem ∧
        (err.toNat ≤ 4096 → u.cad.locked = s.cad.locked ∧ u.cad.evt = s.cad.evt) ∧
        (4096 < err.toNat → u.cad.locked = false ∧ u.cad.evt = s.cad.evt.event 1)) ∧
    (∀ err : BitVec 48, s.cad.holdover = false → exec (.cadenceRecover err) s = .next s)

/-- Beats are counted; the cadence loads, holds and recovers. -/
def Obligations.BeatsAndTheCadence : Prop := Rules.BeatsAreCounted ∧ Rules.TheCadenceLoadsAndHolds

/-- POWER_WINDOW, CLOCK_STEP_CHANGE and CLOCK_CEIL_EVENT: at the end of a window the sample stands in the registers and the
cap set in it holds, and the regulators are sent the setpoints of the step in force or of a faster one that is due; a window cut by a
load of the counters decides nothing; the step decided takes effect from beat 128 of the next window, a slower one with its lower
setpoints, and a ceiling in the first beat at or after its own. -/
def Rules.ThePowerManagerDecides : Prop :=
  ∀ s : State,
    (∀ p, s.power.window = 0 → exec (.powerWindow p) s = .next s) ∧
    (∀ p, s.power.window ≠ 0 →
      ∃ u : State, exec (.powerWindow p) s = .next u ∧ u.power.window = 0 ∧ u.power.skip = false ∧ u.power.cur = s.power.cur ∧
        u.power.cap = s.power.capNext.getD s.power.cap ∧ u.power.capNext = none ∧ u.tiles = s.tiles ∧ u.mem = s.mem ∧
        u.power.vset = u.setpointsAt (min (u.power.change.getD 3).toNat s.power.cur.toNat) ∧
        (s.power.skip = false → u.power.now = p.watts ∧ u.power.temps = sampleTemps p s.power.user ∧
          u.power.vcore = [p.v0, p.v1, p.v2, p.v3]) ∧
        (s.power.skip = true → u.power.now = s.power.now ∧ u.power.temps = s.power.temps ∧ u.power.change = s.power.change)) ∧
    (∀ k, s.power.change = some k →
      (s.power.skip = false → s.power.window = 0 → 128 ≤ s.cad.beat.toNat % 1024 →
        exec .clockStepChange s = .next { s with power := { s.power with
          cur := k, change := none, vset := s.setpointsAt k.toNat } }) ∧
      (s.cad.beat.toNat % 1024 < 128 → exec .clockStepChange s = .next s)) ∧
    (∀ k beat lap, s.power.pend = some (k, beat, lap) →
      (0 ≤ bdiff s.cad.beat beat → exec .clockCeilEvent s = .next { s with power := { s.power with ceil := k, pend := none } }) ∧
      (bdiff s.cad.beat beat < 0 → exec .clockCeilEvent s = .next s))

/-- The decision at the end of a window changes the step by one at most and keeps it between L and F when it stood there,
with every duty at most 15. -/
def Obligations.TheDecisionStaysInItsLimits : Prop :=
  ∀ s : State, s.power.change = none → s.floorL ≤ s.power.cur.toNat → s.power.cur.toNat ≤ s.floorF →
    (∀ k, (powerDecide s).power.change = some k →
      (k.toNat = s.power.cur.toNat + 1 ∨ k.toNat + 1 = s.power.cur.toNat) ∧ s.floorL ≤ k.toNat ∧ k.toNat ≤ s.floorF) ∧
    ((∀ r, (s.region r).brake.duty ≤ 15) → ∀ r, ((powerDecide s).region r).brake.duty ≤ 15) ∧
    (powerDecide s).power.cur = s.power.cur ∧ (powerDecide s).tiles = s.tiles

/-- VR_FAULT and its end, VR_ALERT and its end, and PARITY_SWEEP: a regulator's fault is recorded and brakes the regions of
its die with OVER_LIMIT; a bit that flipped in a configuration register of a running region's unit faults it with 0x18, and does so
again in a later sweep while it stands; one in a device unit is recorded with its event, and fails its port or stops its unit; a
location of no configuration register is none. That a mismatch stands between sweeps is the model's choice (log entry 104). -/
def Rules.RegulatorsAndParityAreReported : Prop :=
  ∀ s : State,
    (∀ reg : BitVec 3, reg.toNat ≤ 4 →
      (s.power.vrBad.getLsbD reg.toNat = true → exec (.vrFault reg) s = .next s) ∧
      (s.power.vrBad.getLsbD reg.toNat = false → exec (.vrFault reg) s =
        .next (limitRegions (fun g => reg == 4 || s.onDie g reg.toNat)
          (relimitAll { s with power := { s.power with vrBad := s.power.vrBad ||| (1#5 <<< reg.toNat) } })))) ∧
    (∀ reg : BitVec 3, exec (.vrFaultClear reg) s =
      .next (relimitAll { s with power := { s.power with vrBad := s.power.vrBad &&& ~~~(1#5 <<< reg.toNat) } })) ∧
    (s.power.vrAlert = true → exec .vrAlert s = .next s) ∧
    (s.power.vrAlert = false → exec .vrAlert s =
      .next (limitRegions (fun _ => true) (relimitAll { s with power := { s.power with vrAlert := true } }))) ∧
    exec .vrAlertRelease s = .next (relimitAll { s with power := { s.power with vrAlert := false } }) ∧
    (s.hubRuns = true → ∀ h : ParityHit, (∀ q ∈ s.parity, q.region = none) → h ∉ s.parity →
      let found : State := { s with parity := s.parity ++ [h] }
      (s.parityLegal h = false → exec (.paritySweep [h]) s = .next s) ∧
      (∀ r, s.parityLegal h = true → h.region = some r → (s.region r).st = .granted → (s.region r).halting = false →
        exec (.paritySweep [h]) s = .next (found.raise r h.tile none fCfgParity h.loc.toNat)) ∧
      (s.parityLegal h = true → h.region = none →
        let seen : State := ({ found with hub := { s.hub with parityLoc := h.loc } }).hubEvent 1
        (hitPort h = none → exec (.paritySweep [h]) s = .next { seen with stopped := h.loc :: s.stopped }) ∧
        (∀ p, hitPort h = some p → p.toNat ≤ 11 → exec (.paritySweep [h]) s = .next (failPort p seen)))) ∧
    (s.hubRuns = true → ∀ (h : ParityHit) (r : RegionId), s.parity = [h] → h.region = some r → (s.region r).st = .granted →
      (s.region r).halting = false → exec (.paritySweep []) s = .next (s.raise r h.tile none fCfgParity h.loc.toNat))

/-- The power manager decides once a window; regulators and parity hits are reported. -/
def Obligations.PowerManagerAndReports : Prop := Rules.ThePowerManagerDecides ∧ Rules.RegulatorsAndParityAreReported

/-! ### Reset (18_reset_clocks_power.md, 19_pins_and_package.md) -/

/-- PWRGOOD_RISE and PWRGOOD_FALL, VBKUP_LOSS: power-on is counted as cause 1 over a backup domain that is cleared if VBKUP
was lost, the straps are read, everything else but the fuses is cleared and the release order begins; the fall clears all
but the backup domain and the fuses. -/
def Rules.PowerOnClearsTheDevice : Prop :=
  ∀ s : State,
    (∀ lost straps, s.resets.pwrgood = false →
      ∃ u : State, exec (.pwrgoodRise lost straps) s = .next u ∧
        u.resets.pwrgood = true ∧ u.resets.ready = false ∧ u.resets.cause = 1 ∧ u.resets.straps = straps ∧
        u.tiles = [] ∧ u.objs = [] ∧ u.regions = [] ∧ u.ports = [] ∧ u.mem = Mem.reset ∧ u.cad = Cadence.reset ∧
        u.fuses.entries = s.fuses.entries ∧ u.fuses.revoked = s.fuses.revoked ∧ u.power.vset = [750, 750, 750, 750] ∧
        (lost = true ∨ s.resets.backupOk = false →
          u.resets.count = 1 ∧ u.resets.history = 1 ∧ u.resets.plan = [1, 2, 3, 4, 5, 6, 7, 8]) ∧
        (lost = false → s.resets.backupOk = true →
          u.resets.count = s.resets.count + 1 ∧ u.resets.history = s.resets.history ||| 1 ∧
          u.resets.plan = [2, 3, 4, 5, 6, 7, 8])) ∧
    (∀ lost straps, s.resets.pwrgood = true → exec (.pwrgoodRise lost straps) s = .next s) ∧
    (s.resets.pwrgood = true →
      ∃ u : State, exec .pwrgoodFall s = .next u ∧ u.resets.pwrgood = false ∧ u.resets.ready = false ∧ u.tiles = [] ∧
        u.objs = [] ∧ u.regions = [] ∧ u.ports = [] ∧ u.mem = Mem.reset ∧ u.resets.count = s.resets.count ∧
        u.resets.cause = s.resets.cause ∧ u.resets.history = s.resets.history ∧
        (s.fuses.pulse = none → u.fuses.entries = s.fuses.entries) ∧ (s.fuses.revokePulse = none → u.fuses.revoked = s.fuses.revoked)) ∧
    exec .vbkupLoss s = .next { s with
      resets := { s.resets with count := 0, cause := 0, history := 0, vbkupLost := false, backupOk := false } }

/-- A reset that no wider one in progress absorbs is counted with its cause: a pulse of a pin below 100 ns is none, one of
1 µs is one; a cold one clears the device but for the fuses and the backup domain, a warm one leaves memory and its marks;
a trip that is absorbed still asserts THERMTRIP_N and holds the order; during a fuse pulse a reset is held. -/
def Obligations.ResetsAreTakenByTheirKind : Prop :=
  ∀ s : State, s.resets.pwrgood = true →
    (∀ ns, ns < 100 → exec (.coldRstN ns) s = .next s ∧ exec (.warmRstN ns) s = .next s ∧ exec (.perstN ns) s = .next s) ∧
    (∀ ns, 100 ≤ ns → ns < 1000 → let u : State := { s with free := s.free + 1 }
      (exec (.coldRstN ns) s = .next u ∨ exec (.coldRstN ns) s = exec (.coldRstN 1000) u) ∧
      (exec (.warmRstN ns) s = .next u ∨ exec (.warmRstN ns) s = exec (.warmRstN 1000) u) ∧
      (exec (.perstN ns) s = .next u ∨ exec (.perstN ns) s = exec (.perstN 1000) u)) ∧
    (s.pulsing = true → ∀ ns, 1000 ≤ ns →
      exec (.coldRstN ns) s = .next { s with resets := { s.resets with held := s.resets.held ++ [Source.coldPin] } } ∧
      exec (.warmRstN ns) s = .next { s with resets := { s.resets with held := s.resets.held ++ [Source.warmPin] } } ∧
      exec (.perstN ns) s = .next { s with resets := { s.resets with held := s.resets.held ++ [Source.perst] } }) ∧
    (s.pulsing = false →
      (∀ ns, 1000 ≤ ns → s.absorbs .coldPin = false →
        ∃ u : State, exec (.coldRstN ns) s = .next u ∧ u.tiles = [] ∧ u.objs = [] ∧ u.regions = [] ∧ u.ports = [] ∧
          u.mem = Mem.reset ∧ u.fuses = s.fuses ∧ u.resets.count = s.resets.count + 1 ∧ u.resets.cause = 2 ∧
          u.resets.ready = false ∧ u.resets.plan = [2, 3, 4, 5, 6, 7, 8] ∧ u.resets.straps = s.resets.straps) ∧
      (∀ ns, 1000 ≤ ns → s.absorbs .warmPin = false →
        ∃ u : State, exec (.warmRstN ns) s = .next u ∧ u.tiles = [] ∧ u.objs = [] ∧ (∀ r, (u.region r).st = .unconfigured) ∧
          ((∀ r, (s.region r).drl.st ≠ .running) → u.mem = s.mem) ∧ u.fuses = s.fuses ∧
          u.resets.count = s.resets.count + 1 ∧ u.resets.cause = 3 ∧ u.resets.ready = false ∧ u.resets.warm = true ∧
          u.resets.plan = [2, 8] ∧ u.frame.epoch = s.frame.epoch + 1) ∧
      (∀ ns, 1000 ≤ ns → (s.absorbs .perst = false → exec (.perstN ns) s = .next (endpointReset (recordReset .perst s))) ∧
        (s.absorbs .perst = true → exec (.perstN ns) s = .next s)) ∧
      (s.absorbs .thermal = true → exec .thermalTrip s = .next { s with resets := { s.resets with
        thermHold := true, thermtrip := true, thermCool := false, thermPulsed := false } }) ∧
      (s.hub.fwState = 2 → s.absorbs .watchdog = false → exec .hubWatchdog s = .next (hubRestart (recordReset .watchdog s))) ∧
      (s.absorbs .thermal = false →
        ∃ u : State, exec .thermalTrip s = .next u ∧ u.tiles = [] ∧ u.regions = [] ∧ u.mem = Mem.reset ∧ u.resets.cause = 8 ∧
          u.resets.thermHold = true ∧ u.resets.thermtrip = true ∧ u.faultLow = true)) ∧
    (∀ k t rest, s.resets.cmd = (k, t) :: rest →
      (t + 1250 ≤ s.beats → exec .resetCommandStart s = .next (arriveReset k { s with resets := { s.resets with cmd := rest } })) ∧
      (s.beats < t + 1250 → exec .resetCommandStart s = .next s)) ∧
    (s.resets.thermHold = true →
      exec .thermHoldRelease s = .next (thermCheck { s with resets := { s.resets with thermCool := true } }))

/-- RESET_RELEASE_STEP: a step that must wait stays until what it waits for; step 3 reads the fuses; the regulators are sent the
setpoints of the step in force before step 5, which releases one die at a time; after step 8 the scrubbers of the tiles start, READY
sets and the warm reset ends. No step of the order but the first ends in a thermal hold. -/
def Rules.TheReleaseOrderEndsInReady : Prop :=
  ∀ (s : State) (k : Nat) (rest : List Nat), s.resets.plan = k :: rest →
    (s.resets.thermHold = true → 2 ≤ k → ∀ w ok, exec (.resetReleaseStep w ok) s = .next s) ∧
    (k = 3 ∨ k = 4 ∨ k = 6 ∨ k = 8 → ∀ ok, exec (.resetReleaseStep false ok) s = .next s) ∧
    (s.resets.thermHold = false →
      (k = 3 → s.resets.straps.getLsbD 3 = false → rest ≠ [] → ∀ ok, exec (.resetReleaseStep true ok) s =
        .next { readFuses ok s with resets := { s.resets with plan := rest } }) ∧
      (k = 3 → s.resets.straps.getLsbD 3 = true → ∀ w ok, exec (.resetReleaseStep w ok) s = .next s) ∧
      (k = 5 → s.resets.dies < 3 → ∀ w ok, exec (.resetReleaseStep w ok) s =
        .next { s with resets := { s.resets with dies := s.resets.dies + 1 } }) ∧
      (k = 8 → rest = [] → ∀ ok, exec (.resetReleaseStep true ok) s =
        .next { s with tilesAt := some s.wall, scrubPass := 0, resets := { s.resets with
          plan := [], ready := true, warm := false, source := none } }) ∧
      (k = 4 → rest ≠ [] → ∀ ok, exec (.resetReleaseStep true ok) s =
        .next { setRegulators s with resets := { s.resets with plan := rest } }) ∧
      (k = 1 ∨ k = 2 ∨ k = 7 → rest ≠ [] → ∀ w ok, exec (.resetReleaseStep w ok) s =
        .next { s with resets := { s.resets with plan := rest } }))

/-- The ends of fuse pulses: the entry of a retirement is used and its column parked, with E_OK or, its read-back failing,
E_TIMEOUT; a revoked slot's fuse is blown; the resets held meanwhile proceed. -/
def Rules.FusePulsesEnd : Prop :=
  ∀ s : State,
    (∀ fn col ok, s.fuses.pulse = some (fn, col) →
      exec (.retireFusePulseEnd ok) s =
        .next (heldResets ((programEntry col ok s).finish (fnNo fn) 0x03 (if ok then eOk else eTimeout))) ∧
      (programEntry col ok s).fuses = { s.fuses with
        entries := s.fuses.entries ++ [{ die := (s.physical col).1, col := (s.physical col).2, ok := ok }],
        parked := s.fuses.parked ++ [col], pulse := none }) ∧
    (∀ fn k, s.fuses.revokePulse = some (fn, k) → exec .revokeFusePulseEnd s =
      .next (heldResets (({ s with fuses := { s.fuses with
        revoked := s.fuses.revoked ||| (1#4 <<< k.toNat), revokePulse := none } } : State).finish (fnNo fn) 0x04 eOk))) ∧
    (s.resets.held = [] → s.resets.heldFlr = [] → heldResets s = s)

/-- The release order ends in READY; fuse pulses end and let held resets proceed. -/
def Obligations.TheReleaseOrderAndFusePulses : Prop := Rules.TheReleaseOrderEndsInReady ∧ Rules.FusePulsesEnd

/-- RAIL_OUT_OF_TOLERANCE while PWRGOOD is high: what the rail feeds is undefined, a free value in each case, and what it does not
feed stands; while PWRGOOD is low nothing happens. -/
def Rules.RailsLoseWhatTheyFeed : Prop :=
  ∀ s : State,
    (s.resets.pwrgood = false → ∀ rail, exec (.railOutOfTolerance rail) s = .next s) ∧
    (s.resets.pwrgood = true →
      exec (.railOutOfTolerance .vio) s = .next s ∧
      exec (.railOutOfTolerance .hbm) s = .next (s.veil 0 hbmSize) ∧
      exec (.railOutOfTolerance .lpddr) s = .next (s.veil 0x8000000000 (0x8000000000 + 64 * 0x180000000)) ∧
      (∃ u : State, exec (.railOutOfTolerance .vbkup) s = .next u ∧ u.tiles = s.tiles ∧ u.mem = s.mem ∧ u.regions = s.regions ∧
        u.fuses = s.fuses ∧ u.resets.straps = s.resets.straps ∧ u.resets.plan = s.resets.plan) ∧
      (∃ u : State, exec (.railOutOfTolerance .vhub) s = .next u ∧ u.tiles = s.tiles ∧ u.mem = s.mem ∧ u.objs = s.objs ∧
        u.ports = s.ports ∧ u.fuses = s.fuses ∧ u.resets.count = s.resets.count ∧ u.resets.cause = s.resets.cause ∧
        u.resets.history = s.resets.history ∧ ∀ r, (u.region r).cfg = (s.region r).cfg) ∧
      (∃ u : State, exec (.railOutOfTolerance .vsram) s = .next u ∧ u.mem = s.mem ∧ u.regions = s.regions ∧ u.objs = s.objs ∧
        ∀ t, (u.tile t).ctl = (s.tile t).ctl) ∧
      (∀ n, ∃ u : State, exec (.railOutOfTolerance (.vcore n)) s = .next u ∧ u.mem = s.mem ∧ u.regions = s.regions ∧
        ∀ t, s.columns ≤ 128 → s.dieOf (colOf t) ≠ n.toNat → u.tile t = s.tile t) ∧
      (∃ u : State, exec (.railOutOfTolerance .serdes) s = .next u ∧ u.mem = s.mem ∧ u.objs = s.objs ∧
        ∀ p, (s.port p).st ≠ .down → p.toNat ≤ 11 → (u.port p).st = .failed))

/-- Power-on clears the device; a rail out of tolerance loses what it feeds. -/
def Obligations.PowerOnAndRails : Prop := Rules.PowerOnClearsTheDevice ∧ Rules.RailsLoseWhatTheyFeed

/-! ### The mailbox (17_host_interface.md R422 to R431) -/

/-- A doorbell, by its shared checks in order: ignored before READY or by a disabled virtual function; dropped while the
mailbox is busy; E_STATE before the firmware runs; E_BADOP for a scope a virtual function may not use; E_STATE for a
region that is not GRANTED; E_BADARG for a byte that must be zero; else the command itself acts on the state in which the
mailbox holds it. -/
def Rules.DoorbellsAreCheckedInOrder : Prop :=
  ∀ (s : State) (op : Nat) (scope : Scope) (named : List (Nat × Nat)) (fn : Fn) (rg : RegionId) (tag : BitVec 16) (a : ArgBlock)
    (body : Call → State → State),
    let f := fnNo fn
    let u := s.rung op fn rg tag a
    let went : State := mailCommand op scope named noHref fn rg tag a body s
    let open_ : Prop := s.resets.ready = true ∧ ∀ n, fn = .vf n → s.vfOn n = true
    (s.resets.ready = false ∨ (∃ n, fn = .vf n ∧ s.vfOn n = false) → went = s) ∧
    (open_ → (s.mail f).busy = true → went = s.modMail f (fun m => { m with dropped := true })) ∧
    (open_ → (s.mail f).busy = false →
      (s.hub.fwState ≠ 2 → went = u.done f eState) ∧
      (s.hub.fwState = 2 → (∃ n, fn = .vf n) → scope = .d ∨ scope = .p → went = u.done f eBadop) ∧
      (s.hub.fwState = 2 → scope = .r → (s.region (windowOf fn rg)).st ≠ .granted → went = u.done f eState) ∧
      (s.hub.fwState = 2 → fn = .pf → scope ≠ .r → blkZero a named = false → went = u.done f eBadarg)) ∧
    (Accepts s scope named fn rg a → went = body { fn := fn, f := f, r := windowOf fn rg, a := a } u)

/-- A command that completes writes its code and tag, clears BUSY and raises MBX_DONE, and changes no tile, object, region
state or byte of memory. -/
def Rules.CommandsComplete : Prop :=
  ∀ (s : State) (f code : Nat), (s.mail f).busy = true →
    let u := s.done f code
    (u.mail f).busy = false ∧ (u.mail f).code = BitVec.ofNat 8 code ∧ (u.mail f).tag = (s.mail f).curTag ∧
    (u.mail f).args = (s.mail f).args ∧ u.tiles = s.tiles ∧ u.objs = s.objs ∧ u.mem = s.mem ∧ u.fuses = s.fuses ∧
    (∀ k, k ≠ f → u.mail k = s.mail k) ∧ (f = 0 → u.hub.evt = s.hub.evt.event 0 ∧ u.regions = s.regions) ∧
    (∀ r : RegionId, f = 1 + r.toNat → (u.region r).evtVf = (s.region r).evtVf.event 0 ∧ (u.region r).st = (s.region r).st ∧
      (u.region r).evtPf = (s.region r).evtPf ∧ ∀ q, q ≠ r → u.region q = s.region q)

/-- A doorbell is checked in order; a completion writes its code and tag. -/
def Obligations.MailboxDoorbellsAndCompletions : Prop := Rules.DoorbellsAreCheckedInOrder ∧ Rules.CommandsComplete

/-- Commands about the frame, the fuses and the links, accepted with arguments that pass their checks. -/
def Obligations.DeviceSetupCommands : Prop :=
  ∀ (s : State) (tag : BitVec 16) (a : ArgBlock),
    let free : Prop := s.frame.loading = none ∧ s.fuses.pulse = none
    let col := argAt a 0 2
    let key := argAt a 0 1
    (∀ op whole, (op = 0x01 ∧ whole = true) ∨ (op = 0x02 ∧ whole = false) →
      Accepts s .d [(0, 4), (8, 12)] .pf 0 a →
      let u := s.rung op .pf 0 tag a
      let c : Call := { fn := .pf, f := 0, r := 0, a := a }
      let out : Host.Outcome State Fault Refusal :=
        if whole then exec (.loadFrame .pf 0 tag a) s else exec (.loadRegionFrame .pf 0 tag a) s
      (∀ e, u.hrefCheck c (argAt a 16 4) = some e → out = .next (u.done 0 e)) ∧
      (u.hrefCheck c (argAt a 16 4) = none → free → (whole = true → s.anyGranted = false) → (whole = false → s.frame.loaded = true) →
        out = .next { u with frame := { u.frame with loading := some (.pf, whole, argAt a 16 4) } })) ∧
    (∀ fn whole len image, s.frame.loading = some (fn, whole, len) →
      let b : State := { s with frame := { s.frame with loading := none } }
      let op := if whole then 0x01 else 0x02
      (image.length ≠ len → exec (.frameLoadComplete image) s = .next (b.finish (fnNo fn) op (
        if 0x40 ≤ image.length ∧ min len (0x40 + 16 * frameCount image) ≤ image.length then (headerCheck b whole len image).getD eTimeout
        else eTimeout))) ∧
      (image.length = len → exec (.frameLoadComplete image) s = .next (match frameCheck b whole len image with
        | some e => b.finish (fnNo fn) op e
        | none => (if whole then applyWhole image b else applyRegion image b).finish (fnNo fn) op eOk))) ∧
    (Accepts s .d [(0, 2)] .pf 0 a →
      let u := s.rung 0x03 .pf 0 tag a
      (free → s.columns ≤ col → exec (.retireColumn .pf 0 tag a) s = .next (u.done 0 eRange)) ∧
      (free → col < s.columns → col ∉ s.fuses.parked → (∀ e ∈ s.regions, e.2.st = .unconfigured ∨ e.2.st = .configured) →
        (s.fuses.entries.length < 8 → exec (.retireColumn .pf 0 tag a) s =
          .next { u with fuses := { s.fuses with pulse := some (.pf, col) } }) ∧
        (8 ≤ s.fuses.entries.length → exec (.retireColumn .pf 0 tag a) s = .next (u.done 0 eNores)))) ∧
    (Accepts s .d [(0, 1)] .pf 0 a →
      let u := s.rung 0x04 .pf 0 tag a
      (3 < key → exec (.revokeKey .pf 0 tag a) s = .next (u.done 0 eRange)) ∧
      (key ≤ 3 → s.fuses.revoked.getLsbD key = false →
        (popCount s.fuses.revoked.toNat 4 = 3 → exec (.revokeKey .pf 0 tag a) s = .next (u.done 0 eState)) ∧
        (popCount s.fuses.revoked.toNat 4 ≠ 3 → exec (.revokeKey .pf 0 tag a) s =
          .next { u with fuses := { s.fuses with revokePulse := some (.pf, BitVec.ofNat 2 key) } }))) ∧
    (Accepts s .d [(0, 8)] .pf 0 a → s.anyGranted = false →
      let u := s.rung 0x05 .pf 0 tag a
      let x := argAt a 2 1
      let y := argAt a 3 1
      let z := argAt a 4 1
      let xd := argAt a 5 1
      let yd := argAt a 6 1
      let zd := argAt a 7 1
      (argAt a 0 2 = 0xFFFF → exec (.setIdentity .pf 0 tag a) s = .next (u.done 0 eBadarg)) ∧
      (argAt a 0 2 ≠ 0xFFFF → x < xd → xd ≤ 16 → y < yd → yd ≤ 32 → z < zd → zd ≤ 32 →
        exec (.setIdentity .pf 0 tag a) s = .next (({ u with ident := {
          dev := BitVec.ofNat 16 (argAt a 0 2), ident := true, x := BitVec.ofNat 4 x, y := BitVec.ofNat 5 y, z := BitVec.ofNat 5 z,
          xd := BitVec.ofNat 4 (xd - 1), yd := BitVec.ofNat 5 (yd - 1), zd := BitVec.ofNat 5 (zd - 1) } } : State).done 0 eOk))) ∧
    (Accepts s .d [(0, 2)] .pf 0 a →
      let u := s.rung 0x06 .pf 0 tag a
      let ps := argAt a 0 2
      (4096 ≤ ps → exec (.linkRetrain .pf 0 tag a) s = .next (u.done 0 eBadarg)) ∧
      (ps < 4096 → (∀ p ∈ allPorts, ps.testBit p.toNat = true → s.portEnabled p = true) →
        ∃ v : State, exec (.linkRetrain .pf 0 tag a) s = .next v ∧ (v.mail 0).busy = false ∧ (v.mail 0).code = 0 ∧
          v.regions = s.regions ∧ v.tiles = s.tiles ∧ v.mem = s.mem ∧
          ∀ p ∈ allPorts, if ps.testBit p.toNat = true then (v.port p).st = .training ∧ (v.port p).full = true ∧
            (v.port p).trainAt = s.beats ∧ (v.port p).buf = (s.port p).buf else v.port p = s.port p))

/-- Commands that grant, revoke and map a region, and their completions: grant leaves every tile of the rectangle in entry
hold and every owned byte of memory zero, revoke leaves the region CONFIGURED under the next epoch. -/
def Rules.RegionCommands : Prop :=
  ∀ (s : State) (r : RegionId) (tag : BitVec 16) (a : ArgBlock) (c : RegionCfg), (s.region r).cfg = some c →
    let g := s.region r
    (Accepts s .p [] .pf r a → s.frame.loading = none →
      (s.fuses.pulse = none → g.st = .configured → s.hasParked c = false →
        exec (.regionGrant .pf r tag a) s =
          .next ((s.rung 0x08 .pf r tag a).setRegion r { g with st := .granting, by_ := some .pf })) ∧
      (s.fuses.pulse = none → g.st ≠ .configured →
        exec (.regionGrant .pf r tag a) s = .next ((s.rung 0x08 .pf r tag a).done 0 eState)) ∧
      (g.st = .granted → exec (.regionRevoke .pf r tag a) s =
        .next (stopRegion r ((s.rung 0x09 .pf r tag a).setRegion r { g with st := .revoking }))) ∧
      (g.st ≠ .granted → g.st ≠ .granting → exec (.regionRevoke .pf r tag a) s = .next ((s.rung 0x09 .pf r tag a).done 0 eState))) ∧
    (g.st = .granting → s.unitsWait r = false → s.creditsWhole r = true →
      ∃ u : State, exec (.grantComplete r) s = .next u ∧ (u.region r).st = .granted ∧ (u.region r).cfg = some c ∧
        (u.region r).epoch = g.epoch ∧ (u.region r).digest = g.digest ∧ (u.region r).cycle = 0 ∧
        (∀ t, c.has t = true → u.tile t = Tile.reset) ∧ (∀ o : BitVec 16, g.ownsObj o.toNat = true → u.obj o = SyncObj.reset) ∧
        (∀ f, ((u.latch f).updHi.find r.toNat = none ∧ (u.latch f).commitHi.find r.toNat = none ∧
          (u.latch f).commitBeat.find r.toNat = none ∧ (u.latch f).expHi.find r.toNat = none)) ∧
        ((s.mail (1 + r.toNat)).busy = false →
          (∀ n, g.ownsAddr n = true → u.mem.byte n = 0) ∧ ∀ q, q ≠ r → (u.region q).st = (s.region q).st)) ∧
    (g.st = .granting → s.unitsWait r = true → exec (.grantComplete r) s = .next s) ∧
    (g.st = .revoking → s.creditsWhole r = true →
      ∃ u : State, exec (.revokeComplete r) s = .next u ∧ (u.region r).st = .configured ∧ (u.region r).cfg = some c ∧
        (u.region r).epoch = g.epoch + 1 ∧ (∀ t, c.has t = true → u.tile t = Tile.reset) ∧
        (∀ n, g.ownsAddr n = true → u.mem.byte n = 0)) ∧
    (Accepts s .p [(0, 8)] .pf r a → g.st = .configured →
      let u := s.rung 0x0A .pf r tag a
      (argAt a 0 8 % 1024 = 0 → c.inPool (argAt a 0 8) = true → exec (.mmuRoot .pf r tag a) s =
        .next (((u.setRegion r { g with mem := { g.mem with root := BitVec.ofNat 40 (argAt a 0 8), tlb := [] } }).regionClean r 3 0x0A).done 0 eOk)) ∧
      (argAt a 0 8 % 1024 ≠ 0 ∨ c.inPool (argAt a 0 8) = false → exec (.mmuRoot .pf r tag a) s = .next (u.done 0 eRange))) ∧
    (Accepts s .p [] .pf r a → exec (.mmuInval .pf r tag a) s =
      .next (((s.rung 0x0B .pf r tag a).modRegion r (fun h => { h with mem := { h.mem with tlb := [] } })).done 0 eOk))

/-- Loading code: a program image whose header and tables pass their checks is copied; the load applies the code as it stands when it
completes, restarts the region, and leaves the digest of the image as read and the halt it found ended; an image that can no longer be
read faults and ends it with E_BADARG; a load descriptor is written to its slot and started with GO. -/
def Rules.ProgramLoads : Prop :=
  ∀ (s : State) (fn : Fn) (rg : RegionId) (tag : BitVec 16) (a : ArgBlock),
    let r := windowOf fn rg
    let g := s.region r
    let f := fnNo fn
    ∀ c, g.cfg = some c →
    (Accepts s .r [(0, 12)] fn rg a → g.loading = none → g.fw.restore = none →
      let u := s.rung 0x10 fn rg tag a
      let va := argAt a 0 8
      let len := argAt a 8 4
      (s.loadIdle r = false → exec (.loadProgram fn rg tag a) s = .next (u.done f eNotidle)) ∧
      (s.loadIdle r = true → va % 512 = 0 → va < 2 ^ 48 → len % 16 = 0 → 64 ≤ len → len ≤ 0x10000000 →
        ∀ h u1 img u2, u.readVa r va 64 = (.ok h, u1) → leAt h 8 4 = len → u1.readVa r va len = (.ok img, u2) →
          (∀ e, progCheck c img = some e → exec (.loadProgram fn rg tag a) s = .next (u2.done f e)) ∧
          (progCheck c img = none → exec (.loadProgram fn rg tag a) s = .next (u2.modRegion r (fun h => { h with
            loading := some { fn := fn, va := va, image := img, halted := h.brake.halted } }))))) ∧
    (∀ q, g.loading = some q →
      (∀ e u, s.readVa r q.va q.image.length = (.error e, u) → exec (.programLoadComplete r) s =
        .next (((engineFault r e u).modRegion r (fun h => { h with loading := none })).finish (fnNo q.fn) 0x10 eBadarg)) ∧
      (∀ now u, s.readVa r q.va q.image.length = (.ok now, u) →
        let img := q.asRead c now
        let w := applyProgram r c img u
        exec (.programLoadComplete r) s = .next ((if q.halted then resumeHalted r w else w).finish (fnNo q.fn) 0x10 eOk) ∧
        (w.region r).loading = none ∧ (w.region r).prog = true ∧ (w.region r).progDigest = BitVec.ofNat 384 (leNat (sha384 img)) ∧
        w.mem = u.mem ∧ w.fuses = s.fuses ∧ (g.upd.phase ≠ .waitStart → ∀ t, t ∉ g.tiles → w.tile t = s.tile t))) ∧
    (Accepts s .r [(0, 18)] fn rg a →
      let u := s.rung 0x11 fn rg tag a
      let slot := argAt a 16 1
      (∀ e, descCheck g c a = some e → exec (.loadDesc fn rg tag a) s = .next (u.done f e)) ∧
      (descCheck g c a = none →
        let w : State := u.setRegion r { g with descs := g.descs.put slot (descOf a) }
        exec (.loadDesc fn rg tag a) s = .next ((if Word.bit a 137 then startDesc r slot w else w).done f eOk)))

/-- Grant, revoke, mapping and the loading of programs. -/
def Obligations.RegionAndProgramCommands : Prop := Rules.RegionCommands ∧ Rules.ProgramLoads

/-- Buffers, sync objects and function resets: BUF_REG takes the lowest free slot and returns its handle, BUF_FREE frees it;
SYNC_SET waits for a later cycle in which nothing reaches its object and then configures it, or completes with E_STATE or after
125,000 beats E_BUSY; SYNC_DUMP writes a record for each object the function may see; an FLR frees the function's handles and ends its
command with E_STATE; that it is held during a fuse pulse is the model's choice (log entry 102). -/
def Obligations.HostAndSyncCommands : Prop :=
  ∀ (s : State) (fn : Fn) (rg : RegionId) (tag : BitVec 16) (a : ArgBlock),
    let f := fnNo fn
    let m := s.mail f
    (Accepts s .f [(0, 16)] fn 0 a →
      let u := s.rung 0x0C fn 0 tag a
      argAt a 0 8 % 4096 = 0 → argAt a 8 8 % 4096 = 0 → 4096 ≤ argAt a 8 8 → argAt a 8 8 ≤ 2 ^ 40 →
      (∀ k, k < 256 → (s.buffer f k).used = false → (∀ j, j < k → (s.buffer f j).used = true) →
        exec (.bufReg fn 0 tag a) s = .next ((u.setBuffer f k { s.buffer f k with
          used := true, iova := BitVec.ofNat 64 (argAt a 0 8), len := BitVec.ofNat 64 (argAt a 8 8) }).complete f eOk
          (some (BitVec.ofNat 32 (fnOwner fn * 2 ^ 24 + (s.buffer f k).gen.toNat * 256 + k))))) ∧
      ((∀ k, k < 256 → (s.buffer f k).used = true) → exec (.bufReg fn 0 tag a) s = .next (u.done f eNores))) ∧
    (Accepts s .f [(0, 4)] fn 0 a →
      let u := s.rung 0x0D fn 0 tag a
      let k := argAt a 0 1
      (∀ e, s.handleCheck fn (argAt a 0 4) = some e → exec (.bufFree fn 0 tag a) s = .next (u.done f e)) ∧
      (s.handleCheck fn (argAt a 0 4) = none →
        (s.exportUses fn k = true → exec (.bufFree fn 0 tag a) s = .next (u.done f eBusy)) ∧
        (s.exportUses fn k = false → exec (.bufFree fn 0 tag a) s = .next ((u.setBuffer f k (s.buffer f k).free).done f eOk)))) ∧
    (Accepts s .r [(0, 2), (4, 4), (8, 6)] fn rg a →
      let u := s.rung 0x0E fn rg tag a
      let own := (s.region (windowOf fn rg)).ownsObj (setObjArg a).toNat
      (own = false → exec (.syncSet fn rg tag a) s = .next (u.done f eOwner)) ∧
      (own = true → argAt a 8 1 = 0 → exec (.syncSet fn rg tag a) s = .next u)) ∧
    (m.busy = true → m.curOp = 0x0E →
      let o := setObjArg m.curArgs
      let v : Word := BitVec.ofNat 32 (argAt m.curArgs 4 4)
      (s.wall ≤ m.wall ∨ s.objFree m.curRegion o = false → exec (.syncSetApply fn) s = .next s) ∧
      (m.wall < s.wall → s.objFree m.curRegion o = true →
        (configRefused m.curRegion o v s = true → exec (.syncSetApply fn) s = .next (s.done f eState)) ∧
        (configRefused m.curRegion o v s = false → exec (.syncSetApply fn) s =
          .next (((s.setObj o (((s.obj o).configure v).setParent m.curArgs)).regionClean m.curRegion 3 0x0E).done f eOk))) ∧
      (m.since + 125000 ≤ s.beats → exec (.syncSetTimeout fn) s = .next (s.done f eBusy)) ∧
      (s.beats < m.since + 125000 → exec (.syncSetTimeout fn) s = .next s)) ∧
    (Accepts s .f [(0, 4), (8, 8)] fn 0 a →
      let u := s.rung 0x0F fn 0 tag a
      let c : Call := { fn := fn, f := f, r := windowOf fn 0, a := a }
      (u.hrefCheck c (32 * (u.dumpObjs fn).length) = none → exec (.syncDump fn 0 tag a) s = .next u) ∧
      (∀ e, u.hrefCheck c (32 * (u.dumpObjs fn).length) = some e → exec (.syncDump fn 0 tag a) s = .next (u.done f e))) ∧
    (m.busy = true → m.curOp = 0x0F → exec (.syncDumpComplete fn) s =
      .next ((s.hostWrite (s.hrefAddr { fn := fn, f := f, r := m.curRegion, a := m.curArgs })
        ((s.dumpObjs fn).flatMap (fun o => s.objRecord (BitVec.ofNat 16 o)))).complete f eOk
        (some (BitVec.ofNat 32 (s.dumpObjs fn).length)))) ∧
    (s.fuses.pulse = none → s.fuses.revokePulse = none →
      ∃ u : State, exec (.flr fn) s = .next u ∧ (∀ k, (u.buffer f k).used = false) ∧ (∀ n, (f, n) ∉ u.hub.msix) ∧
        (u.mail f).busy = false ∧ (m.busy = true → (u.mail f).code.toNat = eState) ∧ u.tiles = s.tiles ∧ u.objs = s.objs ∧
        (m.busy = false ∨ m.curOp ≠ 0x16 → u.mem = s.mem)) ∧
    (s.fuses.pulse.isSome = true ∨ s.fuses.revokePulse.isSome = true → exec (.flr fn) s =
      .next { s with resets := { s.resets with heldFlr := s.resets.heldFlr ++ [fn] } })

/-- Commands of the update units, the derailleur, the freewheel and rollback, accepted in a state and with arguments that pass
their checks. -/
def Obligations.TrainingCommands : Prop :=
  ∀ (s : State) (fn : Fn) (rg : RegionId) (tag : BitVec 16) (a : ArgBlock),
    let r := windowOf fn rg
    let g := s.region r
    let f := fnNo fn
    let c : Call := { fn := fn, f := f, r := r, a := a }
    let idle : Prop := g.upd.busy = false ∧ g.drl.st ≠ .running
    let is (op : Nat) : State := s.rung op fn rg tag a
    (Accepts s .r [(0, 16)] fn rg a → idle → g.brake.halted = false →
      let va := argAt a 0 8
      let n := argAt a 8 2
      let so := argAt a 0x0A 2
      let sc := argAt a 0x0C 2
      let d := argAt a 0x0E 2
      va % 128 = 0 → va < 2 ^ 48 → 1 ≤ n → n ≤ 8192 → sc ≠ 0 → ∀ b u, (is 0x12).readVa r va (128 * n) = (.ok b, u) →
      let bs := cutBlocks n b
      g.ownsObj so = true → g.ownsObj d = true → (∀ k ∈ bs, g.lpChans.contains (blkChan k) = true) → (∀ k ∈ bs, blkLegal k = true) →
      (∀ k ∈ bs, blkEnd k ≤ 0x60000000) → anyOverlap bs = false →
      exec (.updList fn rg tag a) s = .next (((armList r va so sc d bs u).regionClean r 3 0x12).done f eOk)) ∧
    (Accepts s .r [(0, 8)] fn rg a → idle →
      exec (.updSetStep fn rg tag a) s = .next ((fwForget r ((is 0x13).setRegion r
        { g with upd := { g.upd with step := BitVec.ofNat 64 (argAt a 0 8) } })).done f eOk) ∧
      (∀ va h u b u2, g.brake.halted = false → va = argAt a 0 8 → va % 64 = 0 → va < 2 ^ 48 → (is 0x16).readVa r va 64 = (.ok h, u) → drlHeader h = true →
        u.readVa r (va + 64) (32 * leAt h 8 4) = (.ok b, u2) →
        let es := (List.range (leAt h 8 4)).map (fun k => BitVec.ofNat 256 (leAt b (32 * k) 32))
        (drlCheck u2 r h es ≠ eOk → exec (.drlRun fn rg tag a) s = .next (u2.done f (drlCheck u2 r h es))) ∧
        (drlCheck u2 r h es = eOk → exec (.drlRun fn rg tag a) s =
          .next (drlRound r ((fwForget r (fwAbandon r true u2)).modRegion r (fun x => { x with drl := { x.drl with
            st := .running, round := 0, rounds := leAt h 6 2, tid := BitVec.ofNat 16 (leAt h 0x0C 2),
            obj := BitVec.ofNat 16 (leAt h 0x0E 2), scrBase := leAt h 0x10 8, scrSize := leAt h 0x18 8, entries := es,
            dones := [], arrived := false, released := false, since := (fwForget r (fwAbandon r true u2)).beats, fn := some fn } })))))) ∧
    (Accepts s .r [] fn rg a →
      (g.upd.armed = false → exec (.updDisarm fn rg tag a) s = .next ((is 0x14).done f eState)) ∧
      (g.upd.armed = true → g.upd.phase = .running → exec (.updDisarm fn rg tag a) s =
        .next (((is 0x14).setRegion r { g with upd := { g.upd with disarm := true } }).done f eOk)) ∧
      (g.upd.armed = true → g.upd.phase = .waitStart → g.upd.startMet = false ∨ g.drl.st = .running → exec (.updDisarm fn rg tag a) s =
        .next ((updStep1 r (dropUpdWait r g.upd.startObj ((is 0x14).setRegion r { g with upd := { g.upd with disarm := true } }))).done f eOk)) ∧
      (g.upd.armed = false ∨ g.brake.halted = true → exec (.updEmit fn rg tag a) s = .next ((is 0x15).done f eState)) ∧
      (g.upd.armed = true → g.brake.halted = false → idle → ∀ u, emitAll r (g.upd.step.toNat % 2) (g.upd.step - 1).toNat (is 0x15) = (none, u) →
        exec (.updEmit fn rg tag a) s = .next ((landSignal r g.upd.doneObj .engine u).done f eOk))) ∧
    (Accepts s .r [(0, 20)] fn rg a → idle → g.fw.mirrors = false → g.fw.restore = none →
      let dev := argAt a 0 2
      let mask : BitVec 16 := BitVec.ofNat 16 (argAt a 2 2)
      let ports := allPorts.filter (fun p => mask.getLsbD p.toNat)
      mask.toNat < 4096 → 1 ≤ ports.length → ports.length ≤ 2 →
      (∀ p ∈ ports, s.portEnabled p = true ∧ (g.lane p).isSome = true ∧ (s.port p).nbrDev.toNat = dev) →
      g.ownsObj (argAt a 4 2) = true → (s.obj (BitVec.ofNat 16 (argAt a 4 2))).bar = true →
      1 ≤ argAt a 6 1 → argAt a 6 1 ≤ 16 → g.lpChans.contains (argAt a 7 1) = true → argAt a 8 8 % 64 = 0 →
      argAt a 8 8 + 32 * g.tiles.length ≤ 0x60000000 → 125000 ≤ argAt a 0x10 4 → argAt a 0x10 4 ≤ 16777215 →
      exec (.fwConfig fn rg tag a) s = .next ((((is 0x17).regionClean r 3 0x17).setRegion r { g with fw := { g.fw with
        conf := true, tandem := BitVec.ofNat 16 dev, ports := mask, obj := BitVec.ofNat 16 (argAt a 4 2), share := argAt a 6 1,
        ctxChan := BitVec.ofNat 6 (argAt a 7 1), ctxOff := argAt a 8 8, limit := argAt a 0x10 4, st := .idle, commitValid := false,
        mirrorAcked := false, remirror := true, sole := false, startBeat := none, stalled := false } }).done f eOk)) ∧
    (∀ size va, Accepts s .r [(0, 4), (8, 8), (0x10, 13), (0x20, 8)] fn rg a → fn = .vf r → g.exp.active = false → g.brake.halted = false →
      (is 0x18).hrefCheck c (argAt a 0x10 8) = none → size = argAt a 0x10 8 → va = argAt a 0x20 8 → argAt a 8 8 % 64 = 0 → size % 64 = 0 →
      0x100000 ≤ size → size ≤ 2 ^ 32 → 1 ≤ argAt a 0x1C 1 → argAt a 0x1C 1 ≤ 16 → va % 128 = 0 → va < 2 ^ 48 →
      ∀ b u, (is 0x18).readVa r va (128 * g.upd.blocks.length) = (.ok b, u) →
      exec (.fwExport fn rg tag a) s = .next ((u.modRegion r (fun h => { h with exp := { h.exp with
        fn := fn, slot := argAt a 0 1, gen := BitVec.ofNat 16 (argAt a 1 2), base := u.hrefAddr c, size := size,
        every := argAt a 0x18 4, share := argAt a 0x1C 1, mapVa := BitVec.ofNat 48 va, want := [], head := 0, tail := 0 } })).done f eOk)) ∧
    (g.fw.restore = none → g.loading = none →
      let target : DWord := BitVec.ofNat 64 (argAt a 0 8)
      (Accepts s .r [(0, 9)] fn rg a → argAt a 8 1 ≤ 1 →
        ((g.fw.commitValid = true ∧ target = g.fw.commitStep) ∨ (g.fw.mirrorAcked = true ∧ target = g.fw.commitStep + 1) →
          exec (.rollback fn rg tag a) s = .next (restoreStart r fn target (argAt a 8 1 == 1) false (is 0x19))) ∧
        (g.fw.commitValid = false → g.fw.mirrorAcked = false → exec (.rollback fn rg tag a) s = .next ((is 0x19).done f eState))) ∧
      (Accepts s .r [(0, 8)] fn rg a →
        (g.upd.armed = true → g.fw.conf = true → exec (.adopt fn rg tag a) s = .next (restoreStart r fn target false true (is 0x1A))) ∧
        (g.upd.armed = false → exec (.adopt fn rg tag a) s = .next ((is 0x1A).done f eState))))

/-- Commands of the cadence, the clock, power, calibration and reset, accepted from the physical function. -/
def Obligations.ClockPowerAndResetCommands : Prop :=
  ∀ (s : State) (tag : BitVec 16) (a : ArgBlock),
    let is (op : Nat) : State := s.rung op .pf 0 tag a
    let beat : BitVec 48 := BitVec.ofNat 48 (argAt a 8 6)
    let lap : BitVec 16 := BitVec.ofNat 16 (argAt a 16 2)
    (Accepts s .d [(0, 10)] .pf 0 a → argAt a 6 2 = 0 →
      (s.frame.source ≠ 1 → s.cad.locked = false → exec (.cadenceSet .pf 0 tag a) s = .next (({ is 0x07 with
        cad := s.cad.setPending (BitVec.ofNat 48 (argAt a 0 6)) (BitVec.ofNat 16 (argAt a 8 2)) s.beats } : State).done 0 eOk)) ∧
      (s.frame.source = 1 ∨ s.cad.locked = true → exec (.cadenceSet .pf 0 tag a) s = .next ((is 0x07).done 0 eState))) ∧
    (Accepts s .d [(0, 1), (8, 10)] .pf 0 a → argAt a 0 1 ≤ 3 → argAt a 14 2 = 0 → s.power.pend = none →
      (∀ e, s.cad.eventCheck beat lap = some e → exec (.setClock .pf 0 tag a) s = .next ((is 0x1B).done 0 e)) ∧
      (s.cad.eventCheck beat lap = none → exec (.setClock .pf 0 tag a) s = .next (({ is 0x1B with
        power := { s.power with pend := some (BitVec.ofNat 2 (argAt a 0 1), beat, lap) } } : State).done 0 eOk))) ∧
    (Accepts s .d [(0, 2)] .pf 0 a →
      (1200 ≤ argAt a 0 2 → argAt a 0 2 ≤ 2400 → exec (.setPowerCap .pf 0 tag a) s = .next (({ is 0x1C with
        power := { s.power with capNext := some (BitVec.ofNat 12 (argAt a 0 2)) } } : State).done 0 eOk)) ∧
      (argAt a 0 2 < 1200 ∨ 2400 < argAt a 0 2 → exec (.setPowerCap .pf 0 tag a) s = .next ((is 0x1C).done 0 eRange))) ∧
    (Accepts s .d [(0, 2), (4, 4)] .pf 0 a →
      let i := argAt a 0 2
      let v : Word := BitVec.ofNat 32 (argAt a 4 4)
      (calLimit i = none → exec (.setCal .pf 0 tag a) s = .next ((is 0x1D).done 0 eBadarg)) ∧
      (∀ n, calLimit i = some n →
        (n < v.toInt.natAbs → exec (.setCal .pf 0 tag a) s = .next ((is 0x1D).done 0 eRange)) ∧
        (v.toInt.natAbs ≤ n → s.calAccepted i = true → 4 ≤ i → exec (.setCal .pf 0 tag a) s =
          .next (({ is 0x1D with power := { s.power with user := s.power.user.put i v } } : State).done 0 eOk)) ∧
        (v.toInt.natAbs ≤ n → i < 4 → exec (.setCal .pf 0 tag a) s =
          .next (if badSetpoint (s.power.userNext.put i v) i then (is 0x1D).done 0 eRange
            else ({ is 0x1D with power := { s.power with userNext := s.power.userNext.put i v } } : State).done 0 eOk)))) ∧
    (∀ k, Accepts s .d [(0, 1)] .pf 0 (withKind a k) →
      let u : State := s.rung 0x1E .pf 0 tag (withKind a k)
      let due (q : Source) : Host.Outcome State Fault Refusal :=
        .next (({ u with resets := { s.resets with cmd := s.resets.cmd ++ [(q, s.beats)] } } : State).done 0 eOk)
      (k = 0 → exec (.resetWarm .pf 0 tag a) s = due .cmdWarm) ∧ (k = 1 → exec (.resetCold .pf 0 tag a) s = due .cmdCold) ∧
      (k = 2 → exec (.resetHubCpu .pf 0 tag a) s = .next (hubRestart (u.done 0 eOk))) ∧
      (k = 3 → exec (.resetPcieEp .pf 0 tag a) s = .next (endpointReset (u.done 0 eOk))) ∧
      (k = 4 → exec (.resetFuseCtl .pf 0 tag a) s = .next (u.done 0 eOk)) ∧
      (k = 5 → s.anyGranted = true → exec (.resetCadence .pf 0 tag a) s = .next (u.done 0 eNotidle)) ∧
      (k = 5 → s.anyGranted = false → exec (.resetCadence .pf 0 tag a) s = .next ((resetCadence u).done 0 eOk)))

/-! ### Registers, blocks and the side ports (17_host_interface.md, 18_reset_clocks_power.md, 19_pins_and_package.md) -/

/-- Register rows through a function that answers: an acknowledgement with the current sequence clears the bits, another
nothing; a latching read returns the value and keeps the high half; an unaligned access, and one of a function that does not answer, is an
unsupported request without effect; the snapshot, the window headers and the tails are written as their rules say. -/
def Rules.RegisterRowsAct : Prop :=
  ∀ (s : State) (fn : Fn) (rg : RegionId),
    let r := windowOf fn rg
    let refused : State := { s with hub := { s.hub with ur := true } }
    let clean (place : Nat) : State := s.regionClean r 0 place
    (∀ (off : BitVec 24) seq v, s.answers fn = false ∨ off.toNat % 4 ≠ 0 → exec (.latchingRead fn off) s = .next refused ∧
      exec (.eventAck fn off seq) s = .next refused ∧ exec (.registerWrite fn off v) s = .next refused) ∧
    (s.opens fn = true →
    (∀ seq, (seq = s.hub.evt.seq → exec (.eventAck .pf 0x104 seq) s = .next { s with hub := { s.hub with
        ur := false, evt := { s.hub.evt with bits := 0 }, msix := s.hub.msix.filter (fun m => m != (0, 0)) } }) ∧
      (seq ≠ s.hub.evt.seq → exec (.eventAck .pf 0x104 seq) s =
        .next { s with hub := { s.hub with ur := false, msix := s.hub.msix.filter (fun m => m != (0, 0)) } })) ∧
    (∀ off : BitVec 24, off.toNat % 4 = 0 → ∃ u : State, exec (.latchingRead fn off) s = .next u ∧
      u.hub.readData = s.regRead fn (fnNo fn) off.toNat ∧ u.hub.ur = false ∧
      u.latch (fnNo fn) = s.latchRead fn (fnNo fn) off.toNat ∧ u.tiles = s.tiles ∧ u.objs = s.objs ∧ u.regions = s.regions ∧
      u.mem = s.mem) ∧
    ((s.latchRead .pf 0 0x308).beatHi = s.cad.beat.extractLsb' 32 16 ∧ (s.latchRead .pf 0 0x308).lap = s.cad.lap) ∧
    (∀ v, exec (.syncVsel fn rg v) s = .next ((clean 0x500).modRegion r (fun g => match fn with
      | .pf => { g with vselPf := s.snapshot fn r (v.extractLsb' 0 16) }
      | .vf _ => { g with vselVf := s.snapshot fn r (v.extractLsb' 0 16) }))) ∧
    (∀ win v, (Word.bits v 0 16 < 16 → exec (.xwinWrite fn rg win v) s = .next s) ∧
      (16 ≤ Word.bits v 0 16 → exec (.xwinWrite fn rg win v) s =
        .next ((clean (0x1000 + 4 * win.toNat)).modRegion r (fun g => { g with xwin := g.xwin.put win.toNat (v &&& 0x1FFFF#32) })))) ∧
    (∀ v, exec (.expTailWrite fn rg v) s = .next (s.modRegion r (fun g => { g with exp := { g.exp with tail := v } }))) ∧
    (∀ v, let q := (s.region r).faults
      ((q.head - q.tail).toNat < ((v.extractLsb' 0 10 : BitVec 10) - q.tail).toNat → exec (.hazTailWrite fn rg v) s = .next s) ∧
      (((v.extractLsb' 0 10 : BitVec 10) - q.tail).toNat ≤ (q.head - q.tail).toNat → exec (.hazTailWrite fn rg v) s =
        .next ((clean 0x218).modRegion r (fun g => { g with faults := { g.faults with tail := v.extractLsb' 0 10 } })))))

/-- REGISTER_WRITE: offset 0 rings the doorbell of the opcode it holds over the argument block; the argument words and
BRAKE_LIMIT are written; a write before READY, and one of a read-only register, is ignored. -/
def Rules.RegisterWritesReachTheirRegister : Prop :=
  ∀ (s : State) (fn : Fn) (v : Word),
    let u : State := { s with hub := { s.hub with ur := false } }
    let prov (off : Nat) : State := u.parityClean (fun h => h.region.isNone && h.loc == parityAt 4 off)
    (s.answers fn = true → s.resets.ready = false →
      ∀ off : BitVec 24, off.toNat % 4 = 0 → exec (.registerWrite fn off v) s = .next u) ∧
    (s.opens fn = true →
      exec (.registerWrite fn 0 v) s =
        doorbell (Word.bits v 0 8) fn (v.extractLsb' 8 6) (v.extractLsb' 16 16) (s.mail (fnNo fn)).args u ∧
      (∀ off : BitVec 24, 0x10 ≤ off.toNat → off.toNat < 0x50 → off.toNat % 4 = 0 → exec (.registerWrite fn off v) s =
        .next (u.modMail (fnNo fn) (fun m => { m with args := Word.put m.args (8 * (off.toNat - 0x10)) 32 v.toNat }))) ∧
      (∀ n, fn = .vf n →
        (Word.bits v 0 24 < 1250 → exec (.registerWrite fn 0x110 v) s = .next u) ∧
        (1250 ≤ Word.bits v 0 24 → exec (.registerWrite fn 0x110 v) s =
          .next ((u.regionClean n 0 0x110).modRegion n (fun g => { g with brake := { g.brake with limit := v.extractLsb' 0 24 } }))) ∧
        exec (.registerWrite fn 0x100 v) s = .next u ∧ exec (.registerWrite fn 0x10C v) s = .next u) ∧
      (fn = .pf → exec (.registerWrite fn 0x200 v) s = .next (prov 0x200) ∧ exec (.registerWrite fn 0x27C v) s = .next (prov 0x27C) ∧
        exec (.registerWrite fn 0x2028 v) s = .next { prov 0x2028 with hub := { u.hub with fwLen := v.extractLsb' 0 23 } } ∧
        exec (.registerWrite fn 0x20C0 v) s = .next { prov 0x20C0 with power := { s.power with calSel := v.extractLsb' 0 16 } })) ∧
    (∀ op rg tag a, op = 0 ∨ 0x1E < op → op < 256 → Accepts s .f [(0, 64)] fn 0 a →
      doorbell op fn rg tag a s = .next ((s.rung op fn 0 tag a).done (fnNo fn) eBadop))

/-- Acknowledgements, latching reads and register writes. -/
def Obligations.RegistersActAndAreWritten : Prop := Rules.RegisterRowsAct ∧ Rules.RegisterWritesReachTheirRegister

/-- A block reset sends an idle request to a unit no running region owns, and BUSY sets; one of a unit that a running region owns
answers 2, of a unit that does not exist 3, and a further one while BUSY is set is ignored. The unit, once idle, is reset and quarantined
with answer 0, BUSY clear and each quarantine raised as an event; one not idle after 100 µs answers 1. -/
def Rules.BlockResetsClearTheirUnit : Prop :=
  ∀ (s : State) (idx : BitVec 12) (idle : Bool),
    let res (n : BitVec 2) (u : State) : State := { u with resets := { u.resets with blkResult := n, blk := none } }
    let i := idx.toNat
    let out (cls : Nat) : State :=
      if s.ownerRuns (blkMembers cls i) then res 2 s else { s with resets := { s.resets with blk := some (cls, i, idle, s.beats) } }
    (s.resets.blk.isSome = true → exec (.blkRstTileColumn idx idle) s = .next s ∧ exec (.blkRstLinkPort idx idle) s = .next s ∧
      exec (.blkRstHbmChannel idx idle) s = .next s ∧ exec (.blkRstLpddrChannel idx idle) s = .next s ∧
      exec (.blkRstUpdateUnit idx idle) s = .next s) ∧
    (∀ cls n since, s.resets.blk = some (cls, n, idle, since) →
      (idle = true → blockCycle s = res 0 ((blkMembers cls n).foldl (fun u m => quarantine m u) (clearUnit cls n s))) ∧
      (idle = false → (since + 12500 ≤ s.beats → blockCycle s = res 1 s) ∧ (s.beats < since + 12500 → blockCycle s = s))) ∧
    (s.opens .pf = true → s.resets.blk = none →
      (i < s.columns → exec (.blkRstTileColumn idx idle) s = .next (out 0)) ∧
      (s.columns ≤ i → exec (.blkRstTileColumn idx idle) s = .next (res 3 s)) ∧
      (i < 12 → exec (.blkRstLinkPort idx idle) s = .next (out 1)) ∧ (12 ≤ i → exec (.blkRstLinkPort idx idle) s = .next (res 3 s)) ∧
      (i < 256 → exec (.blkRstHbmChannel idx idle) s = .next (out 2)) ∧ (256 ≤ i → exec (.blkRstHbmChannel idx idle) s = .next (res 3 s)) ∧
      (i < 64 → exec (.blkRstLpddrChannel idx idle) s = .next (out 3) ∧ exec (.blkRstUpdateUnit idx idle) s = .next (out 4)) ∧
      (64 ≤ i → exec (.blkRstLpddrChannel idx idle) s = .next (res 3 s) ∧ exec (.blkRstUpdateUnit idx idle) s = .next (res 3 s))) ∧
    (s.opens .pf = false → exec (.blkRstTileColumn idx idle) s = .next s)

/-- HUB_FW_GO and HUB_FW_LOAD_DONE: a length the rules allow begins a fetch, another fails with E_RANGE; the fetched image runs
if it is signed by the firmware key, a missing one fails with E_TIMEOUT, a wrong one with E_AUTH. -/
def Rules.HubFirmwareLoads : Prop :=
  ∀ s : State,
    let n := s.hub.fwLen.toNat
    let set (st : BitVec 2) (c : Nat) : State := { s with hub := { s.hub with fwState := st, fwResult := BitVec.ofNat 8 c } }
    (s.loaderStopped = true → exec .hubFwGo s = .next s) ∧
    (s.opens .pf = true → s.hub.fwState = 0 ∨ s.hub.fwState = 3 → s.loaderStopped = false →
      (n % 16 = 0 → 192 ≤ n → n ≤ 0x400000 → s.hub.fwAddr.toNat % 4096 = 0 →
        exec .hubFwGo s = .next { s with hub := { s.hub with fwState := 1 } }) ∧
      (n % 16 ≠ 0 ∨ n < 192 ∨ 0x400000 < n ∨ s.hub.fwAddr.toNat % 4096 ≠ 0 → exec .hubFwGo s = .next (set 3 eRange))) ∧
    (s.hub.fwState = 1 ∨ s.hub.fwState = 2 → exec .hubFwGo s = .next s) ∧
    (s.hub.fwState = 1 →
      exec (.hubFwLoadDone none) s = .next (set 3 eTimeout) ∧
      ∀ img, exec (.hubFwLoadDone (some img)) s = .next (if signedBy img Config.firmwareKeyHash then set 2 eOk else set 3 eAuth))

/-- The SMBus and JTAG: the target at 0x60 + SMB_ADDR takes a pointer of three bytes once READY; a block read returns the register at
the pointer and moves the pointer on by 4; the version is 1, before READY too; another command code, a wrong packet error code and any other
call before READY are answered with NACK; IDCODE shifts out 0x0618_04F3. That another address gives no answer, and that TRST_N
selects IDCODE, is the model's choice (log entry 105). -/
def Rules.TheSidePortsAnswer : Prop :=
  ∀ (s : State) (m : SmbusCall),
    let nack : State := { s with hub := { s.hub with smbAck := false, smbOut := [] } }
    let mine : Prop := s.resets.pwrgood = true ∧ m.addr.toNat = 0x60 + s.resets.straps.toNat % 4
    let ack (out : List Byte) : State := { s with hub := { s.hub with smbAck := true, smbOut := out } }
    let closed (sent out : List Byte) : List Byte := if m.pec = none then out else out ++ [pecOf (sent ++ out)]
    (mine → s.resets.ready = true →
      (∀ x y z : Byte, m.code = 1 → (∀ c, m.pec = some c → c = pecOf [smbAddrByte m false, 1, 3, x, y, z]) →
        exec (.smbusSetPointer [x, y, z] m) s = .next { ack [] with hub := { (ack []).hub with smbPtr := z ++ y ++ x } }) ∧
      (∀ v, m.code = 2 → v = (if smbReadable s.hub.smbPtr.toNat = true then s.regRead .pf smbReader s.hub.smbPtr.toNat else 0) →
        ∃ u : State, exec (.smbusBlockRead m) s = .next u ∧ u.hub.smbAck = true ∧ u.hub.smbPtr = s.hub.smbPtr + 4 ∧
          u.hub.smbOut = closed [smbAddrByte m false, 2, smbAddrByte m true, 4] (leBytes 4 v.toNat) ∧
          u.tiles = s.tiles ∧ u.regions = s.regions ∧ u.mem = s.mem)) ∧
    (∀ b c, b.length ≠ 3 ∨ m.code ≠ 1 ∨ s.resets.ready = false ∨ ¬ mine ∨
        (m.pec = some c ∧ c ≠ pecOf ([smbAddrByte m false, m.code, BitVec.ofNat 8 b.length] ++ b)) →
      exec (.smbusSetPointer b m) s = .next nack) ∧
    (m.code ≠ 2 ∨ s.resets.ready = false ∨ ¬ mine → exec (.smbusBlockRead m) s = .next nack) ∧
    (m.code ≠ 3 ∨ ¬ mine → exec (.smbusVersionRead m) s = .next nack) ∧
    (mine → m.code = 3 → exec (.smbusVersionRead m) s =
      .next (ack (closed [smbAddrByte m false, 3, smbAddrByte m true] [0x01]))) ∧
    (∀ ir t, t < 100 → ir ≠ .extest → exec (.jtagInstruction ir t) s = .next { s with hub := { s.hub with jtag := ir } }) ∧
    (∀ t, t < 100 → exec (.jtagInstruction .extest t) s = .next { s with hub := { s.hub with jtag := .bypass } }) ∧
    (∀ ir t, 1000 ≤ t → exec (.jtagInstruction ir t) s = .next { s with hub := { s.hub with jtag := .idcode } }) ∧
    (∀ ir t, 100 ≤ t → t < 1000 → let u : State := { s with free := s.free + 1 }
      exec (.jtagInstruction ir t) s = exec (.jtagInstruction ir 0) u ∨ exec (.jtagInstruction ir t) s = exec (.jtagInstruction ir 1000) u) ∧
    (s.hub.jtag = .idcode → s.jtagCapture = some 0x061804F3)

/-- Block resets, hub firmware, SMBus and JTAG. -/
def Obligations.BlockResetsFirmwareAndSidePorts : Prop := Rules.BlockResetsClearTheirUnit ∧ Rules.HubFirmwareLoads ∧ Rules.TheSidePortsAnswer

/-! ### Rules of the whole machine -/

/-- Every slot operation: a slot that may not issue, and a word that another operation spells, does nothing (the model's choice, log
entry 2). A reserved OP, a reserved FN and a bit that must be zero fault ILLEGAL_OP with the word as DETAIL, whatever the guard, after
everything the bundle did is taken back, and the rest of the bundle has no effect. -/
def Rules.WrongWordsFault : Prop :=
  (∀ q ∈ slotCommands, ∀ (s : State) (t : TileId) (w : SlotWord),
    (s.mayIssue t q.1 w = none → exec (q.2.2 t w) s = .next s) ∧
    (opOf w ≠ q.2.1 → (decodeOp q.1 (opOf w)).isSome = true → exec (q.2.2 t w) s = .next s)) ∧
  (∀ (s : State) (slot : Slot) (t : TileId) (w : SlotWord) (r : RegionId), s.mayIssue t slot w = some r →
    ((s.opened r t).tile t).ctl.bundle.map (·.mode) = some .live →
    let o := s.opened r t
    let f := ((o.undoBundle r t).core t (fun c => c.noteSlot slot .void)).raise r (some t)
      (some (slot, (o.tile t).ctl.pc)) fIllegalOp w.toNat
    let faulted : Host.Outcome State Fault Refusal := .next (if slot = .s then f.core t (fun c => { c with bundle := none }) else f)
    (opOf w ≠ 0 → decodeOp slot (opOf w) = none → exec (.nop t slot w) s = faulted) ∧
    (slot = .s → opOf w = 0x01 → 0x0E ≤ fnOf w → exec (.alu t w) s = faulted) ∧
    (slot = .s → opOf w = 0x28 → Word.bits w 17 5 ≠ 0 → exec (.ssig t w) s = faulted) ∧
    (slot = .m → opOf w = 0x01 → Word.bits w 0 17 ≠ 0 → exec (.mpass t w) s = faulted) ∧
    (slot = .v → opOf w = 0x04 → Word.bits w 0 19 ≠ 0 → exec (.vrun t w) s = faulted) ∧
    (slot = .x → opOf w = 0x06 → Word.bits w 8 14 ≠ 0 → exec (.xsel t w) s = faulted) ∧
    (slot = .x → opOf w = 0x22 → Word.bits w 0 20 ≠ 0 → exec (.chclose t w) s = faulted))

/-- A false guard: the encoding is still checked; a legal word then has no effect, and its slot counts as issued. -/
def Rules.FalseGuardsHaveNoEffect : Prop :=
  ∀ (s : State) (slot : Slot) (t : TileId) (w : SlotWord) (r : RegionId), s.mayIssue t slot w = some r →
    ((s.opened r t).tile t).ctl.bundle.map (·.mode) = some .live → ((s.opened r t).tile t).ctl.guard w = false →
    let skipped : Host.Outcome State Fault Refusal := .next ((s.opened r t).issued r t slot .seq)
    (slot = .s → opOf w = 0x02 → exec (.addi t w) s = skipped) ∧
    (slot = .s → opOf w = 0x01 → fnOf w < 0x0E → exec (.alu t w) s = skipped) ∧
    (slot = .s → opOf w = 0x1F → exec (.endOp t w) s = skipped) ∧
    (slot = .s → opOf w = 0x28 → Word.bits w 17 5 = 0 → Word.bits w 0 12 ≠ 0 → exec (.ssig t w) s = skipped) ∧
    (slot = .m → opOf w = 0x01 → Word.bits w 0 17 = 0 → exec (.mpass t w) s = skipped) ∧
    (slot = .v → opOf w = 0x04 → Word.bits w 0 19 = 0 → exec (.vrun t w) s = skipped) ∧
    (slot = .x → opOf w = 0x06 → Word.bits w 8 14 = 0 → exec (.xsel t w) s = skipped) ∧
    (slot = .x → opOf w = 0x22 → Word.bits w 0 20 = 0 → exec (.chclose t w) s = skipped)

/-- Wrong words fault and take their bundle back; a false guard has no effect. -/
def Obligations.OperationsThatHaveNoEffect : Prop := Rules.WrongWordsFault ∧ Rules.FalseGuardsHaveNoEffect

/-- A fault of a region: a record joins the first sixteen in their order, further ones are counted; a region that was not
halting begins to halt at this wall cycle, its old records gone and REGION_FAULT raised in both event registers; the tile
it is charged to stops; no other tile and no byte of memory changes. -/
def Obligations.FaultsAreRecorded : Prop :=
  ∀ (s : State) (r : RegionId) (tile : Option TileId) (site : Option (Slot × BitVec 11)) (code detail : Nat),
    let g := s.region r
    let u := s.raise r tile site code detail
    let f := (u.region r).faults
    let old := if g.halting then g.faults.recs else []
    let lost := if g.halting then g.faults.lost else 0
    (∃ (x : FaultRec) (a b : List FaultRec), old = a ++ b ∧ f.recs = (a ++ x :: b).take 16 ∧
      (∀ y ∈ a, x.before y = false) ∧ (∀ y, b.head? = some y → x.before y = true) ∧
      x.code = BitVec.ofNat 8 code ∧ x.detail = BitVec.ofNat 64 detail ∧ x.region = r ∧ x.tile = tile ∧ x.cyc = g.cycle ∧
      x.seq = g.faults.seq ∧ x.beat = s.cad.beat ∧ x.lap = s.cad.lap ∧ x.slot = site.map (·.1) ∧
      (∀ q, site = some q → x.pc = q.2)) ∧
    (old.length < 16 → f.lost = lost) ∧ (16 ≤ old.length → f.lost = Word.satAdd lost 1) ∧ f.seq = g.faults.seq + 1 ∧
    (g.halting = false → (u.region r).brake.haltAt = some s.wall ∧ (u.region r).evtVf = g.evtVf.event 1 ∧
      (u.region r).evtPf = g.evtPf.event 1) ∧
    (g.halting = true → (u.region r).brake = g.brake ∧ (u.region r).evtVf = g.evtVf ∧ (u.region r).evtPf = g.evtPf) ∧
    (u.region r).halting = true ∧ (u.region r).st = g.st ∧
    (∀ t, tile = some t → u.tile t = { s.tile t with ctl := { (s.tile t).ctl with run := .stopped } }) ∧
    (∀ t, tile ≠ some t → u.tile t = s.tile t) ∧ (∀ q, q ≠ r → u.region q = s.region q) ∧
    u.mem = s.mem ∧ u.objs = s.objs ∧ u.fuses = s.fuses

/-- The state before the supplies are good: no command waits; registers hold what the Reset column of their tables states.
That a tile no region owns stands in entry hold at bundle 0 with its general registers zero is the model's choice (log
entries 3 and 7). -/
def Obligations.ResetLeavesTheStatedValues : Prop :=
  let s := State.reset
  s.pending = [] ∧ s.resets.ready = false ∧ s.resets.count = 0 ∧ s.resets.cause = 0 ∧
  s.power.cur = 0 ∧ s.power.ceil = 0 ∧ s.power.cap = 1900 ∧ s.power.now = 0 ∧
  s.cad.locked = false ∧ s.cad.beat = 0 ∧ s.cad.hops = 0 ∧ s.ident.dev = 0xFFFF ∧ s.ident.ident = false ∧
  s.frame.loaded = false ∧ s.frame.epoch = 0 ∧ s.hub.fwState = 0 ∧ s.hub.evt.bits = 0 ∧ s.hub.evt.seq = 0 ∧
  (∀ r : RegionId, (s.region r).st = .unconfigured ∧ (s.region r).brake.limit.toNat = 125000 ∧ (s.region r).brake.count = 0 ∧
    (s.region r).brake.beats = 0 ∧ (s.region r).evtVf.bits = 0 ∧ (s.region r).fw.st = .unconfigured ∧
    (s.region r).upd.step = 0 ∧ (s.region r).mem.root = 0 ∧ s.regionOf 0 ≠ some r) ∧
  (∀ t : TileId, (s.tile t).ctl.run = .entryHold ∧ (s.tile t).ctl.pc = 0 ∧ (∀ k, (s.tile t).ctl.reg k = 0) ∧
    (s.tile t).matrix.valid = 0 ∧ (s.tile t).guards.thClip = 0xFFFFFFFF ∧ (s.tile t).guards.thAudMax = 0x7F800000 ∧
    (s.tile t).freeEntries = 16 ∧ ∀ ch, ((s.tile t).chan ch).st = .closed) ∧
  (∀ p : PortId, (s.port p).st = .down ∧ (s.port p).nbrDev = 0xFFFF ∧ (s.port p).evt.bits = 0) ∧
  (∀ f, (s.mail f).busy = false ∧ (s.mail f).code = 0 ∧ (s.mail f).tag = 0) ∧
  (∀ o, s.obj o = SyncObj.reset)

/-- No command touches the queue: only the step takes commands from it, so they are performed first in, first out. -/
def Obligations.CommandsKeepTheQueue : Prop :=
  ∀ (c : Instr) (s u : State), exec c s = .next u → u.pending = s.pending

/-- Every step keeps the fuses within what the part can burn. -/
def Obligations.StepsKeepTheFusesWithin : Prop :=
  ∀ s u : State, FusesWithin s → step s = .next u → FusesWithin u

/-- At reset the fuses are within what the part can burn. -/
def Obligations.ResetFusesAreWithin : Prop := FusesWithin State.reset

/-! ### Conversions (04_number_formats.md) -/

/-- A NaN input gives the canonical positive quiet NaN where the destination has NaN and +0 in E2M1 or T2, and counts one
NaN; its sign and payload are lost. -/
def Rules.NansConvertToTheCanonicalNan : Prop :=
  ∀ (src d : Format) (code : Nat) (ovf : Ovf) (dir : Dir) (ss sd : Scale), decode src code = .nan →
    cvt src (ss.apply (decode src code)) d ovf dir sd =
      ((match d with
        | .fp64 => 0x7FF8_0000_0000_0000
        | .fp32 => 0x7FC0_0000
        | .bf16 => 0x7FC0
        | .fp16 => 0x7E00
        | .e4m3 => 0x7F
        | .e5m2 => 0x7F
        | .e2m1 => 0
        | .t2 => 0), { clip := 0, uflow := 0, nan := 1, subflush := 0 })

/-- Converting an element to its own format, unscaled: a finite nonzero element comes back code for code and counts
nothing, whatever the rounding and the overflow rule; but for an FP32 or FP64 subnormal, which gives +0 and counts one
subflush. A zero of either sign gives +0 and counts nothing. -/
def Rules.ElementsConvertToThemselves : Prop :=
  ∀ (f : Format) (code : Nat) (neg : Bool) (m : Nat) (e : Int) (ovf : Ovf) (dir : Dir),
    code < 2 ^ f.width → decode f code = .fin neg m e → ¬ (f = .t2 ∧ code = 2) →
    cvt f (decode f code) f ovf dir .none_ =
      if m = 0 then (0, { clip := 0, uflow := 0, nan := 0, subflush := 0 })
      else if (f = .fp32 ∧ code / 2 ^ 23 % 2 ^ 8 = 0) ∨ (f = .fp64 ∧ code / 2 ^ 52 % 2 ^ 11 = 0) then
        (0, { clip := 0, uflow := 0, nan := 0, subflush := 1 })
      else (code, { clip := 0, uflow := 0, nan := 0, subflush := 0 })

/-- NaN inputs give the canonical NaN; an element converted to its own format keeps its code. -/
def Obligations.ConversionsKeepValuesAndNans : Prop := Rules.NansConvertToTheCanonicalNan ∧ Rules.ElementsConvertToThemselves
end

