-- ==== Sys2Proof/Laws/Exec.lean ====
section
/-!
SUPPORT. Sys2Proof/Laws/Exec.lean: the meaning of each command by name, so that no proof unfolds the dispatch.
-/
namespace Sys2Proof.Machine

@[simp] theorem exec_nop (s : State) (t) (slot) (w) : exec (.nop t slot w) s = execNop t slot w s := rfl
@[simp] theorem exec_alu (s : State) (t) (w) : exec (.alu t w) s = execAlu t w s := rfl
@[simp] theorem exec_addi (s : State) (t) (w) : exec (.addi t w) s = execAddi t w s := rfl
@[simp] theorem exec_andi (s : State) (t) (w) : exec (.andi t w) s = execAndi t w s := rfl
@[simp] theorem exec_ori (s : State) (t) (w) : exec (.ori t w) s = execOri t w s := rfl
@[simp] theorem exec_xori (s : State) (t) (w) : exec (.xori t w) s = execXori t w s := rfl
@[simp] theorem exec_shi (s : State) (t) (w) : exec (.shi t w) s = execShi t w s := rfl
@[simp] theorem exec_lui (s : State) (t) (w) : exec (.lui t w) s = execLui t w s := rfl
@[simp] theorem exec_setp (s : State) (t) (w) : exec (.setp t w) s = execSetp t w s := rfl
@[simp] theorem exec_plog (s : State) (t) (w) : exec (.plog t w) s = execPlog t w s := rfl
@[simp] theorem exec_br (s : State) (t) (w) : exec (.br t w) s = execBr t w s := rfl
@[simp] theorem exec_call (s : State) (t) (w) : exec (.call t w) s = execCall t w s := rfl
@[simp] theorem exec_jr (s : State) (t) (w) : exec (.jr t w) s = execJr t w s := rfl
@[simp] theorem exec_loopi (s : State) (t) (w) : exec (.loopi t w) s = execLoopi t w s := rfl
@[simp] theorem exec_loopr (s : State) (t) (w) : exec (.loopr t w) s = execLoopr t w s := rfl
@[simp] theorem exec_fop (s : State) (t) (w) : exec (.fop t w) s = execFop t w s := rfl
@[simp] theorem exec_dop (s : State) (t) (w) : exec (.dop t w) s = execDop t w s := rfl
@[simp] theorem exec_fsetp (s : State) (t) (w) : exec (.fsetp t w) s = execFsetp t w s := rfl
@[simp] theorem exec_mfc (s : State) (t) (w) : exec (.mfc t w) s = execMfc t w s := rfl
@[simp] theorem exec_mtc (s : State) (t) (w) : exec (.mtc t w) s = execMtc t w s := rfl
@[simp] theorem exec_rowld (s : State) (t) (w) : exec (.rowld t w) s = execRowld t w s := rfl
@[simp] theorem exec_rowst (s : State) (t) (w) : exec (.rowst t w) s = execRowst t w s := rfl
@[simp] theorem exec_ldw (s : State) (t) (w) : exec (.ldw t w) s = execLdw t w s := rfl
@[simp] theorem exec_stw (s : State) (t) (w) : exec (.stw t w) s = execStw t w s := rfl
@[simp] theorem exec_cqrd (s : State) (t) (w) : exec (.cqrd t w) s = execCqrd t w s := rfl
@[simp] theorem exec_endOp (s : State) (t) (w) : exec (.endOp t w) s = execEndOp t w s := rfl
@[simp] theorem exec_ssig (s : State) (t) (w) : exec (.ssig t w) s = execSsig t w s := rfl
@[simp] theorem exec_ssigr (s : State) (t) (w) : exec (.ssigr t w) s = execSsigr t w s := rfl
@[simp] theorem exec_swait (s : State) (t) (w) : exec (.swait t w) s = execSwait t w s := rfl
@[simp] theorem exec_sread (s : State) (t) (w) : exec (.sread t w) s = execSread t w s := rfl
@[simp] theorem exec_sbar (s : State) (t) (w) : exec (.sbar t w) s = execSbar t w s := rfl
@[simp] theorem exec_sarr (s : State) (t) (w) : exec (.sarr t w) s = execSarr t w s := rfl
@[simp] theorem exec_sbwait (s : State) (t) (w) : exec (.sbwait t w) s = execSbwait t w s := rfl
@[simp] theorem exec_scfg (s : State) (t) (w) : exec (.scfg t w) s = execScfg t w s := rfl
@[simp] theorem exec_mpass (s : State) (t) (w) : exec (.mpass t w) s = execMpass t w s := rfl
@[simp] theorem exec_mdrain (s : State) (t) (w) : exec (.mdrain t w) s = execMdrain t w s := rfl
@[simp] theorem exec_mdld (s : State) (t) (w) : exec (.mdld t w) s = execMdld t w s := rfl
@[simp] theorem exec_vdld (s : State) (t) (w) : exec (.vdld t w) s = execVdld t w s := rfl
@[simp] theorem exec_vjld (s : State) (t) (w) : exec (.vjld t w) s = execVjld t w s := rfl
@[simp] theorem exec_vpld (s : State) (t) (w) : exec (.vpld t w) s = execVpld t w s := rfl
@[simp] theorem exec_vrun (s : State) (t) (w) : exec (.vrun t w) s = execVrun t w s := rfl
@[simp] theorem exec_vruna (s : State) (t) (w) : exec (.vruna t w) s = execVruna t w s := rfl
@[simp] theorem exec_vmode (s : State) (t) (w) : exec (.vmode t w) s = execVmode t w s := rfl
@[simp] theorem exec_xrld (s : State) (t) (w) : exec (.xrld t w) s = execXrld t w s := rfl
@[simp] theorem exec_xvld (s : State) (t) (w) : exec (.xvld t w) s = execXvld t w s := rfl
@[simp] theorem exec_xsend (s : State) (t) (w) : exec (.xsend t w) s = execXsend t w s := rfl
@[simp] theorem exec_xrecv (s : State) (t) (w) : exec (.xrecv t w) s = execXrecv t w s := rfl
@[simp] theorem exec_xdue (s : State) (t) (w) : exec (.xdue t w) s = execXdue t w s := rfl
@[simp] theorem exec_xsel (s : State) (t) (w) : exec (.xsel t w) s = execXsel t w s := rfl
@[simp] theorem exec_clreq (s : State) (t) (w) : exec (.clreq t w) s = execClreq t w s := rfl
@[simp] theorem exec_xmov (s : State) (t) (w) : exec (.xmov t w) s = execXmov t w s := rfl
@[simp] theorem exec_dmld (s : State) (t) (w) : exec (.dmld t w) s = execDmld t w s := rfl
@[simp] theorem exec_dmard (s : State) (t) (w) : exec (.dmard t w) s = execDmard t w s := rfl
@[simp] theorem exec_dmawr (s : State) (t) (w) : exec (.dmawr t w) s = execDmawr t w s := rfl
@[simp] theorem exec_dmaacc (s : State) (t) (w) : exec (.dmaacc t w) s = execDmaacc t w s := rfl
@[simp] theorem exec_dmazf (s : State) (t) (w) : exec (.dmazf t w) s = execDmazf t w s := rfl
@[simp] theorem exec_dmaxr (s : State) (t) (w) : exec (.dmaxr t w) s = execDmaxr t w s := rfl
@[simp] theorem exec_chopen (s : State) (t) (w) : exec (.chopen t w) s = execChopen t w s := rfl
@[simp] theorem exec_chsend (s : State) (t) (w) : exec (.chsend t w) s = execChsend t w s := rfl
@[simp] theorem exec_chclose (s : State) (t) (w) : exec (.chclose t w) s = execChclose t w s := rfl
@[simp] theorem exec_cqrow (s : State) (t) (w) : exec (.cqrow t w) s = execCqrow t w s := rfl
@[simp] theorem exec_haltEngage (s : State) (r) : exec (.haltEngage r) s = execHaltEngage r s := rfl
@[simp] theorem exec_stallResume (s : State) (t) : exec (.stallResume t) s = execStallResume t s := rfl
@[simp] theorem exec_scoreboardClear (s : State) (t) (e) : exec (.scoreboardClear t e) s = execScoreboardClear t e s := rfl
@[simp] theorem exec_scrubWindow (s : State) (t) (tm) (pm) : exec (.scrubWindow t tm pm) s = execScrubWindow t tm pm s := rfl
@[simp] theorem exec_scrubPassStart (s : State) : exec (.scrubPassStart) s = execScrubPassStart s := rfl
@[simp] theorem exec_matrixPassComplete (s : State) (t) : exec (.matrixPassComplete t) s = execMatrixPassComplete t s := rfl
@[simp] theorem exec_drainComplete (s : State) (t) : exec (.drainComplete t) s = execDrainComplete t s := rfl
@[simp] theorem exec_vectorJobEnd (s : State) (t) : exec (.vectorJobEnd t) s = execVectorJobEnd t s := rfl
@[simp] theorem exec_asyncJobComplete (s : State) (t) (k) : exec (.asyncJobComplete t k) s = execAsyncJobComplete t k s := rfl
@[simp] theorem exec_syncOpArrival (s : State) (r) (obj) : exec (.syncOpArrival r obj) s = execSyncOpArrival r obj s := rfl
@[simp] theorem exec_releaseWake (s : State) (r) (obj) : exec (.releaseWake r obj) s = execReleaseWake r obj s := rfl
@[simp] theorem exec_waiterWake (s : State) (t) : exec (.waiterWake t) s = execWaiterWake t s := rfl
@[simp] theorem exec_exchangeWindowOpen (s : State) (r) : exec (.exchangeWindowOpen r) s = execExchangeWindowOpen r s := rfl
@[simp] theorem exec_exchangeWindowEnd (s : State) (r) : exec (.exchangeWindowEnd r) s = execExchangeWindowEnd r s := rfl
@[simp] theorem exec_compiledRowArrival (s : State) (t) : exec (.compiledRowArrival t) s = execCompiledRowArrival t s := rfl
@[simp] theorem exec_armedReceiveMissed (s : State) (t) : exec (.armedReceiveMissed t) s = execArmedReceiveMissed t s := rfl
@[simp] theorem exec_lateItemRowWrite (s : State) (t) (item) : exec (.lateItemRowWrite t item) s = execLateItemRowWrite t item s := rfl
@[simp] theorem exec_brakeFreeze (s : State) (r) : exec (.brakeFreeze r) s = execBrakeFreeze r s := rfl
@[simp] theorem exec_brakeThaw (s : State) (r) : exec (.brakeThaw r) s = execBrakeThaw r s := rfl
@[simp] theorem exec_brakeTimeout (s : State) (r) : exec (.brakeTimeout r) s = execBrakeTimeout r s := rfl
@[simp] theorem exec_codeLoadBlock (s : State) (r) (slot) (t) : exec (.codeLoadBlock r slot t) s = execCodeLoadBlock r slot t s := rfl
@[simp] theorem exec_entryHoldRelease (s : State) (r) : exec (.entryHoldRelease r) s = execEntryHoldRelease r s := rfl
@[simp] theorem exec_chanOpenRequest (s : State) (t) (ch) : exec (.chanOpenRequest t ch) s = execChanOpenRequest t ch s := rfl
@[simp] theorem exec_chanMessageDelivery (s : State) (t) (ch) : exec (.chanMessageDelivery t ch) s = execChanMessageDelivery t ch s := rfl
@[simp] theorem exec_chanCreditReturn (s : State) (t) (ch) : exec (.chanCreditReturn t ch) s = execChanCreditReturn t ch s := rfl
@[simp] theorem exec_chanCloseMarker (s : State) (t) (port) : exec (.chanCloseMarker t port) s = execChanCloseMarker t port s := rfl
@[simp] theorem exec_pageWalk (s : State) (req) : exec (.pageWalk req) s = execPageWalk req s := rfl
@[simp] theorem exec_dmaComplete (s : State) (t) (id) : exec (.dmaComplete t id) s = execDmaComplete t id s := rfl
@[simp] theorem exec_memReadRetry (s : State) (addr) (ok) (t) (found) : exec (.memReadRetry addr ok t found) s = execMemReadRetry addr ok t s found := rfl
@[simp] theorem exec_patrolScrub (s : State) (addr) (found) : exec (.patrolScrub addr found) s = execPatrolScrub addr found s := rfl
@[simp] theorem exec_zeroSweep (s : State) (page) : exec (.zeroSweep page) s = execZeroSweep page s := rfl
@[simp] theorem exec_memTempOver (s : State) (u) : exec (.memTempOver u) s = execMemTempOver u s := rfl
@[simp] theorem exec_memTempRecover (s : State) (u) : exec (.memTempRecover u) s = execMemTempRecover u s := rfl
@[simp] theorem exec_unitReturn (s : State) (cls) (idx) (owner) (epoch) : exec (.unitReturn cls idx owner epoch) s = execUnitReturn cls idx s owner epoch := rfl
@[simp] theorem exec_unitReload (s : State) (cls) (idx) : exec (.unitReload cls idx) s = execUnitReload cls idx s := rfl
@[simp] theorem exec_frameSlotSend (s : State) (p) (frac) : exec (.frameSlotSend p frac) s = execFrameSlotSend p frac s := rfl
@[simp] theorem exec_dataFlit (s : State) (p) (f) (errs) : exec (.dataFlit p f errs) s = execDataFlit p f errs s := rfl
@[simp] theorem exec_idleFlit (s : State) (p) (f) (errs) : exec (.idleFlit p f errs) s = execIdleFlit p f errs s := rfl
@[simp] theorem exec_holdFlit (s : State) (p) (f) (errs) : exec (.holdFlit p f errs) s = execHoldFlit p f errs s := rfl
@[simp] theorem exec_ctrlFlit (s : State) (p) (f) (errs) (frac) : exec (.ctrlFlit p f errs frac) s = execCtrlFlit p f errs frac s := rfl
@[simp] theorem exec_replayTimeout (s : State) (p) : exec (.replayTimeout p) s = execReplayTimeout p s := rfl
@[simp] theorem exec_laneSignalLoss (s : State) (p) (lane) : exec (.laneSignalLoss p lane) s = execLaneSignalLoss p lane s := rfl
@[simp] theorem exec_laneUeThreshold (s : State) (p) (lane) : exec (.laneUeThreshold p lane) s = execLaneUeThreshold p lane s := rfl
@[simp] theorem exec_linkTrainingDone (s : State) (p) (bad) : exec (.linkTrainingDone p bad) s = execLinkTrainingDone p bad s := rfl
@[simp] theorem exec_trainingTimeout (s : State) (p) : exec (.trainingTimeout p) s = execTrainingTimeout p s := rfl
@[simp] theorem exec_helloTimeout (s : State) (p) : exec (.helloTimeout p) s = execHelloTimeout p s := rfl
@[simp] theorem exec_rowWr (s : State) (p) (v) : exec (.rowWr p v) s = execRowWr p v s := rfl
@[simp] theorem exec_memWr (s : State) (p) (v) : exec (.memWr p v) s = execMemWr p v s := rfl
@[simp] theorem exec_memAcc (s : State) (p) (v) : exec (.memAcc p v) s = execMemAcc p v s := rfl
@[simp] theorem exec_sig (s : State) (p) (v) : exec (.sig p v) s = execSig p v s := rfl
@[simp] theorem exec_barArr (s : State) (p) (v) : exec (.barArr p v) s = execBarArr p v s := rfl
@[simp] theorem exec_barRel (s : State) (p) (v) : exec (.barRel p v) s = execBarRel p v s := rfl
@[simp] theorem exec_barAbort (s : State) (p) (v) : exec (.barAbort p v) s = execBarAbort p v s := rfl
@[simp] theorem exec_memRej (s : State) (p) (v) : exec (.memRej p v) s = execMemRej p v s := rfl
@[simp] theorem exec_drlMove (s : State) (p) (v) : exec (.drlMove p v) s = execDrlMove p v s := rfl
@[simp] theorem exec_drlMoveDone (s : State) (p) (v) : exec (.drlMoveDone p v) s = execDrlMoveDone p v s := rfl
@[simp] theorem exec_drlRoundTimeout (s : State) (r) : exec (.drlRoundTimeout r) s = execDrlRoundTimeout r s := rfl
@[simp] theorem exec_fwMirrorData (s : State) (p) (v) : exec (.fwMirrorData p v) s = execFwMirrorData p v s := rfl
@[simp] theorem exec_fwMirrorDone (s : State) (p) (v) : exec (.fwMirrorDone p v) s = execFwMirrorDone p v s := rfl
@[simp] theorem exec_fwMirrorAck (s : State) (p) (v) : exec (.fwMirrorAck p v) s = execFwMirrorAck p v s := rfl
@[simp] theorem exec_fwRestoreRequest (s : State) (p) (v) : exec (.fwRestoreRequest p v) s = execFwRestoreRequest p v s := rfl
@[simp] theorem exec_fwRestoreData (s : State) (p) (v) : exec (.fwRestoreData p v) s = execFwRestoreData p v s := rfl
@[simp] theorem exec_fwRestoreDone (s : State) (p) (v) : exec (.fwRestoreDone p v) s = execFwRestoreDone p v s := rfl
@[simp] theorem exec_fwRestoreRefuse (s : State) (p) (v) : exec (.fwRestoreRefuse p v) s = execFwRestoreRefuse p v s := rfl
@[simp] theorem exec_restoreTimeout (s : State) (r) : exec (.restoreTimeout r) s = execRestoreTimeout r s := rfl
@[simp] theorem exec_fwMirrorStart (s : State) (r) : exec (.fwMirrorStart r) s = execFwMirrorStart r s := rfl
@[simp] theorem exec_fwRemirrorStart (s : State) (r) : exec (.fwRemirrorStart r) s = execFwRemirrorStart r s := rfl
@[simp] theorem exec_fwStall (s : State) (r) : exec (.fwStall r) s = execFwStall r s := rfl
@[simp] theorem exec_exportStart (s : State) (r) : exec (.exportStart r) s = execExportStart r s := rfl
@[simp] theorem exec_exportRecord (s : State) (r) : exec (.exportRecord r) s = execExportRecord r s := rfl
@[simp] theorem exec_exportComplete (s : State) (r) : exec (.exportComplete r) s = execExportComplete r s := rfl
@[simp] theorem exec_updStepStart (s : State) (r) : exec (.updStepStart r) s = execUpdStepStart r s := rfl
@[simp] theorem exec_updStepEnd (s : State) (r) : exec (.updStepEnd r) s = execUpdStepEnd r s := rfl
@[simp] theorem exec_syncSetApply (s : State) (fn) : exec (.syncSetApply fn) s = execSyncSetApply fn s := rfl
@[simp] theorem exec_syncSetTimeout (s : State) (fn) : exec (.syncSetTimeout fn) s = execSyncSetTimeout fn s := rfl
@[simp] theorem exec_cadenceLoadBeat (s : State) : exec (.cadenceLoadBeat) s = execCadenceLoadBeat s := rfl
@[simp] theorem exec_cadenceLoss (s : State) : exec (.cadenceLoss) s = execCadenceLoss s := rfl
@[simp] theorem exec_cadenceRecover (s : State) (err) : exec (.cadenceRecover err) s = execCadenceRecover err s := rfl
@[simp] theorem exec_powerWindow (s : State) (sample) : exec (.powerWindow sample) s = execPowerWindow sample s := rfl
@[simp] theorem exec_limitBrakeEnd (s : State) (r) : exec (.limitBrakeEnd r) s = execLimitBrakeEnd r s := rfl
@[simp] theorem exec_clockStepChange (s : State) : exec (.clockStepChange) s = execClockStepChange s := rfl
@[simp] theorem exec_clockCeilEvent (s : State) : exec (.clockCeilEvent) s = execClockCeilEvent s := rfl
@[simp] theorem exec_paritySweep (s : State) (hits) : exec (.paritySweep hits) s = execParitySweep hits s := rfl
@[simp] theorem exec_thermalTrip (s : State) : exec (.thermalTrip) s = execThermalTrip s := rfl
@[simp] theorem exec_vrFault (s : State) (reg) : exec (.vrFault reg) s = execVrFault reg s := rfl
@[simp] theorem exec_vrAlert (s : State) : exec (.vrAlert) s = execVrAlert s := rfl
@[simp] theorem exec_pwrgoodRise (s : State) (vbkupLost) (straps) : exec (.pwrgoodRise vbkupLost straps) s = execPwrgoodRise vbkupLost straps s := rfl
@[simp] theorem exec_pwrgoodFall (s : State) : exec (.pwrgoodFall) s = execPwrgoodFall s := rfl
@[simp] theorem exec_coldRstN (s : State) (ns) : exec (.coldRstN ns) s = execColdRstN ns s := rfl
@[simp] theorem exec_warmRstN (s : State) (ns) : exec (.warmRstN ns) s = execWarmRstN ns s := rfl
@[simp] theorem exec_perstN (s : State) (ns) : exec (.perstN ns) s = execPerstN s ns := rfl
@[simp] theorem exec_hubWatchdog (s : State) : exec (.hubWatchdog) s = execHubWatchdog s := rfl
@[simp] theorem exec_resetReleaseStep (s : State) (waited) (fuseOk) : exec (.resetReleaseStep waited fuseOk) s = execResetReleaseStep waited fuseOk s := rfl
@[simp] theorem exec_resetCommandStart (s : State) : exec (.resetCommandStart) s = execResetCommandStart s := rfl
@[simp] theorem exec_flr (s : State) (fn) : exec (.flr fn) s = execFlr fn s := rfl
@[simp] theorem exec_loadFrame (s : State) (fn) (rg) (tag) (a) : exec (.loadFrame fn rg tag a) s = execLoadFrame fn rg tag a s := rfl
@[simp] theorem exec_loadRegionFrame (s : State) (fn) (rg) (tag) (a) : exec (.loadRegionFrame fn rg tag a) s = execLoadRegionFrame fn rg tag a s := rfl
@[simp] theorem exec_frameLoadComplete (s : State) (image) : exec (.frameLoadComplete image) s = execFrameLoadComplete image s := rfl
@[simp] theorem exec_retireColumn (s : State) (fn) (rg) (tag) (a) : exec (.retireColumn fn rg tag a) s = execRetireColumn fn rg tag a s := rfl
@[simp] theorem exec_retireFusePulseEnd (s : State) (readback) : exec (.retireFusePulseEnd readback) s = execRetireFusePulseEnd readback s := rfl
@[simp] theorem exec_revokeKey (s : State) (fn) (rg) (tag) (a) : exec (.revokeKey fn rg tag a) s = execRevokeKey fn rg tag a s := rfl
@[simp] theorem exec_setIdentity (s : State) (fn) (rg) (tag) (a) : exec (.setIdentity fn rg tag a) s = execSetIdentity fn rg tag a s := rfl
@[simp] theorem exec_linkRetrain (s : State) (fn) (rg) (tag) (a) : exec (.linkRetrain fn rg tag a) s = execLinkRetrain fn rg tag a s := rfl
@[simp] theorem exec_cadenceSet (s : State) (fn) (rg) (tag) (a) : exec (.cadenceSet fn rg tag a) s = execCadenceSet fn rg tag a s := rfl
@[simp] theorem exec_regionGrant (s : State) (fn) (rg) (tag) (a) : exec (.regionGrant fn rg tag a) s = execRegionGrant fn rg tag a s := rfl
@[simp] theorem exec_grantComplete (s : State) (r) : exec (.grantComplete r) s = execGrantComplete r s := rfl
@[simp] theorem exec_regionRevoke (s : State) (fn) (rg) (tag) (a) : exec (.regionRevoke fn rg tag a) s = execRegionRevoke fn rg tag a s := rfl
@[simp] theorem exec_revokeComplete (s : State) (r) : exec (.revokeComplete r) s = execRevokeComplete r s := rfl
@[simp] theorem exec_mmuRoot (s : State) (fn) (rg) (tag) (a) : exec (.mmuRoot fn rg tag a) s = execMmuRoot fn rg tag a s := rfl
@[simp] theorem exec_mmuInval (s : State) (fn) (rg) (tag) (a) : exec (.mmuInval fn rg tag a) s = execMmuInval fn rg tag a s := rfl
@[simp] theorem exec_bufReg (s : State) (fn) (rg) (tag) (a) : exec (.bufReg fn rg tag a) s = execBufReg fn rg tag a s := rfl
@[simp] theorem exec_bufFree (s : State) (fn) (rg) (tag) (a) : exec (.bufFree fn rg tag a) s = execBufFree fn rg tag a s := rfl
@[simp] theorem exec_syncSet (s : State) (fn) (rg) (tag) (a) : exec (.syncSet fn rg tag a) s = execSyncSet fn rg tag a s := rfl
@[simp] theorem exec_syncDump (s : State) (fn) (rg) (tag) (a) : exec (.syncDump fn rg tag a) s = execSyncDump fn rg tag a s := rfl
@[simp] theorem exec_syncDumpComplete (s : State) (fn) : exec (.syncDumpComplete fn) s = execSyncDumpComplete fn s := rfl
@[simp] theorem exec_loadProgram (s : State) (fn) (rg) (tag) (a) : exec (.loadProgram fn rg tag a) s = execLoadProgram fn rg tag a s := rfl
@[simp] theorem exec_programLoadComplete (s : State) (r) : exec (.programLoadComplete r) s = execProgramLoadComplete r s := rfl
@[simp] theorem exec_loadDesc (s : State) (fn) (rg) (tag) (a) : exec (.loadDesc fn rg tag a) s = execLoadDesc fn rg tag a s := rfl
@[simp] theorem exec_updList (s : State) (fn) (rg) (tag) (a) : exec (.updList fn rg tag a) s = execUpdList fn rg tag a s := rfl
@[simp] theorem exec_updSetStep (s : State) (fn) (rg) (tag) (a) : exec (.updSetStep fn rg tag a) s = execUpdSetStep fn rg tag a s := rfl
@[simp] theorem exec_updDisarm (s : State) (fn) (rg) (tag) (a) : exec (.updDisarm fn rg tag a) s = execUpdDisarm fn rg tag a s := rfl
@[simp] theorem exec_updEmit (s : State) (fn) (rg) (tag) (a) : exec (.updEmit fn rg tag a) s = execUpdEmit fn rg tag a s := rfl
@[simp] theorem exec_drlRun (s : State) (fn) (rg) (tag) (a) : exec (.drlRun fn rg tag a) s = execDrlRun fn rg tag a s := rfl
@[simp] theorem exec_fwConfig (s : State) (fn) (rg) (tag) (a) : exec (.fwConfig fn rg tag a) s = execFwConfig fn rg tag a s := rfl
@[simp] theorem exec_fwExport (s : State) (fn) (rg) (tag) (a) : exec (.fwExport fn rg tag a) s = execFwExport fn rg tag a s := rfl
@[simp] theorem exec_rollback (s : State) (fn) (rg) (tag) (a) : exec (.rollback fn rg tag a) s = execRollback fn rg tag a s := rfl
@[simp] theorem exec_adopt (s : State) (fn) (rg) (tag) (a) : exec (.adopt fn rg tag a) s = execAdopt fn rg tag a s := rfl
@[simp] theorem exec_setClock (s : State) (fn) (rg) (tag) (a) : exec (.setClock fn rg tag a) s = execSetClock fn rg tag a s := rfl
@[simp] theorem exec_setPowerCap (s : State) (fn) (rg) (tag) (a) : exec (.setPowerCap fn rg tag a) s = execSetPowerCap fn rg tag a s := rfl
@[simp] theorem exec_setCal (s : State) (fn) (rg) (tag) (a) : exec (.setCal fn rg tag a) s = execSetCal fn rg tag a s := rfl
@[simp] theorem exec_resetWarm (s : State) (fn) (rg) (tag) (a) : exec (.resetWarm fn rg tag a) s = execResetWarm fn rg tag a s := rfl
@[simp] theorem exec_resetCold (s : State) (fn) (rg) (tag) (a) : exec (.resetCold fn rg tag a) s = execResetCold fn rg tag a s := rfl
@[simp] theorem exec_resetHubCpu (s : State) (fn) (rg) (tag) (a) : exec (.resetHubCpu fn rg tag a) s = execResetHubCpu fn rg tag a s := rfl
@[simp] theorem exec_resetPcieEp (s : State) (fn) (rg) (tag) (a) : exec (.resetPcieEp fn rg tag a) s = execResetPcieEp fn rg tag a s := rfl
@[simp] theorem exec_resetFuseCtl (s : State) (fn) (rg) (tag) (a) : exec (.resetFuseCtl fn rg tag a) s = execResetFuseCtl fn rg tag a s := rfl
@[simp] theorem exec_resetCadence (s : State) (fn) (rg) (tag) (a) : exec (.resetCadence fn rg tag a) s = execResetCadence fn rg tag a s := rfl
@[simp] theorem exec_eventAck (s : State) (fn) (off) (seq) : exec (.eventAck fn off seq) s = execEventAck fn off seq s := rfl
@[simp] theorem exec_latchingRead (s : State) (fn) (off) : exec (.latchingRead fn off) s = execLatchingRead fn off s := rfl
@[simp] theorem exec_syncVsel (s : State) (fn) (rg) (v) : exec (.syncVsel fn rg v) s = execSyncVsel fn rg v s := rfl
@[simp] theorem exec_xwinWrite (s : State) (fn) (rg) (win) (v) : exec (.xwinWrite fn rg win v) s = execXwinWrite fn rg win v s := rfl
@[simp] theorem exec_expTailWrite (s : State) (fn) (rg) (v) : exec (.expTailWrite fn rg v) s = execExpTailWrite fn rg v s := rfl
@[simp] theorem exec_blkRstTileColumn (s : State) (idx) (idle) : exec (.blkRstTileColumn idx idle) s = execBlkRstTileColumn idx idle s := rfl
@[simp] theorem exec_blkRstLinkPort (s : State) (idx) (idle) : exec (.blkRstLinkPort idx idle) s = execBlkRstLinkPort idx idle s := rfl
@[simp] theorem exec_blkRstHbmChannel (s : State) (idx) (idle) : exec (.blkRstHbmChannel idx idle) s = execBlkRstHbmChannel idx idle s := rfl
@[simp] theorem exec_blkRstLpddrChannel (s : State) (idx) (idle) : exec (.blkRstLpddrChannel idx idle) s = execBlkRstLpddrChannel idx idle s := rfl
@[simp] theorem exec_blkRstUpdateUnit (s : State) (idx) (idle) : exec (.blkRstUpdateUnit idx idle) s = execBlkRstUpdateUnit idx idle s := rfl
@[simp] theorem exec_hubFwGo (s : State) : exec (.hubFwGo) s = execHubFwGo s := rfl
@[simp] theorem exec_hubFwLoadDone (s : State) (image) : exec (.hubFwLoadDone image) s = execHubFwLoadDone image s := rfl
@[simp] theorem exec_registerWrite (s : State) (fn) (off) (v) : exec (.registerWrite fn off v) s = execRegisterWrite fn off v s := rfl
@[simp] theorem exec_smbusSetPointer (s : State) (bytes) (m) : exec (.smbusSetPointer bytes m) s = execSmbusSetPointer bytes s m := rfl
@[simp] theorem exec_smbusBlockRead (s : State) (m) : exec (.smbusBlockRead m) s = execSmbusBlockRead s m := rfl
@[simp] theorem exec_smbusVersionRead (s : State) (m) : exec (.smbusVersionRead m) s = execSmbusVersionRead s m := rfl
@[simp] theorem exec_jtagInstruction (s : State) (ir) (trst) : exec (.jtagInstruction ir trst) s = execJtagInstruction ir s trst := rfl
@[simp] theorem exec_beatBoundary (s : State) : exec (.beatBoundary) s = execBeatBoundary s := rfl
@[simp] theorem exec_vrFaultClear (s : State) (reg) : exec (.vrFaultClear reg) s = execVrFaultClear reg s := rfl
@[simp] theorem exec_vrAlertRelease (s : State) : exec (.vrAlertRelease) s = execVrAlertRelease s := rfl
@[simp] theorem exec_thermHoldRelease (s : State) : exec (.thermHoldRelease) s = execThermHoldRelease s := rfl
@[simp] theorem exec_vbkupLoss (s : State) : exec (.vbkupLoss) s = execVbkupLoss s := rfl
@[simp] theorem exec_railOutOfTolerance (s : State) (rail) : exec (.railOutOfTolerance rail) s = execRailOutOfTolerance rail s := rfl
@[simp] theorem exec_revokeFusePulseEnd (s : State) : exec (.revokeFusePulseEnd) s = execRevokeFusePulseEnd s := rfl
@[simp] theorem exec_hazTailWrite (s : State) (fn) (rg) (v) : exec (.hazTailWrite fn rg v) s = execHazTailWrite fn rg v s := rfl

end Sys2Proof.Machine
end

