-- ==== Sys2Proof/Laws/Table.lean ====
section
/-!
SUPPORT. Sys2Proof/Laws/Table.lean: a read after a write, and that every operation keeps the canonical form of `Cells`.
-/
namespace Sys2Proof.Machine

/-- A read after a write of a table. -/
@[simp] theorem Tab.get_put {α : Type} (d : α) (m : Tab α) (k j : Nat) (v : α) :
    Tab.get d (m.put k v) j = if j = k then v else Tab.get d m j := by
  induction m with
  | nil => simp only [Tab.put, Tab.get]; split <;> split <;> first | rfl | omega
  | cons c r ih =>
    obtain ⟨a, b⟩ := c
    simp only [Tab.put]
    split
    · simp only [Tab.get]; repeat' split
      all_goals first | rfl | omega
    · split
      · simp only [Tab.get]; repeat' split
        all_goals first | rfl | omega
      · simp only [Tab.get, ih]; repeat' split
        all_goals first | rfl | omega

/-- A read of a listed number after a write. -/
@[simp] theorem Tab.find_put {α : Type} (m : Tab α) (k j : Nat) (v : α) :
    (m.put k v).find j = if j = k then some v else m.find j := by
  induction m with
  | nil => simp only [Tab.put, Tab.find]; split <;> split <;> first | rfl | omega
  | cons c r ih =>
    obtain ⟨a, b⟩ := c
    simp only [Tab.put]
    split
    · simp only [Tab.find]; repeat' split
      all_goals first | rfl | omega
    · split
      · simp only [Tab.find]; repeat' split
        all_goals first | rfl | omega
      · simp only [Tab.find, ih]; repeat' split
        all_goals first | rfl | omega

/-- A second write of the same number replaces the first. -/
@[simp] theorem Tab.put_put {α : Type} (m : Tab α) (k : Nat) (v u : α) : (m.put k v).put k u = m.put k u := by
  induction m with
  | nil => simp [Tab.put]
  | cons c r ih =>
    obtain ⟨a, b⟩ := c
    simp only [Tab.put]
    split
    · simp [Tab.put]
    · split
      · next h => simp [Tab.put]
      · next h1 h2 => simp only [Tab.put, ih]; rw [if_neg h1, if_neg h2]

/-- A canonical list rising from `lo` also rises from any smaller number. -/
theorem Cells.rising_mono {w : Nat} {lo lo' : Nat} (m : Cells w) (h : lo' ≤ lo) (r : Cells.risingFrom lo m = true) :
    Cells.risingFrom lo' m = true := by
  cases m with
  | nil => rfl
  | cons c m =>
    obtain ⟨k, v⟩ := c
    simp only [Cells.risingFrom, Bool.and_eq_true, decide_eq_true_eq] at r ⊢
    exact ⟨⟨by omega, r.1.2⟩, r.2⟩

/-- Cells below the first listed one read 0. -/
theorem Cells.get_below {w : Nat} {lo k : Nat} (m : Cells w) (r : Cells.risingFrom lo m = true) (h : k < lo) :
    Cells.get m k = 0 := by
  cases m with
  | nil => rfl
  | cons c m =>
    obtain ⟨a, v⟩ := c
    simp only [Cells.risingFrom, Bool.and_eq_true, decide_eq_true_eq] at r
    simp only [Cells.get]; rw [if_pos (by omega)]

/-- A write keeps a list rising from a number at or below the one written. -/
theorem Cells.rising_put {w : Nat} (m : Cells w) (lo k : Nat) (v : BitVec w) (h : lo ≤ k)
    (r : Cells.risingFrom lo m = true) : Cells.risingFrom lo (m.put k v) = true := by
  induction m generalizing lo with
  | nil => simp only [Cells.put]; split <;> simp_all [Cells.risingFrom]
  | cons c m ih =>
    obtain ⟨a, b⟩ := c
    simp only [Cells.risingFrom, Bool.and_eq_true, decide_eq_true_eq] at r
    simp only [Cells.put]
    split
    · split
      · simp only [Cells.risingFrom, Bool.and_eq_true, decide_eq_true_eq]; exact r
      · next h1 h2 =>
        simp only [Cells.risingFrom, Bool.and_eq_true, decide_eq_true_eq]
        exact ⟨⟨h, h2⟩, ⟨by omega, r.1.2⟩, r.2⟩
    · split
      · next h1 h2 =>
        subst h2
        split
        · exact Cells.rising_mono m (by omega) r.2
        · next h3 => simp only [Cells.risingFrom, Bool.and_eq_true, decide_eq_true_eq]; exact ⟨⟨h, h3⟩, r.2⟩
      · simp only [Cells.risingFrom, Bool.and_eq_true, decide_eq_true_eq]
        exact ⟨r.1, ih (a + 1) (by omega) r.2⟩

/-- A write keeps the canonical form. -/
theorem Cells.wf_put {w : Nat} (m : Cells w) (k : Nat) (v : BitVec w) (h : m.wf = true) : (m.put k v).wf = true :=
  Cells.rising_put m 0 k v (Nat.zero_le k) h

/-- A write of several cells keeps the canonical form. -/
theorem Cells.wf_putList {w : Nat} (m : Cells w) (k : Nat) (l : List (BitVec w)) (h : m.wf = true) :
    (m.putList k l).wf = true := by
  induction l generalizing m k with
  | nil => exact h
  | cons v r ih => exact ih _ _ (Cells.wf_put m k v h)

theorem Cells.rising_clear {w : Nat} (m : Cells w) (p : Nat → Bool) (lo : Nat) (h : Cells.risingFrom lo m = true) :
    Cells.risingFrom lo (m.clear p) = true := by
  induction m generalizing lo with
  | nil => rfl
  | cons c m ih =>
    obtain ⟨a, b⟩ := c
    simp only [Cells.risingFrom, Bool.and_eq_true, decide_eq_true_eq] at h
    have k := ih (a + 1) h.2
    unfold Cells.clear at k ⊢
    simp only [List.filter_cons]
    split
    · simp only [Cells.risingFrom, Bool.and_eq_true, decide_eq_true_eq]; exact ⟨h.1, k⟩
    · exact Cells.rising_mono _ (by omega) k

/-- Clearing cells keeps the canonical form. -/
theorem Cells.wf_clear {w : Nat} (m : Cells w) (p : Nat → Bool) (h : m.wf = true) : (m.clear p).wf = true :=
  Cells.rising_clear m p 0 h

/-- A read after a write. -/
theorem Cells.get_put {w : Nat} (m : Cells w) (k j : Nat) (v : BitVec w) (lo : Nat) (h : Cells.risingFrom lo m = true) :
    (m.put k v).get j = if j = k then v else m.get j := by
  induction m generalizing lo with
  | nil =>
    simp only [Cells.put]
    split
    · next hv => simp only [Cells.get]; split <;> simp_all
    · simp only [Cells.get]; repeat' split
      all_goals first | rfl | omega
  | cons c m ih =>
    obtain ⟨a, b⟩ := c
    simp only [Cells.risingFrom, Bool.and_eq_true, decide_eq_true_eq] at h
    have hb : ∀ q, q ≤ a → Cells.get m q = 0 := fun q hq => Cells.get_below m h.2 (by omega)
    simp only [Cells.put]
    split
    · split
      · next h1 h2 => subst h2; simp only [Cells.get]; repeat' split
                      all_goals first | rfl | omega
      · simp only [Cells.get]; repeat' split
        all_goals first | rfl | omega
    · split
      · next h1 h2 =>
        subst h2
        split
        · next h3 =>
          subst h3
          simp only [Cells.get]
          repeat' split
          all_goals first | rfl | omega | (exact hb _ (by omega))
        · simp only [Cells.get]; repeat' split
          all_goals first | rfl | omega
      · simp only [Cells.get, ih (a + 1) h.2]; repeat' split
        all_goals first | rfl | omega

end Sys2Proof.Machine
end

