-- ==== Sys2Proof/Laws/State.lean ====
section
/-!
SUPPORT. Sys2Proof/Laws/State.lean: what the updates of regions, tiles, objects and ports leave, part by part.
-/
namespace Sys2Proof.Machine
open Sys2Proof

/-! `setRegion` writes `regions` only. -/

@[simp] theorem State.setRegion_pending (s : State) (r : RegionId) (x : Region) :
    (s.setRegion r x).pending = s.pending := rfl
@[simp] theorem State.setRegion_wall (s : State) (r : RegionId) (x : Region) :
    (s.setRegion r x).wall = s.wall := rfl
@[simp] theorem State.setRegion_beats (s : State) (r : RegionId) (x : Region) :
    (s.setRegion r x).beats = s.beats := rfl
@[simp] theorem State.setRegion_free (s : State) (r : RegionId) (x : Region) :
    (s.setRegion r x).free = s.free := rfl
@[simp] theorem State.setRegion_order (s : State) (r : RegionId) (x : Region) :
    (s.setRegion r x).order = s.order := rfl
@[simp] theorem State.setRegion_tiles (s : State) (r : RegionId) (x : Region) :
    (s.setRegion r x).tiles = s.tiles := rfl
@[simp] theorem State.setRegion_undo (s : State) (r : RegionId) (x : Region) :
    (s.setRegion r x).undo = s.undo := rfl
@[simp] theorem State.setRegion_hw (s : State) (r : RegionId) (x : Region) :
    (s.setRegion r x).hw = s.hw := rfl
@[simp] theorem State.setRegion_scrubPass (s : State) (r : RegionId) (x : Region) :
    (s.setRegion r x).scrubPass = s.scrubPass := rfl
@[simp] theorem State.setRegion_beatAt (s : State) (r : RegionId) (x : Region) :
    (s.setRegion r x).beatAt = s.beatAt := rfl
@[simp] theorem State.setRegion_tilesAt (s : State) (r : RegionId) (x : Region) :
    (s.setRegion r x).tilesAt = s.tilesAt := rfl
@[simp] theorem State.setRegion_parity (s : State) (r : RegionId) (x : Region) :
    (s.setRegion r x).parity = s.parity := rfl
@[simp] theorem State.setRegion_stopped (s : State) (r : RegionId) (x : Region) :
    (s.setRegion r x).stopped = s.stopped := rfl
@[simp] theorem State.setRegion_objs (s : State) (r : RegionId) (x : Region) :
    (s.setRegion r x).objs = s.objs := rfl
@[simp] theorem State.setRegion_ports (s : State) (r : RegionId) (x : Region) :
    (s.setRegion r x).ports = s.ports := rfl
@[simp] theorem State.setRegion_fuses (s : State) (r : RegionId) (x : Region) :
    (s.setRegion r x).fuses = s.fuses := rfl
@[simp] theorem State.setRegion_frame (s : State) (r : RegionId) (x : Region) :
    (s.setRegion r x).frame = s.frame := rfl
@[simp] theorem State.setRegion_units (s : State) (r : RegionId) (x : Region) :
    (s.setRegion r x).units = s.units := rfl
@[simp] theorem State.setRegion_hub (s : State) (r : RegionId) (x : Region) :
    (s.setRegion r x).hub = s.hub := rfl
@[simp] theorem State.setRegion_ident (s : State) (r : RegionId) (x : Region) :
    (s.setRegion r x).ident = s.ident := rfl
@[simp] theorem State.setRegion_cad (s : State) (r : RegionId) (x : Region) :
    (s.setRegion r x).cad = s.cad := rfl
@[simp] theorem State.setRegion_power (s : State) (r : RegionId) (x : Region) :
    (s.setRegion r x).power = s.power := rfl
@[simp] theorem State.setRegion_resets (s : State) (r : RegionId) (x : Region) :
    (s.setRegion r x).resets = s.resets := rfl
@[simp] theorem State.setRegion_mem (s : State) (r : RegionId) (x : Region) :
    (s.setRegion r x).mem = s.mem := rfl

/-! `modRegion` writes `regions` only. -/

@[simp] theorem State.modRegion_pending (s : State) (r : RegionId) (f : Region → Region) :
    (s.modRegion r f).pending = s.pending := rfl
@[simp] theorem State.modRegion_wall (s : State) (r : RegionId) (f : Region → Region) :
    (s.modRegion r f).wall = s.wall := rfl
@[simp] theorem State.modRegion_beats (s : State) (r : RegionId) (f : Region → Region) :
    (s.modRegion r f).beats = s.beats := rfl
@[simp] theorem State.modRegion_free (s : State) (r : RegionId) (f : Region → Region) :
    (s.modRegion r f).free = s.free := rfl
@[simp] theorem State.modRegion_order (s : State) (r : RegionId) (f : Region → Region) :
    (s.modRegion r f).order = s.order := rfl
@[simp] theorem State.modRegion_tiles (s : State) (r : RegionId) (f : Region → Region) :
    (s.modRegion r f).tiles = s.tiles := rfl
@[simp] theorem State.modRegion_undo (s : State) (r : RegionId) (f : Region → Region) :
    (s.modRegion r f).undo = s.undo := rfl
@[simp] theorem State.modRegion_hw (s : State) (r : RegionId) (f : Region → Region) :
    (s.modRegion r f).hw = s.hw := rfl
@[simp] theorem State.modRegion_scrubPass (s : State) (r : RegionId) (f : Region → Region) :
    (s.modRegion r f).scrubPass = s.scrubPass := rfl
@[simp] theorem State.modRegion_beatAt (s : State) (r : RegionId) (f : Region → Region) :
    (s.modRegion r f).beatAt = s.beatAt := rfl
@[simp] theorem State.modRegion_tilesAt (s : State) (r : RegionId) (f : Region → Region) :
    (s.modRegion r f).tilesAt = s.tilesAt := rfl
@[simp] theorem State.modRegion_parity (s : State) (r : RegionId) (f : Region → Region) :
    (s.modRegion r f).parity = s.parity := rfl
@[simp] theorem State.modRegion_stopped (s : State) (r : RegionId) (f : Region → Region) :
    (s.modRegion r f).stopped = s.stopped := rfl
@[simp] theorem State.modRegion_objs (s : State) (r : RegionId) (f : Region → Region) :
    (s.modRegion r f).objs = s.objs := rfl
@[simp] theorem State.modRegion_ports (s : State) (r : RegionId) (f : Region → Region) :
    (s.modRegion r f).ports = s.ports := rfl
@[simp] theorem State.modRegion_fuses (s : State) (r : RegionId) (f : Region → Region) :
    (s.modRegion r f).fuses = s.fuses := rfl
@[simp] theorem State.modRegion_frame (s : State) (r : RegionId) (f : Region → Region) :
    (s.modRegion r f).frame = s.frame := rfl
@[simp] theorem State.modRegion_units (s : State) (r : RegionId) (f : Region → Region) :
    (s.modRegion r f).units = s.units := rfl
@[simp] theorem State.modRegion_hub (s : State) (r : RegionId) (f : Region → Region) :
    (s.modRegion r f).hub = s.hub := rfl
@[simp] theorem State.modRegion_ident (s : State) (r : RegionId) (f : Region → Region) :
    (s.modRegion r f).ident = s.ident := rfl
@[simp] theorem State.modRegion_cad (s : State) (r : RegionId) (f : Region → Region) :
    (s.modRegion r f).cad = s.cad := rfl
@[simp] theorem State.modRegion_power (s : State) (r : RegionId) (f : Region → Region) :
    (s.modRegion r f).power = s.power := rfl
@[simp] theorem State.modRegion_resets (s : State) (r : RegionId) (f : Region → Region) :
    (s.modRegion r f).resets = s.resets := rfl
@[simp] theorem State.modRegion_mem (s : State) (r : RegionId) (f : Region → Region) :
    (s.modRegion r f).mem = s.mem := rfl

/-! `setTile` writes `tiles` only. -/

@[simp] theorem State.setTile_pending (s : State) (t : TileId) (x : Tile) :
    (s.setTile t x).pending = s.pending := rfl
@[simp] theorem State.setTile_wall (s : State) (t : TileId) (x : Tile) :
    (s.setTile t x).wall = s.wall := rfl
@[simp] theorem State.setTile_beats (s : State) (t : TileId) (x : Tile) :
    (s.setTile t x).beats = s.beats := rfl
@[simp] theorem State.setTile_free (s : State) (t : TileId) (x : Tile) :
    (s.setTile t x).free = s.free := rfl
@[simp] theorem State.setTile_order (s : State) (t : TileId) (x : Tile) :
    (s.setTile t x).order = s.order := rfl
@[simp] theorem State.setTile_undo (s : State) (t : TileId) (x : Tile) :
    (s.setTile t x).undo = s.undo := rfl
@[simp] theorem State.setTile_hw (s : State) (t : TileId) (x : Tile) :
    (s.setTile t x).hw = s.hw := rfl
@[simp] theorem State.setTile_scrubPass (s : State) (t : TileId) (x : Tile) :
    (s.setTile t x).scrubPass = s.scrubPass := rfl
@[simp] theorem State.setTile_beatAt (s : State) (t : TileId) (x : Tile) :
    (s.setTile t x).beatAt = s.beatAt := rfl
@[simp] theorem State.setTile_tilesAt (s : State) (t : TileId) (x : Tile) :
    (s.setTile t x).tilesAt = s.tilesAt := rfl
@[simp] theorem State.setTile_parity (s : State) (t : TileId) (x : Tile) :
    (s.setTile t x).parity = s.parity := rfl
@[simp] theorem State.setTile_stopped (s : State) (t : TileId) (x : Tile) :
    (s.setTile t x).stopped = s.stopped := rfl
@[simp] theorem State.setTile_objs (s : State) (t : TileId) (x : Tile) :
    (s.setTile t x).objs = s.objs := rfl
@[simp] theorem State.setTile_regions (s : State) (t : TileId) (x : Tile) :
    (s.setTile t x).regions = s.regions := rfl
@[simp] theorem State.setTile_ports (s : State) (t : TileId) (x : Tile) :
    (s.setTile t x).ports = s.ports := rfl
@[simp] theorem State.setTile_fuses (s : State) (t : TileId) (x : Tile) :
    (s.setTile t x).fuses = s.fuses := rfl
@[simp] theorem State.setTile_frame (s : State) (t : TileId) (x : Tile) :
    (s.setTile t x).frame = s.frame := rfl
@[simp] theorem State.setTile_units (s : State) (t : TileId) (x : Tile) :
    (s.setTile t x).units = s.units := rfl
@[simp] theorem State.setTile_hub (s : State) (t : TileId) (x : Tile) :
    (s.setTile t x).hub = s.hub := rfl
@[simp] theorem State.setTile_ident (s : State) (t : TileId) (x : Tile) :
    (s.setTile t x).ident = s.ident := rfl
@[simp] theorem State.setTile_cad (s : State) (t : TileId) (x : Tile) :
    (s.setTile t x).cad = s.cad := rfl
@[simp] theorem State.setTile_power (s : State) (t : TileId) (x : Tile) :
    (s.setTile t x).power = s.power := rfl
@[simp] theorem State.setTile_resets (s : State) (t : TileId) (x : Tile) :
    (s.setTile t x).resets = s.resets := rfl
@[simp] theorem State.setTile_mem (s : State) (t : TileId) (x : Tile) :
    (s.setTile t x).mem = s.mem := rfl

/-! `modTile` writes `tiles` only. -/

@[simp] theorem State.modTile_pending (s : State) (t : TileId) (f : Tile → Tile) :
    (s.modTile t f).pending = s.pending := rfl
@[simp] theorem State.modTile_wall (s : State) (t : TileId) (f : Tile → Tile) :
    (s.modTile t f).wall = s.wall := rfl
@[simp] theorem State.modTile_beats (s : State) (t : TileId) (f : Tile → Tile) :
    (s.modTile t f).beats = s.beats := rfl
@[simp] theorem State.modTile_free (s : State) (t : TileId) (f : Tile → Tile) :
    (s.modTile t f).free = s.free := rfl
@[simp] theorem State.modTile_order (s : State) (t : TileId) (f : Tile → Tile) :
    (s.modTile t f).order = s.order := rfl
@[simp] theorem State.modTile_undo (s : State) (t : TileId) (f : Tile → Tile) :
    (s.modTile t f).undo = s.undo := rfl
@[simp] theorem State.modTile_hw (s : State) (t : TileId) (f : Tile → Tile) :
    (s.modTile t f).hw = s.hw := rfl
@[simp] theorem State.modTile_scrubPass (s : State) (t : TileId) (f : Tile → Tile) :
    (s.modTile t f).scrubPass = s.scrubPass := rfl
@[simp] theorem State.modTile_beatAt (s : State) (t : TileId) (f : Tile → Tile) :
    (s.modTile t f).beatAt = s.beatAt := rfl
@[simp] theorem State.modTile_tilesAt (s : State) (t : TileId) (f : Tile → Tile) :
    (s.modTile t f).tilesAt = s.tilesAt := rfl
@[simp] theorem State.modTile_parity (s : State) (t : TileId) (f : Tile → Tile) :
    (s.modTile t f).parity = s.parity := rfl
@[simp] theorem State.modTile_stopped (s : State) (t : TileId) (f : Tile → Tile) :
    (s.modTile t f).stopped = s.stopped := rfl
@[simp] theorem State.modTile_objs (s : State) (t : TileId) (f : Tile → Tile) :
    (s.modTile t f).objs = s.objs := rfl
@[simp] theorem State.modTile_regions (s : State) (t : TileId) (f : Tile → Tile) :
    (s.modTile t f).regions = s.regions := rfl
@[simp] theorem State.modTile_ports (s : State) (t : TileId) (f : Tile → Tile) :
    (s.modTile t f).ports = s.ports := rfl
@[simp] theorem State.modTile_fuses (s : State) (t : TileId) (f : Tile → Tile) :
    (s.modTile t f).fuses = s.fuses := rfl
@[simp] theorem State.modTile_frame (s : State) (t : TileId) (f : Tile → Tile) :
    (s.modTile t f).frame = s.frame := rfl
@[simp] theorem State.modTile_units (s : State) (t : TileId) (f : Tile → Tile) :
    (s.modTile t f).units = s.units := rfl
@[simp] theorem State.modTile_hub (s : State) (t : TileId) (f : Tile → Tile) :
    (s.modTile t f).hub = s.hub := rfl
@[simp] theorem State.modTile_ident (s : State) (t : TileId) (f : Tile → Tile) :
    (s.modTile t f).ident = s.ident := rfl
@[simp] theorem State.modTile_cad (s : State) (t : TileId) (f : Tile → Tile) :
    (s.modTile t f).cad = s.cad := rfl
@[simp] theorem State.modTile_power (s : State) (t : TileId) (f : Tile → Tile) :
    (s.modTile t f).power = s.power := rfl
@[simp] theorem State.modTile_resets (s : State) (t : TileId) (f : Tile → Tile) :
    (s.modTile t f).resets = s.resets := rfl
@[simp] theorem State.modTile_mem (s : State) (t : TileId) (f : Tile → Tile) :
    (s.modTile t f).mem = s.mem := rfl

/-! `modHw` writes `hw` only. -/

@[simp] theorem State.modHw_pending (s : State) (t : TileId) (f : TileHw → TileHw) :
    (s.modHw t f).pending = s.pending := rfl
@[simp] theorem State.modHw_wall (s : State) (t : TileId) (f : TileHw → TileHw) :
    (s.modHw t f).wall = s.wall := rfl
@[simp] theorem State.modHw_beats (s : State) (t : TileId) (f : TileHw → TileHw) :
    (s.modHw t f).beats = s.beats := rfl
@[simp] theorem State.modHw_free (s : State) (t : TileId) (f : TileHw → TileHw) :
    (s.modHw t f).free = s.free := rfl
@[simp] theorem State.modHw_order (s : State) (t : TileId) (f : TileHw → TileHw) :
    (s.modHw t f).order = s.order := rfl
@[simp] theorem State.modHw_tiles (s : State) (t : TileId) (f : TileHw → TileHw) :
    (s.modHw t f).tiles = s.tiles := rfl
@[simp] theorem State.modHw_undo (s : State) (t : TileId) (f : TileHw → TileHw) :
    (s.modHw t f).undo = s.undo := rfl
@[simp] theorem State.modHw_scrubPass (s : State) (t : TileId) (f : TileHw → TileHw) :
    (s.modHw t f).scrubPass = s.scrubPass := rfl
@[simp] theorem State.modHw_beatAt (s : State) (t : TileId) (f : TileHw → TileHw) :
    (s.modHw t f).beatAt = s.beatAt := rfl
@[simp] theorem State.modHw_tilesAt (s : State) (t : TileId) (f : TileHw → TileHw) :
    (s.modHw t f).tilesAt = s.tilesAt := rfl
@[simp] theorem State.modHw_parity (s : State) (t : TileId) (f : TileHw → TileHw) :
    (s.modHw t f).parity = s.parity := rfl
@[simp] theorem State.modHw_stopped (s : State) (t : TileId) (f : TileHw → TileHw) :
    (s.modHw t f).stopped = s.stopped := rfl
@[simp] theorem State.modHw_objs (s : State) (t : TileId) (f : TileHw → TileHw) :
    (s.modHw t f).objs = s.objs := rfl
@[simp] theorem State.modHw_regions (s : State) (t : TileId) (f : TileHw → TileHw) :
    (s.modHw t f).regions = s.regions := rfl
@[simp] theorem State.modHw_ports (s : State) (t : TileId) (f : TileHw → TileHw) :
    (s.modHw t f).ports = s.ports := rfl
@[simp] theorem State.modHw_fuses (s : State) (t : TileId) (f : TileHw → TileHw) :
    (s.modHw t f).fuses = s.fuses := rfl
@[simp] theorem State.modHw_frame (s : State) (t : TileId) (f : TileHw → TileHw) :
    (s.modHw t f).frame = s.frame := rfl
@[simp] theorem State.modHw_units (s : State) (t : TileId) (f : TileHw → TileHw) :
    (s.modHw t f).units = s.units := rfl
@[simp] theorem State.modHw_hub (s : State) (t : TileId) (f : TileHw → TileHw) :
    (s.modHw t f).hub = s.hub := rfl
@[simp] theorem State.modHw_ident (s : State) (t : TileId) (f : TileHw → TileHw) :
    (s.modHw t f).ident = s.ident := rfl
@[simp] theorem State.modHw_cad (s : State) (t : TileId) (f : TileHw → TileHw) :
    (s.modHw t f).cad = s.cad := rfl
@[simp] theorem State.modHw_power (s : State) (t : TileId) (f : TileHw → TileHw) :
    (s.modHw t f).power = s.power := rfl
@[simp] theorem State.modHw_resets (s : State) (t : TileId) (f : TileHw → TileHw) :
    (s.modHw t f).resets = s.resets := rfl
@[simp] theorem State.modHw_mem (s : State) (t : TileId) (f : TileHw → TileHw) :
    (s.modHw t f).mem = s.mem := rfl

/-! `setObj` writes `objs` only. -/

@[simp] theorem State.setObj_pending (s : State) (o : BitVec 16) (x : SyncObj) :
    (s.setObj o x).pending = s.pending := rfl
@[simp] theorem State.setObj_wall (s : State) (o : BitVec 16) (x : SyncObj) :
    (s.setObj o x).wall = s.wall := rfl
@[simp] theorem State.setObj_beats (s : State) (o : BitVec 16) (x : SyncObj) :
    (s.setObj o x).beats = s.beats := rfl
@[simp] theorem State.setObj_free (s : State) (o : BitVec 16) (x : SyncObj) :
    (s.setObj o x).free = s.free := rfl
@[simp] theorem State.setObj_order (s : State) (o : BitVec 16) (x : SyncObj) :
    (s.setObj o x).order = s.order := rfl
@[simp] theorem State.setObj_tiles (s : State) (o : BitVec 16) (x : SyncObj) :
    (s.setObj o x).tiles = s.tiles := rfl
@[simp] theorem State.setObj_undo (s : State) (o : BitVec 16) (x : SyncObj) :
    (s.setObj o x).undo = s.undo := rfl
@[simp] theorem State.setObj_hw (s : State) (o : BitVec 16) (x : SyncObj) :
    (s.setObj o x).hw = s.hw := rfl
@[simp] theorem State.setObj_scrubPass (s : State) (o : BitVec 16) (x : SyncObj) :
    (s.setObj o x).scrubPass = s.scrubPass := rfl
@[simp] theorem State.setObj_beatAt (s : State) (o : BitVec 16) (x : SyncObj) :
    (s.setObj o x).beatAt = s.beatAt := rfl
@[simp] theorem State.setObj_tilesAt (s : State) (o : BitVec 16) (x : SyncObj) :
    (s.setObj o x).tilesAt = s.tilesAt := rfl
@[simp] theorem State.setObj_parity (s : State) (o : BitVec 16) (x : SyncObj) :
    (s.setObj o x).parity = s.parity := rfl
@[simp] theorem State.setObj_stopped (s : State) (o : BitVec 16) (x : SyncObj) :
    (s.setObj o x).stopped = s.stopped := rfl
@[simp] theorem State.setObj_regions (s : State) (o : BitVec 16) (x : SyncObj) :
    (s.setObj o x).regions = s.regions := rfl
@[simp] theorem State.setObj_ports (s : State) (o : BitVec 16) (x : SyncObj) :
    (s.setObj o x).ports = s.ports := rfl
@[simp] theorem State.setObj_fuses (s : State) (o : BitVec 16) (x : SyncObj) :
    (s.setObj o x).fuses = s.fuses := rfl
@[simp] theorem State.setObj_frame (s : State) (o : BitVec 16) (x : SyncObj) :
    (s.setObj o x).frame = s.frame := rfl
@[simp] theorem State.setObj_units (s : State) (o : BitVec 16) (x : SyncObj) :
    (s.setObj o x).units = s.units := rfl
@[simp] theorem State.setObj_hub (s : State) (o : BitVec 16) (x : SyncObj) :
    (s.setObj o x).hub = s.hub := rfl
@[simp] theorem State.setObj_ident (s : State) (o : BitVec 16) (x : SyncObj) :
    (s.setObj o x).ident = s.ident := rfl
@[simp] theorem State.setObj_cad (s : State) (o : BitVec 16) (x : SyncObj) :
    (s.setObj o x).cad = s.cad := rfl
@[simp] theorem State.setObj_power (s : State) (o : BitVec 16) (x : SyncObj) :
    (s.setObj o x).power = s.power := rfl
@[simp] theorem State.setObj_resets (s : State) (o : BitVec 16) (x : SyncObj) :
    (s.setObj o x).resets = s.resets := rfl
@[simp] theorem State.setObj_mem (s : State) (o : BitVec 16) (x : SyncObj) :
    (s.setObj o x).mem = s.mem := rfl

/-! `setPort` writes `ports` only. -/

@[simp] theorem State.setPort_pending (s : State) (p : PortId) (x : Port) :
    (s.setPort p x).pending = s.pending := rfl
@[simp] theorem State.setPort_wall (s : State) (p : PortId) (x : Port) :
    (s.setPort p x).wall = s.wall := rfl
@[simp] theorem State.setPort_beats (s : State) (p : PortId) (x : Port) :
    (s.setPort p x).beats = s.beats := rfl
@[simp] theorem State.setPort_free (s : State) (p : PortId) (x : Port) :
    (s.setPort p x).free = s.free := rfl
@[simp] theorem State.setPort_order (s : State) (p : PortId) (x : Port) :
    (s.setPort p x).order = s.order := rfl
@[simp] theorem State.setPort_tiles (s : State) (p : PortId) (x : Port) :
    (s.setPort p x).tiles = s.tiles := rfl
@[simp] theorem State.setPort_undo (s : State) (p : PortId) (x : Port) :
    (s.setPort p x).undo = s.undo := rfl
@[simp] theorem State.setPort_hw (s : State) (p : PortId) (x : Port) :
    (s.setPort p x).hw = s.hw := rfl
@[simp] theorem State.setPort_scrubPass (s : State) (p : PortId) (x : Port) :
    (s.setPort p x).scrubPass = s.scrubPass := rfl
@[simp] theorem State.setPort_beatAt (s : State) (p : PortId) (x : Port) :
    (s.setPort p x).beatAt = s.beatAt := rfl
@[simp] theorem State.setPort_tilesAt (s : State) (p : PortId) (x : Port) :
    (s.setPort p x).tilesAt = s.tilesAt := rfl
@[simp] theorem State.setPort_parity (s : State) (p : PortId) (x : Port) :
    (s.setPort p x).parity = s.parity := rfl
@[simp] theorem State.setPort_stopped (s : State) (p : PortId) (x : Port) :
    (s.setPort p x).stopped = s.stopped := rfl
@[simp] theorem State.setPort_objs (s : State) (p : PortId) (x : Port) :
    (s.setPort p x).objs = s.objs := rfl
@[simp] theorem State.setPort_regions (s : State) (p : PortId) (x : Port) :
    (s.setPort p x).regions = s.regions := rfl
@[simp] theorem State.setPort_fuses (s : State) (p : PortId) (x : Port) :
    (s.setPort p x).fuses = s.fuses := rfl
@[simp] theorem State.setPort_frame (s : State) (p : PortId) (x : Port) :
    (s.setPort p x).frame = s.frame := rfl
@[simp] theorem State.setPort_units (s : State) (p : PortId) (x : Port) :
    (s.setPort p x).units = s.units := rfl
@[simp] theorem State.setPort_hub (s : State) (p : PortId) (x : Port) :
    (s.setPort p x).hub = s.hub := rfl
@[simp] theorem State.setPort_ident (s : State) (p : PortId) (x : Port) :
    (s.setPort p x).ident = s.ident := rfl
@[simp] theorem State.setPort_cad (s : State) (p : PortId) (x : Port) :
    (s.setPort p x).cad = s.cad := rfl
@[simp] theorem State.setPort_power (s : State) (p : PortId) (x : Port) :
    (s.setPort p x).power = s.power := rfl
@[simp] theorem State.setPort_resets (s : State) (p : PortId) (x : Port) :
    (s.setPort p x).resets = s.resets := rfl
@[simp] theorem State.setPort_mem (s : State) (p : PortId) (x : Port) :
    (s.setPort p x).mem = s.mem := rfl

/-! `modPort` writes `ports` only. -/

@[simp] theorem State.modPort_pending (s : State) (p : PortId) (f : Port → Port) :
    (s.modPort p f).pending = s.pending := rfl
@[simp] theorem State.modPort_wall (s : State) (p : PortId) (f : Port → Port) :
    (s.modPort p f).wall = s.wall := rfl
@[simp] theorem State.modPort_beats (s : State) (p : PortId) (f : Port → Port) :
    (s.modPort p f).beats = s.beats := rfl
@[simp] theorem State.modPort_free (s : State) (p : PortId) (f : Port → Port) :
    (s.modPort p f).free = s.free := rfl
@[simp] theorem State.modPort_order (s : State) (p : PortId) (f : Port → Port) :
    (s.modPort p f).order = s.order := rfl
@[simp] theorem State.modPort_tiles (s : State) (p : PortId) (f : Port → Port) :
    (s.modPort p f).tiles = s.tiles := rfl
@[simp] theorem State.modPort_undo (s : State) (p : PortId) (f : Port → Port) :
    (s.modPort p f).undo = s.undo := rfl
@[simp] theorem State.modPort_hw (s : State) (p : PortId) (f : Port → Port) :
    (s.modPort p f).hw = s.hw := rfl
@[simp] theorem State.modPort_scrubPass (s : State) (p : PortId) (f : Port → Port) :
    (s.modPort p f).scrubPass = s.scrubPass := rfl
@[simp] theorem State.modPort_beatAt (s : State) (p : PortId) (f : Port → Port) :
    (s.modPort p f).beatAt = s.beatAt := rfl
@[simp] theorem State.modPort_tilesAt (s : State) (p : PortId) (f : Port → Port) :
    (s.modPort p f).tilesAt = s.tilesAt := rfl
@[simp] theorem State.modPort_parity (s : State) (p : PortId) (f : Port → Port) :
    (s.modPort p f).parity = s.parity := rfl
@[simp] theorem State.modPort_stopped (s : State) (p : PortId) (f : Port → Port) :
    (s.modPort p f).stopped = s.stopped := rfl
@[simp] theorem State.modPort_objs (s : State) (p : PortId) (f : Port → Port) :
    (s.modPort p f).objs = s.objs := rfl
@[simp] theorem State.modPort_regions (s : State) (p : PortId) (f : Port → Port) :
    (s.modPort p f).regions = s.regions := rfl
@[simp] theorem State.modPort_fuses (s : State) (p : PortId) (f : Port → Port) :
    (s.modPort p f).fuses = s.fuses := rfl
@[simp] theorem State.modPort_frame (s : State) (p : PortId) (f : Port → Port) :
    (s.modPort p f).frame = s.frame := rfl
@[simp] theorem State.modPort_units (s : State) (p : PortId) (f : Port → Port) :
    (s.modPort p f).units = s.units := rfl
@[simp] theorem State.modPort_hub (s : State) (p : PortId) (f : Port → Port) :
    (s.modPort p f).hub = s.hub := rfl
@[simp] theorem State.modPort_ident (s : State) (p : PortId) (f : Port → Port) :
    (s.modPort p f).ident = s.ident := rfl
@[simp] theorem State.modPort_cad (s : State) (p : PortId) (f : Port → Port) :
    (s.modPort p f).cad = s.cad := rfl
@[simp] theorem State.modPort_power (s : State) (p : PortId) (f : Port → Port) :
    (s.modPort p f).power = s.power := rfl
@[simp] theorem State.modPort_resets (s : State) (p : PortId) (f : Port → Port) :
    (s.modPort p f).resets = s.resets := rfl
@[simp] theorem State.modPort_mem (s : State) (p : PortId) (f : Port → Port) :
    (s.modPort p f).mem = s.mem := rfl

/-! Reads of a state given part by part. -/

@[simp] theorem State.tile_mk (a0 a1 a2 a3 a4 a5 a6 a7 a8 a9 a10 a11 a12 a13 a14 a15 a16 a17 a18 a19 a20 a21 a22 a23 a24) (t : TileId) :
    State.tile (State.mk a0 a1 a2 a3 a4 a5 a6 a7 a8 a9 a10 a11 a12 a13 a14 a15 a16 a17 a18 a19 a20 a21 a22 a23 a24) t = Tab.get Tile.reset a6 t.toNat := rfl
@[simp] theorem State.get_tiles (s : State) (t : TileId) : Tab.get Tile.reset s.tiles t.toNat = s.tile t := rfl
@[simp] theorem State.region_mk (a0 a1 a2 a3 a4 a5 a6 a7 a8 a9 a10 a11 a12 a13 a14 a15 a16 a17 a18 a19 a20 a21 a22 a23 a24) (t : RegionId) :
    State.region (State.mk a0 a1 a2 a3 a4 a5 a6 a7 a8 a9 a10 a11 a12 a13 a14 a15 a16 a17 a18 a19 a20 a21 a22 a23 a24) t = Tab.get Region.reset a12 t.toNat := rfl
@[simp] theorem State.get_regions (s : State) (t : RegionId) : Tab.get Region.reset s.regions t.toNat = s.region t := rfl
@[simp] theorem State.obj_mk (a0 a1 a2 a3 a4 a5 a6 a7 a8 a9 a10 a11 a12 a13 a14 a15 a16 a17 a18 a19 a20 a21 a22 a23 a24) (t : BitVec 16) :
    State.obj (State.mk a0 a1 a2 a3 a4 a5 a6 a7 a8 a9 a10 a11 a12 a13 a14 a15 a16 a17 a18 a19 a20 a21 a22 a23 a24) t = Tab.get SyncObj.reset a11 t.toNat := rfl
@[simp] theorem State.get_objs (s : State) (t : BitVec 16) : Tab.get SyncObj.reset s.objs t.toNat = s.obj t := rfl
@[simp] theorem State.port_mk (a0 a1 a2 a3 a4 a5 a6 a7 a8 a9 a10 a11 a12 a13 a14 a15 a16 a17 a18 a19 a20 a21 a22 a23 a24) (t : PortId) :
    State.port (State.mk a0 a1 a2 a3 a4 a5 a6 a7 a8 a9 a10 a11 a12 a13 a14 a15 a16 a17 a18 a19 a20 a21 a22 a23 a24) t = Tab.get Port.reset a13 t.toNat := rfl
@[simp] theorem State.get_ports (s : State) (t : PortId) : Tab.get Port.reset s.ports t.toNat = s.port t := rfl
@[simp] theorem State.tileHw_mk (a0 a1 a2 a3 a4 a5 a6 a7 a8 a9 a10 a11 a12 a13 a14 a15 a16 a17 a18 a19 a20 a21 a22 a23 a24) (t : TileId) :
    State.tileHw (State.mk a0 a1 a2 a3 a4 a5 a6 a7 a8 a9 a10 a11 a12 a13 a14 a15 a16 a17 a18 a19 a20 a21 a22 a23 a24) t = Tab.get TileHw.reset a8 t.toNat := rfl
@[simp] theorem State.get_hw (s : State) (t : TileId) : Tab.get TileHw.reset s.hw t.toNat = s.tileHw t := rfl

/-! Reads after writes. -/

theorem toNat_eq_iff {w : Nat} (a b : BitVec w) : a.toNat = b.toNat ↔ a = b := ⟨BitVec.eq_of_toNat_eq, fun h => h ▸ rfl⟩

@[simp] theorem State.region_setRegion (s : State) (r q : RegionId) (x : Region) :
    (s.setRegion r x).region q = if q = r then x else s.region q := by
  simp [State.setRegion, toNat_eq_iff]
@[simp] theorem State.region_modRegion (s : State) (r q : RegionId) (f : Region → Region) :
    (s.modRegion r f).region q = if q = r then f (s.region r) else s.region q := by
  simp [State.modRegion]
@[simp] theorem State.tile_setTile (s : State) (t u : TileId) (x : Tile) :
    (s.setTile t x).tile u = if u = t then x else s.tile u := by
  simp [State.setTile, toNat_eq_iff]
@[simp] theorem State.tile_modTile (s : State) (t u : TileId) (f : Tile → Tile) :
    (s.modTile t f).tile u = if u = t then f (s.tile t) else s.tile u := by
  simp [State.modTile]
@[simp] theorem State.tileHw_modHw (s : State) (t u : TileId) (f : TileHw → TileHw) :
    (s.modHw t f).tileHw u = if u = t then f (s.tileHw t) else s.tileHw u := by
  simp [State.modHw, toNat_eq_iff]
@[simp] theorem State.obj_setObj (s : State) (o q : BitVec 16) (x : SyncObj) :
    (s.setObj o x).obj q = if q = o then x else s.obj q := by
  simp [State.setObj, toNat_eq_iff]
@[simp] theorem State.port_setPort (s : State) (p q : PortId) (x : Port) :
    (s.setPort p x).port q = if q = p then x else s.port q := by
  simp [State.setPort, toNat_eq_iff]
@[simp] theorem State.port_modPort (s : State) (p q : PortId) (f : Port → Port) :
    (s.modPort p f).port q = if q = p then f (s.port p) else s.port q := by
  simp [State.modPort]

@[simp] theorem State.region_setTile (s : State) (t : TileId) (x : Tile) (r : RegionId) :
    (s.setTile t x).region r = s.region r := rfl
@[simp] theorem State.region_modTile (s : State) (t : TileId) (f : Tile → Tile) (r : RegionId) :
    (s.modTile t f).region r = s.region r := rfl
@[simp] theorem State.tile_setRegion (s : State) (r : RegionId) (x : Region) (t : TileId) :
    (s.setRegion r x).tile t = s.tile t := rfl
@[simp] theorem State.tile_modRegion (s : State) (r : RegionId) (f : Region → Region) (t : TileId) :
    (s.modRegion r f).tile t = s.tile t := rfl
@[simp] theorem State.region_modHw (s : State) (t : TileId) (f : TileHw → TileHw) (r : RegionId) :
    (s.modHw t f).region r = s.region r := rfl
@[simp] theorem State.tile_modHw (s : State) (t u : TileId) (f : TileHw → TileHw) :
    (s.modHw t f).tile u = s.tile u := rfl

/-! Two updates of one thing are one. -/

@[simp] theorem State.setTile_setTile (s : State) (t : TileId) (x y : Tile) :
    (s.setTile t x).setTile t y = s.setTile t y := by
  simp [State.setTile]
@[simp] theorem State.setRegion_setRegion (s : State) (r : RegionId) (x y : Region) :
    (s.setRegion r x).setRegion r y = s.setRegion r y := by
  simp [State.setRegion]
theorem State.modTile_modTile (s : State) (t : TileId) (f g : Tile → Tile) :
    (s.modTile t f).modTile t g = s.modTile t (fun x => g (f x)) := by
  simp [State.modTile]
theorem State.modRegion_modRegion (s : State) (r : RegionId) (f g : Region → Region) :
    (s.modRegion r f).modRegion r g = s.modRegion r (fun x => g (f x)) := by
  simp [State.modRegion]

end Sys2Proof.Machine
end

