-- ==== Sys2Proof/Laws/Issue.lean ====
section
/-!
SUPPORT. Sys2Proof/Laws/Issue.lean: what a slot operation does: all of it when it takes effect, and that a word whose
slot may not issue does nothing.
-/
namespace Sys2Proof.Machine
open Sys2Proof

@[simp] theorem State.site_t (s : State) (r : RegionId) (l : Slot) (t : TileId) (w : SlotWord) : (s.site r l t w).t = t := rfl
@[simp] theorem State.site_r (s : State) (r : RegionId) (l : Slot) (t : TileId) (w : SlotWord) : (s.site r l t w).r = r := rfl
@[simp] theorem State.site_w (s : State) (r : RegionId) (l : Slot) (t : TileId) (w : SlotWord) : (s.site r l t w).w = w := rfl
@[simp] theorem State.site_slot (s : State) (r : RegionId) (l : Slot) (t : TileId) (w : SlotWord) :
    (s.site r l t w).slot = l := rfl
@[simp] theorem State.site_now (s : State) (r : RegionId) (l : Slot) (t : TileId) (w : SlotWord) :
    (s.site r l t w).now = (s.region r).cycle := rfl
@[simp] theorem State.site_pc (s : State) (r : RegionId) (l : Slot) (t : TileId) (w : SlotWord) :
    (s.site r l t w).pc = (s.tile t).ctl.pc := rfl
@[simp] theorem State.site_mark (s : State) (r : RegionId) (l : Slot) (t : TileId) (w : SlotWord) :
    (s.site r l t w).mark = some (l, (s.tile t).ctl.pc) := rfl

/-- A slot that may not issue does nothing. -/
theorem slotOp_idle (slot : Slot) (op : Nat) (t : TileId) (w : SlotWord) (enc act) (s : State)
    (h : s.mayIssue t slot w = none) : slotOp slot op t w enc act s = s := by
  unfold slotOp; split
  · rfl
  · rw [h]

/-- A command whose operation its word does not spell does nothing. -/
theorem slotOp_unfit (slot : Slot) (op : Nat) (t : TileId) (w : SlotWord) (enc act) (s : State)
    (h : fits slot op w = false) : slotOp slot op t w enc act s = s := by
  unfold slotOp; rw [if_pos h]

/-- What the record of the bundle says does not matter to where issue goes. -/
theorem Ctl.endLoop_bundle (c : Ctl) (b : Option OpenBundle) :
    ({ c with bundle := b }).endLoop = ({ (c.endLoop).1 with bundle := b }, (c.endLoop).2) := by
  have e : ({ c with bundle := b } : Ctl).loopHere = c.loopHere := rfl
  unfold Ctl.endLoop
  rw [e]
  cases c.loopHere with
  | none => rfl
  | some l => dsimp only; split <;> rfl

theorem Ctl.goto_bundle (c : Ctl) (n : Nat) (b : Option OpenBundle) :
    ({ c with bundle := b }).goto n = { c.goto n with bundle := b } := by
  unfold Ctl.goto; split <;> rfl

theorem Ctl.advance_bundle (c : Ctl) (f : Flow) (b : Option OpenBundle) :
    ({ c with bundle := b }).advance f = { c.advance f with bundle := b } := by
  have h := c.endLoop_bundle b
  have k := fun n => c.goto_bundle n b
  obtain ⟨g, gw, p, pw, lc, loops, pc, branch, ov, srb, srbw, fsr, ff, hi, run, gate, bundle, next, origin, re, rl⟩ := c
  dsimp only at h k
  unfold Ctl.advance
  cases branch with
  | some target => dsimp only; rw [h]
  | none =>
    cases f with
    | branch target => dsimp only; rw [k]
    | skip n => exact k n
    | seq =>
      dsimp only; rw [h]
      generalize (Ctl.endLoop _) = e
      obtain ⟨d, st⟩ := e
      cases st with
      | some st => rfl
      | none => exact Ctl.goto_bundle d _ b

/-- The S slot of a live bundle counted as issued, and the bundle ended. -/
theorem Ctl.after_s (c : Ctl) (b : OpenBundle) (f : Flow) (n : Nat) (hb : c.bundle = some b) :
    (match (c.noteSlot .s .live).bundle with
      | some b => match b.mode with
        | .live => { (c.noteSlot .s .live).advance f with bundle := none, next := n + 1 }
        | _ => { c.noteSlot .s .live with bundle := none }
      | none => c.noteSlot .s .live) = c.after .s f n := by
  unfold Ctl.noteSlot Ctl.after
  rw [hb, if_pos rfl, Ctl.advance_bundle]
  rfl

/-- A live operation that takes effect: its own effect, and the core's control flow. -/
theorem slotOp_done (slot : Slot) (op : Nat) (t : TileId) (w : SlotWord) (enc : Site → State → Option (Nat × Nat))
    (act : Site → State → Act) (s a : State) (r : RegionId) (f : Flow) (ho : fits slot op w = true) (h : Issues s slot t w r)
    (he : enc ((s.opened r t).site r slot t w) (s.opened r t) = none)
    (ha : act ((s.opened r t).site r slot t w) (s.opened r t) = .done a f)
    (hb : (a.tile t).ctl.bundle = ((s.opened r t).tile t).ctl.bundle)
    (hc : (a.region r).cycle = ((s.opened r t).region r).cycle) :
    slotOp slot op t w enc act s = a.issued r t slot f := by
  obtain ⟨h1, h2, h3⟩ := h
  unfold slotOp
  rw [if_neg (by simp [ho]), h1]
  dsimp only
  split
  · next hn => rw [hn] at h2; cases h2
  · next b hs =>
    rw [hs] at h2 hb
    have h2 : b.mode = .live := by simpa using h2
    have e : slotAct enc act ((s.opened r t).site r slot t w) (s.opened r t) = .done a f := by
      unfold slotAct
      rw [he]
      exact (if_pos h3).trans ha
    rw [e, h2]
    unfold settleSlot State.issued
    by_cases hx : slot = .s
    · subst hx
      have k := Ctl.after_s (a.tile t).ctl b f (a.region r).cycle hb
      simp only [if_true, closeBundle, Site.ctl, State.site, State.modTile_modTile, Act.flow]
      rw [← hc]
      exact congrArg (fun c => a.setTile t { a.tile t with ctl := c }) k
    · unfold Ctl.after; simp only [if_neg hx]; rfl

end Sys2Proof.Machine
end

