-- ==== Sys2Proof/Laws/Memory.lean ====
section
/-!
SUPPORT. Sys2Proof/Laws/Memory.lean: the memories keep their canonical form: the external memories under every operation
on them, and tile and program memory under theirs; and what a poisoned line or a touched page is.
-/
namespace Sys2Proof.Machine
open Sys2Proof

/-! ### Sets of numbers -/

@[simp] theorem mem_addNat (k j : Nat) (l : List Nat) : j ∈ addNat k l ↔ j = k ∨ j ∈ l := by
  induction l with
  | nil => simp [addNat]
  | cons a r ih =>
    simp only [addNat]
    split
    · simp
    · split
      · next h => subst h; simp
      · simp only [List.mem_cons, ih]; constructor <;> rintro (h | h | h) <;> simp [h]

theorem risesFrom_mono {lo lo' : Nat} (l : List Nat) (h : lo' ≤ lo) (r : risesFrom lo l = true) : risesFrom lo' l = true := by
  cases l with
  | nil => rfl
  | cons k l =>
    simp only [risesFrom, Bool.and_eq_true, decide_eq_true_eq] at r ⊢
    exact ⟨by omega, r.2⟩

theorem risesFrom_addNat (k lo : Nat) (l : List Nat) (h : lo ≤ k) (r : risesFrom lo l = true) :
    risesFrom lo (addNat k l) = true := by
  induction l generalizing lo with
  | nil => simp [addNat, risesFrom, h]
  | cons a l ih =>
    simp only [risesFrom, Bool.and_eq_true, decide_eq_true_eq] at r
    simp only [addNat]
    split
    · simp only [risesFrom, Bool.and_eq_true, decide_eq_true_eq]; exact ⟨h, by omega, r.2⟩
    · split
      · simp only [risesFrom, Bool.and_eq_true, decide_eq_true_eq]; exact r
      · simp only [risesFrom, Bool.and_eq_true, decide_eq_true_eq]; exact ⟨r.1, ih _ (by omega) r.2⟩

theorem risesFrom_filter (p : Nat → Bool) (lo : Nat) (l : List Nat) (r : risesFrom lo l = true) :
    risesFrom lo (l.filter p) = true := by
  induction l generalizing lo with
  | nil => rfl
  | cons a l ih =>
    simp only [risesFrom, Bool.and_eq_true, decide_eq_true_eq] at r
    simp only [List.filter_cons]
    split
    · simp only [risesFrom, Bool.and_eq_true, decide_eq_true_eq]; exact ⟨r.1, ih _ r.2⟩
    · exact risesFrom_mono _ (by omega) (ih _ r.2)

/-! ### The external memories -/

/-- The canonical form, said out. -/
theorem Memory.wf_iff (m : Mem) : Memory.wf m = true ↔
    m.bytes.wf = true ∧ risesFrom 0 m.unmarked = true ∧ risesFrom 0 m.poison = true ∧
      ∀ c ∈ m.bytes, pageOf c.1 ∈ m.unmarked := by
  simp only [Memory.wf, Bool.and_eq_true, List.all_eq_true, List.contains_iff_mem, and_assoc]

/-- The memories at reset. -/
theorem Memory.wf_reset : Memory.wf State.reset.mem = true := rfl

theorem Cells.mem_put {w : Nat} (m : Cells w) (k : Nat) (v : BitVec w) (c) (h : c ∈ m.put k v) : c.1 = k ∨ c ∈ m := by
  induction m with
  | nil => simp only [Cells.put] at h; split at h <;> simp_all
  | cons a r ih =>
    obtain ⟨q, b⟩ := a
    simp only [Cells.put] at h
    split at h
    · split at h
      · exact .inr h
      · rcases List.mem_cons.1 h with h | h
        · exact .inl (by rw [h])
        · exact .inr h
    · split at h
      · next e =>
        split at h
        · exact .inr (List.mem_cons_of_mem _ h)
        · rcases List.mem_cons.1 h with h | h
          · exact .inl (by rw [h])
          · exact .inr (List.mem_cons_of_mem _ h)
      · rcases List.mem_cons.1 h with h | h
        · exact .inr (by simp [h])
        · rcases ih h with h | h
          · exact .inl h
          · exact .inr (List.mem_cons_of_mem _ h)

theorem Cells.mem_putList {w : Nat} (m : Cells w) (k : Nat) (l : List (BitVec w)) (c) (h : c ∈ m.putList k l) :
    (k ≤ c.1 ∧ c.1 < k + l.length) ∨ c ∈ m := by
  induction l generalizing m k with
  | nil => exact .inr h
  | cons v r ih =>
    rcases ih (m.put k v) (k + 1) h with h | h
    · exact .inl (by simp only [List.length_cons]; omega)
    · rcases Cells.mem_put m k v c h with h | h
      · exact .inl (by simp only [List.length_cons]; omega)
      · exact .inr h

/-- Making contents defined again, or undefined, keeps the form. -/
@[simp] theorem Memory.wf_unveil (m : Mem) (lo hi : Nat) : Memory.wf (m.unveil lo hi) = Memory.wf m := rfl
@[simp] theorem Memory.wf_veil (s : State) (lo hi : Nat) : Memory.wf (s.veil lo hi).mem = Memory.wf s.mem := rfl

/-- Clearing a mark keeps the form. -/
theorem Memory.wf_touch (m : Mem) (page : Nat) (h : Memory.wf m = true) : Memory.wf (m.touch page) = true := by
  rw [Memory.wf_iff] at h ⊢
  exact ⟨h.1, risesFrom_addNat _ _ _ (Nat.zero_le _) h.2.1, h.2.2.1, fun c hc => (mem_addNat _ _ _).2 (.inr (h.2.2.2 c hc))⟩

/-- Poisoning a line keeps the form. -/
theorem Memory.wf_poisonLine (m : Mem) (line : Nat) (h : Memory.wf m = true) : Memory.wf (m.poisonLine line) = true := by
  rw [Memory.wf_iff] at h ⊢
  exact ⟨h.1, h.2.1, risesFrom_addNat _ _ _ (Nat.zero_le _) h.2.2.1, h.2.2.2⟩

theorem Memory.wf_touches (m : Mem) (page : Nat) (l : List Nat) (h : Memory.wf m = true) :
    Memory.wf (l.foldl (fun m k => m.touch (page + k)) m) = true := by
  induction l generalizing m with
  | nil => exact h
  | cons k r ih => exact ih _ (Memory.wf_touch m _ h)

theorem Mem.unmarked_touches (m : Mem) (page q : Nat) (l : List Nat) :
    q ∈ (l.foldl (fun m k => m.touch (page + k)) m).unmarked ↔ (∃ k ∈ l, q = page + k) ∨ q ∈ m.unmarked := by
  induction l generalizing m with
  | nil => simp
  | cons k r ih =>
    rw [List.foldl_cons, ih]
    simp only [Mem.touch, mem_addNat, List.mem_cons, exists_eq_or_imp]
    constructor
    · rintro (h | h | h)
      · exact .inl (.inr h)
      · exact .inl (.inl h)
      · exact .inr h
    · rintro ((h | h) | h)
      · exact .inr (.inl h)
      · exact .inl h
      · exact .inr (.inr h)

theorem Mem.bytes_touches (m : Mem) (page : Nat) (l : List Nat) :
    (l.foldl (fun m k => m.touch (page + k)) m).bytes = m.bytes := by
  induction l generalizing m with
  | nil => rfl
  | cons k r ih => rw [List.foldl_cons, ih]; rfl

/-- Touching the pages of a range keeps the form. -/
theorem Memory.wf_touchRange (m : Mem) (pa n : Nat) (h : Memory.wf m = true) : Memory.wf (m.touchRange pa n) = true :=
  Memory.wf_touches m _ _ h

/-- The page of every address of a touched range is unmarked. -/
theorem Mem.page_touchRange (m : Mem) (pa n a : Nat) (h : pa ≤ a) (k : a < pa + n) :
    pageOf a ∈ (m.touchRange pa n).unmarked := by
  unfold Mem.touchRange
  rw [Mem.unmarked_touches]
  refine .inl ⟨pageOf a - pageOf pa, ?_, ?_⟩
  · rw [List.mem_range]; unfold pageOf; omega
  · unfold pageOf; omega

/-- A write keeps the form. -/
theorem Memory.wf_write (m : Mem) (pa : Nat) (b : List Byte) (h : Memory.wf m = true) : Memory.wf (m.write pa b) = true := by
  unfold Mem.write
  split
  · exact h
  · have t := Memory.wf_touchRange m pa b.length h
    have p := Mem.page_touchRange m pa b.length
    dsimp only
    generalize m.touchRange pa b.length = u at t p ⊢
    rw [Memory.wf_iff] at t ⊢
    refine ⟨Cells.wf_putList _ _ _ t.1, t.2.1, risesFrom_filter _ _ _ t.2.2.1, ?_⟩
    intro c hc
    rcases Cells.mem_putList _ _ _ _ hc with q | q
    · simp only [List.length_map, List.length_range] at q; exact p _ q.1 q.2
    · exact t.2.2.2 c q

/-- Marking a page keeps the form. -/
theorem Memory.wf_mark (m : Mem) (page : Nat) (h : Memory.wf m = true) : Memory.wf (m.mark page) = true := by
  rw [Memory.wf_iff] at h ⊢
  refine ⟨?_, risesFrom_filter _ _ _ h.2.1, risesFrom_filter _ _ _ h.2.2.1, ?_⟩
  · exact Cells.wf_clear m.bytes (fun a => pageOf a == page) h.1
  intro c hc
  simp only [Mem.mark, Mem.unveil, Cells.clear, List.mem_filter, Bool.not_eq_true', beq_eq_false_iff_ne] at hc ⊢
  exact ⟨h.2.2.2 c hc.1, by simpa using hc.2⟩

/-- Zeroing a range keeps the form. -/
theorem Memory.wf_zero (m : Mem) (pa n : Nat) (h : Memory.wf m = true) : Memory.wf (m.zero pa n) = true := by
  unfold Mem.zero
  split
  · exact Memory.wf_mark m _ h
  · have t := Memory.wf_touch m (pageOf pa) h
    dsimp only
    generalize m.touch (pageOf pa) = u at t ⊢
    rw [Memory.wf_iff] at t ⊢
    refine ⟨?_, t.2.1, risesFrom_filter _ _ _ t.2.2.1, ?_⟩
    · exact Cells.wf_clear u.bytes (fun a => decide (pa ≤ a) && decide (a < pa + n)) t.1
    intro c hc
    simp only [Mem.unveil, Cells.clear, List.mem_filter] at hc ⊢
    exact t.2.2.2 c hc.1

/-- The bytes of one page lie in one channel, and in the frame store together. -/
theorem page_uniform (a : Nat) : chanOf a = chanOf (pageOf a * 0x200000) ∧
    inFrameStore a = inFrameStore (pageOf a * 0x200000) := by
  have l1 : a < 0x6000000000 ↔ a / 0x200000 * 0x200000 < 0x6000000000 := by omega
  have l2 : 0x8000000000 ≤ a ↔ 0x8000000000 ≤ a / 0x200000 * 0x200000 := by omega
  have l3 : a < 0xE000000000 ↔ a / 0x200000 * 0x200000 < 0xE000000000 := by omega
  have l4 : 0x0BFE000000 ≤ a ↔ 0x0BFE000000 ≤ a / 0x200000 * 0x200000 := by omega
  have l5 : a < 0x0C00000000 ↔ a / 0x200000 * 0x200000 < 0x0C00000000 := by omega
  have l6 : a / 0x60000000 = a / 0x200000 * 0x200000 / 0x60000000 := by omega
  have l7 : 0x8000000000 ≤ a → (a - 0x8000000000) / 0x180000000 = (a / 0x200000 * 0x200000 - 0x8000000000) / 0x180000000 := by
    omega
  constructor
  · unfold chanOf pageOf
    rw [← l6]
    by_cases h1 : a < 0x6000000000
    · rw [if_pos h1, if_pos (l1.1 h1)]
    · rw [if_neg h1, if_neg (fun k => h1 (l1.2 k))]
      by_cases h2 : 0x8000000000 ≤ a ∧ a < 0xE000000000
      · rw [if_pos h2, if_pos ⟨l2.1 h2.1, l3.1 h2.2⟩, l7 h2.1]
      · rw [if_neg h2, if_neg (fun k => h2 ⟨l2.2 k.1, l3.2 k.2⟩)]
  · unfold inFrameStore frameStoreBase pageOf
    rw [decide_eq_decide.2 l4, decide_eq_decide.2 l5]

/-- Marking the pages of channels keeps the form. -/
theorem Memory.wf_markChannels (m : Mem) (p : MChan → Bool) (h : Memory.wf m = true) :
    Memory.wf (m.markChannels p) = true := by
  have f : ∀ (l : List MChan) (m : Mem), Memory.wf m = true → Memory.wf (l.foldl (fun m k =>
      if p k then m.unveil k.base (if k = .hbm 31 then frameStoreBase else k.base + k.size) else m) m) = true := by
    intro l
    induction l with
    | nil => exact fun _ h => h
    | cons k r ih => intro m h; refine ih _ ?_; dsimp only; split <;> simpa using h
  unfold Mem.markChannels
  have t := f ((List.range 256).map MChan.hbm ++ (List.range 64).map MChan.lpddr) m h
  dsimp only
  generalize List.foldl _ m _ = u at t ⊢
  rw [Memory.wf_iff] at t ⊢
  refine ⟨?_, risesFrom_filter _ _ _ t.2.1, risesFrom_filter _ _ _ t.2.2.1, ?_⟩
  · exact Cells.wf_clear u.bytes (fun pa => (match chanOf pa with
      | some k => p k
      | none => false) && !inFrameStore pa) t.1
  intro c hc
  simp only [Cells.clear, List.mem_filter] at hc ⊢
  refine ⟨t.2.2.2 c hc.1, ?_⟩
  rw [← (page_uniform c.1).1, ← (page_uniform c.1).2]
  exact hc.2

/-! ### Tile and program memory -/

/-- A row write keeps tile memory in its form. -/
theorem Tile.tm_wf_put (x : Tile) (row : Nat) (v : Row) (h : x.tm.wf = true) : (x.tm.put row v).wf = true :=
  Cells.wf_put _ _ _ h

/-- A code-load block keeps program memory in its form. -/
theorem Tile.pm_wf_writeBlock (x : Tile) (b : Nat) (v : Row) (h : x.pm.wf = true) : (x.writeBlock b v).pm.wf = true := by
  have e : (x.writeBlock b v).pm = x.pm.putList (32 * b) (blockBundles v) := by simp only [Tile.writeBlock]
  rw [e]
  exact Cells.wf_putList x.pm (32 * b) (blockBundles v) h

theorem Cells.wf_foldl_put {w : Nat} (f : Nat → BitVec w) (l : List Nat) (m : Cells w) (h : m.wf = true) :
    (l.foldl (fun m k => m.put k (f k)) m).wf = true := by
  induction l generalizing m with
  | nil => exact h
  | cons k r ih => exact ih _ (Cells.wf_put _ _ _ h)

/-- Undefined contents are in the form. -/
theorem drawCells_wf (w : Nat) (ks : List Nat) (n : Nat) : (drawCells w ks n).1.wf = true := by
  have h : ∀ (l : List (Nat × Nat)) (m : Cells w), m.wf = true →
      (l.foldl (fun (m : Cells w) k => m.put k.1 (Config.free w (n + k.2))) m).wf = true := by
    intro l
    induction l with
    | nil => exact fun _ h => h
    | cons k r ih => exact fun m h => ih _ (Cells.wf_put _ _ _ h)
  exact h ks.zipIdx [] rfl

end Sys2Proof.Machine
end

