-- ==== Sys2Proof/Laws/Ops.lean ====
section
/-!
SUPPORT. Sys2Proof/Laws/Ops.lean: the parts of the state that the shared operations (events, faults, hazards, tile-memory
reads and writes) leave as they are.
-/
namespace Sys2Proof.Machine
open Sys2Proof

/-! `msixSend` writes hub only. -/

@[simp] theorem State.msixSend_pending (s : State) (a b : Nat) :
    (s.msixSend a b).pending = s.pending := by
  unfold State.msixSend; split <;> rfl
@[simp] theorem State.msixSend_wall (s : State) (a b : Nat) :
    (s.msixSend a b).wall = s.wall := by
  unfold State.msixSend; split <;> rfl
@[simp] theorem State.msixSend_beats (s : State) (a b : Nat) :
    (s.msixSend a b).beats = s.beats := by
  unfold State.msixSend; split <;> rfl
@[simp] theorem State.msixSend_free (s : State) (a b : Nat) :
    (s.msixSend a b).free = s.free := by
  unfold State.msixSend; split <;> rfl
@[simp] theorem State.msixSend_order (s : State) (a b : Nat) :
    (s.msixSend a b).order = s.order := by
  unfold State.msixSend; split <;> rfl
@[simp] theorem State.msixSend_tiles (s : State) (a b : Nat) :
    (s.msixSend a b).tiles = s.tiles := by
  unfold State.msixSend; split <;> rfl
@[simp] theorem State.msixSend_undo (s : State) (a b : Nat) :
    (s.msixSend a b).undo = s.undo := by
  unfold State.msixSend; split <;> rfl
@[simp] theorem State.msixSend_hw (s : State) (a b : Nat) :
    (s.msixSend a b).hw = s.hw := by
  unfold State.msixSend; split <;> rfl
@[simp] theorem State.msixSend_scrubPass (s : State) (a b : Nat) :
    (s.msixSend a b).scrubPass = s.scrubPass := by
  unfold State.msixSend; split <;> rfl
@[simp] theorem State.msixSend_beatAt (s : State) (a b : Nat) :
    (s.msixSend a b).beatAt = s.beatAt := by
  unfold State.msixSend; split <;> rfl
@[simp] theorem State.msixSend_tilesAt (s : State) (a b : Nat) :
    (s.msixSend a b).tilesAt = s.tilesAt := by
  unfold State.msixSend; split <;> rfl
@[simp] theorem State.msixSend_parity (s : State) (a b : Nat) :
    (s.msixSend a b).parity = s.parity := by
  unfold State.msixSend; split <;> rfl
@[simp] theorem State.msixSend_stopped (s : State) (a b : Nat) :
    (s.msixSend a b).stopped = s.stopped := by
  unfold State.msixSend; split <;> rfl
@[simp] theorem State.msixSend_objs (s : State) (a b : Nat) :
    (s.msixSend a b).objs = s.objs := by
  unfold State.msixSend; split <;> rfl
@[simp] theorem State.msixSend_regions (s : State) (a b : Nat) :
    (s.msixSend a b).regions = s.regions := by
  unfold State.msixSend; split <;> rfl
@[simp] theorem State.msixSend_ports (s : State) (a b : Nat) :
    (s.msixSend a b).ports = s.ports := by
  unfold State.msixSend; split <;> rfl
@[simp] theorem State.msixSend_fuses (s : State) (a b : Nat) :
    (s.msixSend a b).fuses = s.fuses := by
  unfold State.msixSend; split <;> rfl
@[simp] theorem State.msixSend_frame (s : State) (a b : Nat) :
    (s.msixSend a b).frame = s.frame := by
  unfold State.msixSend; split <;> rfl
@[simp] theorem State.msixSend_units (s : State) (a b : Nat) :
    (s.msixSend a b).units = s.units := by
  unfold State.msixSend; split <;> rfl
@[simp] theorem State.msixSend_ident (s : State) (a b : Nat) :
    (s.msixSend a b).ident = s.ident := by
  unfold State.msixSend; split <;> rfl
@[simp] theorem State.msixSend_cad (s : State) (a b : Nat) :
    (s.msixSend a b).cad = s.cad := by
  unfold State.msixSend; split <;> rfl
@[simp] theorem State.msixSend_power (s : State) (a b : Nat) :
    (s.msixSend a b).power = s.power := by
  unfold State.msixSend; split <;> rfl
@[simp] theorem State.msixSend_resets (s : State) (a b : Nat) :
    (s.msixSend a b).resets = s.resets := by
  unfold State.msixSend; split <;> rfl
@[simp] theorem State.msixSend_mem (s : State) (a b : Nat) :
    (s.msixSend a b).mem = s.mem := by
  unfold State.msixSend; split <;> rfl

/-! `hubEvent` writes hub only. -/

@[simp] theorem State.hubEvent_pending (s : State) (b : Nat) :
    (s.hubEvent b).pending = s.pending := by
  unfold State.hubEvent; simp
@[simp] theorem State.hubEvent_wall (s : State) (b : Nat) :
    (s.hubEvent b).wall = s.wall := by
  unfold State.hubEvent; simp
@[simp] theorem State.hubEvent_beats (s : State) (b : Nat) :
    (s.hubEvent b).beats = s.beats := by
  unfold State.hubEvent; simp
@[simp] theorem State.hubEvent_free (s : State) (b : Nat) :
    (s.hubEvent b).free = s.free := by
  unfold State.hubEvent; simp
@[simp] theorem State.hubEvent_order (s : State) (b : Nat) :
    (s.hubEvent b).order = s.order := by
  unfold State.hubEvent; simp
@[simp] theorem State.hubEvent_tiles (s : State) (b : Nat) :
    (s.hubEvent b).tiles = s.tiles := by
  unfold State.hubEvent; simp
@[simp] theorem State.hubEvent_undo (s : State) (b : Nat) :
    (s.hubEvent b).undo = s.undo := by
  unfold State.hubEvent; simp
@[simp] theorem State.hubEvent_hw (s : State) (b : Nat) :
    (s.hubEvent b).hw = s.hw := by
  unfold State.hubEvent; simp
@[simp] theorem State.hubEvent_scrubPass (s : State) (b : Nat) :
    (s.hubEvent b).scrubPass = s.scrubPass := by
  unfold State.hubEvent; simp
@[simp] theorem State.hubEvent_beatAt (s : State) (b : Nat) :
    (s.hubEvent b).beatAt = s.beatAt := by
  unfold State.hubEvent; simp
@[simp] theorem State.hubEvent_tilesAt (s : State) (b : Nat) :
    (s.hubEvent b).tilesAt = s.tilesAt := by
  unfold State.hubEvent; simp
@[simp] theorem State.hubEvent_parity (s : State) (b : Nat) :
    (s.hubEvent b).parity = s.parity := by
  unfold State.hubEvent; simp
@[simp] theorem State.hubEvent_stopped (s : State) (b : Nat) :
    (s.hubEvent b).stopped = s.stopped := by
  unfold State.hubEvent; simp
@[simp] theorem State.hubEvent_objs (s : State) (b : Nat) :
    (s.hubEvent b).objs = s.objs := by
  unfold State.hubEvent; simp
@[simp] theorem State.hubEvent_regions (s : State) (b : Nat) :
    (s.hubEvent b).regions = s.regions := by
  unfold State.hubEvent; simp
@[simp] theorem State.hubEvent_ports (s : State) (b : Nat) :
    (s.hubEvent b).ports = s.ports := by
  unfold State.hubEvent; simp
@[simp] theorem State.hubEvent_fuses (s : State) (b : Nat) :
    (s.hubEvent b).fuses = s.fuses := by
  unfold State.hubEvent; simp
@[simp] theorem State.hubEvent_frame (s : State) (b : Nat) :
    (s.hubEvent b).frame = s.frame := by
  unfold State.hubEvent; simp
@[simp] theorem State.hubEvent_units (s : State) (b : Nat) :
    (s.hubEvent b).units = s.units := by
  unfold State.hubEvent; simp
@[simp] theorem State.hubEvent_ident (s : State) (b : Nat) :
    (s.hubEvent b).ident = s.ident := by
  unfold State.hubEvent; simp
@[simp] theorem State.hubEvent_cad (s : State) (b : Nat) :
    (s.hubEvent b).cad = s.cad := by
  unfold State.hubEvent; simp
@[simp] theorem State.hubEvent_power (s : State) (b : Nat) :
    (s.hubEvent b).power = s.power := by
  unfold State.hubEvent; simp
@[simp] theorem State.hubEvent_resets (s : State) (b : Nat) :
    (s.hubEvent b).resets = s.resets := by
  unfold State.hubEvent; simp
@[simp] theorem State.hubEvent_mem (s : State) (b : Nat) :
    (s.hubEvent b).mem = s.mem := by
  unfold State.hubEvent; simp

/-! `cadEvent` writes hub, cad only. -/

@[simp] theorem State.cadEvent_pending (s : State) (b : Nat) :
    (s.cadEvent b).pending = s.pending := by
  unfold State.cadEvent; simp
@[simp] theorem State.cadEvent_wall (s : State) (b : Nat) :
    (s.cadEvent b).wall = s.wall := by
  unfold State.cadEvent; simp
@[simp] theorem State.cadEvent_beats (s : State) (b : Nat) :
    (s.cadEvent b).beats = s.beats := by
  unfold State.cadEvent; simp
@[simp] theorem State.cadEvent_free (s : State) (b : Nat) :
    (s.cadEvent b).free = s.free := by
  unfold State.cadEvent; simp
@[simp] theorem State.cadEvent_order (s : State) (b : Nat) :
    (s.cadEvent b).order = s.order := by
  unfold State.cadEvent; simp
@[simp] theorem State.cadEvent_tiles (s : State) (b : Nat) :
    (s.cadEvent b).tiles = s.tiles := by
  unfold State.cadEvent; simp
@[simp] theorem State.cadEvent_undo (s : State) (b : Nat) :
    (s.cadEvent b).undo = s.undo := by
  unfold State.cadEvent; simp
@[simp] theorem State.cadEvent_hw (s : State) (b : Nat) :
    (s.cadEvent b).hw = s.hw := by
  unfold State.cadEvent; simp
@[simp] theorem State.cadEvent_scrubPass (s : State) (b : Nat) :
    (s.cadEvent b).scrubPass = s.scrubPass := by
  unfold State.cadEvent; simp
@[simp] theorem State.cadEvent_beatAt (s : State) (b : Nat) :
    (s.cadEvent b).beatAt = s.beatAt := by
  unfold State.cadEvent; simp
@[simp] theorem State.cadEvent_tilesAt (s : State) (b : Nat) :
    (s.cadEvent b).tilesAt = s.tilesAt := by
  unfold State.cadEvent; simp
@[simp] theorem State.cadEvent_parity (s : State) (b : Nat) :
    (s.cadEvent b).parity = s.parity := by
  unfold State.cadEvent; simp
@[simp] theorem State.cadEvent_stopped (s : State) (b : Nat) :
    (s.cadEvent b).stopped = s.stopped := by
  unfold State.cadEvent; simp
@[simp] theorem State.cadEvent_objs (s : State) (b : Nat) :
    (s.cadEvent b).objs = s.objs := by
  unfold State.cadEvent; simp
@[simp] theorem State.cadEvent_regions (s : State) (b : Nat) :
    (s.cadEvent b).regions = s.regions := by
  unfold State.cadEvent; simp
@[simp] theorem State.cadEvent_ports (s : State) (b : Nat) :
    (s.cadEvent b).ports = s.ports := by
  unfold State.cadEvent; simp
@[simp] theorem State.cadEvent_fuses (s : State) (b : Nat) :
    (s.cadEvent b).fuses = s.fuses := by
  unfold State.cadEvent; simp
@[simp] theorem State.cadEvent_frame (s : State) (b : Nat) :
    (s.cadEvent b).frame = s.frame := by
  unfold State.cadEvent; simp
@[simp] theorem State.cadEvent_units (s : State) (b : Nat) :
    (s.cadEvent b).units = s.units := by
  unfold State.cadEvent; simp
@[simp] theorem State.cadEvent_ident (s : State) (b : Nat) :
    (s.cadEvent b).ident = s.ident := by
  unfold State.cadEvent; simp
@[simp] theorem State.cadEvent_power (s : State) (b : Nat) :
    (s.cadEvent b).power = s.power := by
  unfold State.cadEvent; simp
@[simp] theorem State.cadEvent_resets (s : State) (b : Nat) :
    (s.cadEvent b).resets = s.resets := by
  unfold State.cadEvent; simp
@[simp] theorem State.cadEvent_mem (s : State) (b : Nat) :
    (s.cadEvent b).mem = s.mem := by
  unfold State.cadEvent; simp

/-! `portEvent` writes ports, hub only. -/

@[simp] theorem State.portEvent_pending (s : State) (p : PortId) (b : Nat) :
    (s.portEvent p b).pending = s.pending := by
  unfold State.portEvent; simp
@[simp] theorem State.portEvent_wall (s : State) (p : PortId) (b : Nat) :
    (s.portEvent p b).wall = s.wall := by
  unfold State.portEvent; simp
@[simp] theorem State.portEvent_beats (s : State) (p : PortId) (b : Nat) :
    (s.portEvent p b).beats = s.beats := by
  unfold State.portEvent; simp
@[simp] theorem State.portEvent_free (s : State) (p : PortId) (b : Nat) :
    (s.portEvent p b).free = s.free := by
  unfold State.portEvent; simp
@[simp] theorem State.portEvent_order (s : State) (p : PortId) (b : Nat) :
    (s.portEvent p b).order = s.order := by
  unfold State.portEvent; simp
@[simp] theorem State.portEvent_tiles (s : State) (p : PortId) (b : Nat) :
    (s.portEvent p b).tiles = s.tiles := by
  unfold State.portEvent; simp
@[simp] theorem State.portEvent_undo (s : State) (p : PortId) (b : Nat) :
    (s.portEvent p b).undo = s.undo := by
  unfold State.portEvent; simp
@[simp] theorem State.portEvent_hw (s : State) (p : PortId) (b : Nat) :
    (s.portEvent p b).hw = s.hw := by
  unfold State.portEvent; simp
@[simp] theorem State.portEvent_scrubPass (s : State) (p : PortId) (b : Nat) :
    (s.portEvent p b).scrubPass = s.scrubPass := by
  unfold State.portEvent; simp
@[simp] theorem State.portEvent_beatAt (s : State) (p : PortId) (b : Nat) :
    (s.portEvent p b).beatAt = s.beatAt := by
  unfold State.portEvent; simp
@[simp] theorem State.portEvent_tilesAt (s : State) (p : PortId) (b : Nat) :
    (s.portEvent p b).tilesAt = s.tilesAt := by
  unfold State.portEvent; simp
@[simp] theorem State.portEvent_parity (s : State) (p : PortId) (b : Nat) :
    (s.portEvent p b).parity = s.parity := by
  unfold State.portEvent; simp
@[simp] theorem State.portEvent_stopped (s : State) (p : PortId) (b : Nat) :
    (s.portEvent p b).stopped = s.stopped := by
  unfold State.portEvent; simp
@[simp] theorem State.portEvent_objs (s : State) (p : PortId) (b : Nat) :
    (s.portEvent p b).objs = s.objs := by
  unfold State.portEvent; simp
@[simp] theorem State.portEvent_regions (s : State) (p : PortId) (b : Nat) :
    (s.portEvent p b).regions = s.regions := by
  unfold State.portEvent; simp
@[simp] theorem State.portEvent_fuses (s : State) (p : PortId) (b : Nat) :
    (s.portEvent p b).fuses = s.fuses := by
  unfold State.portEvent; simp
@[simp] theorem State.portEvent_frame (s : State) (p : PortId) (b : Nat) :
    (s.portEvent p b).frame = s.frame := by
  unfold State.portEvent; simp
@[simp] theorem State.portEvent_units (s : State) (p : PortId) (b : Nat) :
    (s.portEvent p b).units = s.units := by
  unfold State.portEvent; simp
@[simp] theorem State.portEvent_ident (s : State) (p : PortId) (b : Nat) :
    (s.portEvent p b).ident = s.ident := by
  unfold State.portEvent; simp
@[simp] theorem State.portEvent_cad (s : State) (p : PortId) (b : Nat) :
    (s.portEvent p b).cad = s.cad := by
  unfold State.portEvent; simp
@[simp] theorem State.portEvent_power (s : State) (p : PortId) (b : Nat) :
    (s.portEvent p b).power = s.power := by
  unfold State.portEvent; simp
@[simp] theorem State.portEvent_resets (s : State) (p : PortId) (b : Nat) :
    (s.portEvent p b).resets = s.resets := by
  unfold State.portEvent; simp
@[simp] theorem State.portEvent_mem (s : State) (p : PortId) (b : Nat) :
    (s.portEvent p b).mem = s.mem := by
  unfold State.portEvent; simp

/-! `regionEvent` writes regions, hub only. -/

@[simp] theorem State.regionEvent_pending (s : State) (r : RegionId) (b : Nat) :
    (s.regionEvent r b).pending = s.pending := by
  unfold State.regionEvent; simp
@[simp] theorem State.regionEvent_wall (s : State) (r : RegionId) (b : Nat) :
    (s.regionEvent r b).wall = s.wall := by
  unfold State.regionEvent; simp
@[simp] theorem State.regionEvent_beats (s : State) (r : RegionId) (b : Nat) :
    (s.regionEvent r b).beats = s.beats := by
  unfold State.regionEvent; simp
@[simp] theorem State.regionEvent_free (s : State) (r : RegionId) (b : Nat) :
    (s.regionEvent r b).free = s.free := by
  unfold State.regionEvent; simp
@[simp] theorem State.regionEvent_order (s : State) (r : RegionId) (b : Nat) :
    (s.regionEvent r b).order = s.order := by
  unfold State.regionEvent; simp
@[simp] theorem State.regionEvent_tiles (s : State) (r : RegionId) (b : Nat) :
    (s.regionEvent r b).tiles = s.tiles := by
  unfold State.regionEvent; simp
@[simp] theorem State.regionEvent_undo (s : State) (r : RegionId) (b : Nat) :
    (s.regionEvent r b).undo = s.undo := by
  unfold State.regionEvent; simp
@[simp] theorem State.regionEvent_hw (s : State) (r : RegionId) (b : Nat) :
    (s.regionEvent r b).hw = s.hw := by
  unfold State.regionEvent; simp
@[simp] theorem State.regionEvent_scrubPass (s : State) (r : RegionId) (b : Nat) :
    (s.regionEvent r b).scrubPass = s.scrubPass := by
  unfold State.regionEvent; simp
@[simp] theorem State.regionEvent_beatAt (s : State) (r : RegionId) (b : Nat) :
    (s.regionEvent r b).beatAt = s.beatAt := by
  unfold State.regionEvent; simp
@[simp] theorem State.regionEvent_tilesAt (s : State) (r : RegionId) (b : Nat) :
    (s.regionEvent r b).tilesAt = s.tilesAt := by
  unfold State.regionEvent; simp
@[simp] theorem State.regionEvent_parity (s : State) (r : RegionId) (b : Nat) :
    (s.regionEvent r b).parity = s.parity := by
  unfold State.regionEvent; simp
@[simp] theorem State.regionEvent_stopped (s : State) (r : RegionId) (b : Nat) :
    (s.regionEvent r b).stopped = s.stopped := by
  unfold State.regionEvent; simp
@[simp] theorem State.regionEvent_objs (s : State) (r : RegionId) (b : Nat) :
    (s.regionEvent r b).objs = s.objs := by
  unfold State.regionEvent; simp
@[simp] theorem State.regionEvent_ports (s : State) (r : RegionId) (b : Nat) :
    (s.regionEvent r b).ports = s.ports := by
  unfold State.regionEvent; simp
@[simp] theorem State.regionEvent_fuses (s : State) (r : RegionId) (b : Nat) :
    (s.regionEvent r b).fuses = s.fuses := by
  unfold State.regionEvent; simp
@[simp] theorem State.regionEvent_frame (s : State) (r : RegionId) (b : Nat) :
    (s.regionEvent r b).frame = s.frame := by
  unfold State.regionEvent; simp
@[simp] theorem State.regionEvent_units (s : State) (r : RegionId) (b : Nat) :
    (s.regionEvent r b).units = s.units := by
  unfold State.regionEvent; simp
@[simp] theorem State.regionEvent_ident (s : State) (r : RegionId) (b : Nat) :
    (s.regionEvent r b).ident = s.ident := by
  unfold State.regionEvent; simp
@[simp] theorem State.regionEvent_cad (s : State) (r : RegionId) (b : Nat) :
    (s.regionEvent r b).cad = s.cad := by
  unfold State.regionEvent; simp
@[simp] theorem State.regionEvent_power (s : State) (r : RegionId) (b : Nat) :
    (s.regionEvent r b).power = s.power := by
  unfold State.regionEvent; simp
@[simp] theorem State.regionEvent_resets (s : State) (r : RegionId) (b : Nat) :
    (s.regionEvent r b).resets = s.resets := by
  unfold State.regionEvent; simp
@[simp] theorem State.regionEvent_mem (s : State) (r : RegionId) (b : Nat) :
    (s.regionEvent r b).mem = s.mem := by
  unfold State.regionEvent; simp

/-! `mbxDoneVf` writes regions, hub only. -/

@[simp] theorem State.mbxDoneVf_pending (s : State) (r : RegionId) :
    (s.mbxDoneVf r).pending = s.pending := by
  unfold State.mbxDoneVf; simp
@[simp] theorem State.mbxDoneVf_wall (s : State) (r : RegionId) :
    (s.mbxDoneVf r).wall = s.wall := by
  unfold State.mbxDoneVf; simp
@[simp] theorem State.mbxDoneVf_beats (s : State) (r : RegionId) :
    (s.mbxDoneVf r).beats = s.beats := by
  unfold State.mbxDoneVf; simp
@[simp] theorem State.mbxDoneVf_free (s : State) (r : RegionId) :
    (s.mbxDoneVf r).free = s.free := by
  unfold State.mbxDoneVf; simp
@[simp] theorem State.mbxDoneVf_order (s : State) (r : RegionId) :
    (s.mbxDoneVf r).order = s.order := by
  unfold State.mbxDoneVf; simp
@[simp] theorem State.mbxDoneVf_tiles (s : State) (r : RegionId) :
    (s.mbxDoneVf r).tiles = s.tiles := by
  unfold State.mbxDoneVf; simp
@[simp] theorem State.mbxDoneVf_undo (s : State) (r : RegionId) :
    (s.mbxDoneVf r).undo = s.undo := by
  unfold State.mbxDoneVf; simp
@[simp] theorem State.mbxDoneVf_hw (s : State) (r : RegionId) :
    (s.mbxDoneVf r).hw = s.hw := by
  unfold State.mbxDoneVf; simp
@[simp] theorem State.mbxDoneVf_scrubPass (s : State) (r : RegionId) :
    (s.mbxDoneVf r).scrubPass = s.scrubPass := by
  unfold State.mbxDoneVf; simp
@[simp] theorem State.mbxDoneVf_beatAt (s : State) (r : RegionId) :
    (s.mbxDoneVf r).beatAt = s.beatAt := by
  unfold State.mbxDoneVf; simp
@[simp] theorem State.mbxDoneVf_tilesAt (s : State) (r : RegionId) :
    (s.mbxDoneVf r).tilesAt = s.tilesAt := by
  unfold State.mbxDoneVf; simp
@[simp] theorem State.mbxDoneVf_parity (s : State) (r : RegionId) :
    (s.mbxDoneVf r).parity = s.parity := by
  unfold State.mbxDoneVf; simp
@[simp] theorem State.mbxDoneVf_stopped (s : State) (r : RegionId) :
    (s.mbxDoneVf r).stopped = s.stopped := by
  unfold State.mbxDoneVf; simp
@[simp] theorem State.mbxDoneVf_objs (s : State) (r : RegionId) :
    (s.mbxDoneVf r).objs = s.objs := by
  unfold State.mbxDoneVf; simp
@[simp] theorem State.mbxDoneVf_ports (s : State) (r : RegionId) :
    (s.mbxDoneVf r).ports = s.ports := by
  unfold State.mbxDoneVf; simp
@[simp] theorem State.mbxDoneVf_fuses (s : State) (r : RegionId) :
    (s.mbxDoneVf r).fuses = s.fuses := by
  unfold State.mbxDoneVf; simp
@[simp] theorem State.mbxDoneVf_frame (s : State) (r : RegionId) :
    (s.mbxDoneVf r).frame = s.frame := by
  unfold State.mbxDoneVf; simp
@[simp] theorem State.mbxDoneVf_units (s : State) (r : RegionId) :
    (s.mbxDoneVf r).units = s.units := by
  unfold State.mbxDoneVf; simp
@[simp] theorem State.mbxDoneVf_ident (s : State) (r : RegionId) :
    (s.mbxDoneVf r).ident = s.ident := by
  unfold State.mbxDoneVf; simp
@[simp] theorem State.mbxDoneVf_cad (s : State) (r : RegionId) :
    (s.mbxDoneVf r).cad = s.cad := by
  unfold State.mbxDoneVf; simp
@[simp] theorem State.mbxDoneVf_power (s : State) (r : RegionId) :
    (s.mbxDoneVf r).power = s.power := by
  unfold State.mbxDoneVf; simp
@[simp] theorem State.mbxDoneVf_resets (s : State) (r : RegionId) :
    (s.mbxDoneVf r).resets = s.resets := by
  unfold State.mbxDoneVf; simp
@[simp] theorem State.mbxDoneVf_mem (s : State) (r : RegionId) :
    (s.mbxDoneVf r).mem = s.mem := by
  unfold State.mbxDoneVf; simp

/-! `fwEvent` writes regions, hub only. -/

@[simp] theorem State.fwEvent_pending (s : State) (r : RegionId) (b : Nat) :
    (s.fwEvent r b).pending = s.pending := by
  unfold State.fwEvent; simp
@[simp] theorem State.fwEvent_wall (s : State) (r : RegionId) (b : Nat) :
    (s.fwEvent r b).wall = s.wall := by
  unfold State.fwEvent; simp
@[simp] theorem State.fwEvent_beats (s : State) (r : RegionId) (b : Nat) :
    (s.fwEvent r b).beats = s.beats := by
  unfold State.fwEvent; simp
@[simp] theorem State.fwEvent_free (s : State) (r : RegionId) (b : Nat) :
    (s.fwEvent r b).free = s.free := by
  unfold State.fwEvent; simp
@[simp] theorem State.fwEvent_order (s : State) (r : RegionId) (b : Nat) :
    (s.fwEvent r b).order = s.order := by
  unfold State.fwEvent; simp
@[simp] theorem State.fwEvent_tiles (s : State) (r : RegionId) (b : Nat) :
    (s.fwEvent r b).tiles = s.tiles := by
  unfold State.fwEvent; simp
@[simp] theorem State.fwEvent_undo (s : State) (r : RegionId) (b : Nat) :
    (s.fwEvent r b).undo = s.undo := by
  unfold State.fwEvent; simp
@[simp] theorem State.fwEvent_hw (s : State) (r : RegionId) (b : Nat) :
    (s.fwEvent r b).hw = s.hw := by
  unfold State.fwEvent; simp
@[simp] theorem State.fwEvent_scrubPass (s : State) (r : RegionId) (b : Nat) :
    (s.fwEvent r b).scrubPass = s.scrubPass := by
  unfold State.fwEvent; simp
@[simp] theorem State.fwEvent_beatAt (s : State) (r : RegionId) (b : Nat) :
    (s.fwEvent r b).beatAt = s.beatAt := by
  unfold State.fwEvent; simp
@[simp] theorem State.fwEvent_tilesAt (s : State) (r : RegionId) (b : Nat) :
    (s.fwEvent r b).tilesAt = s.tilesAt := by
  unfold State.fwEvent; simp
@[simp] theorem State.fwEvent_parity (s : State) (r : RegionId) (b : Nat) :
    (s.fwEvent r b).parity = s.parity := by
  unfold State.fwEvent; simp
@[simp] theorem State.fwEvent_stopped (s : State) (r : RegionId) (b : Nat) :
    (s.fwEvent r b).stopped = s.stopped := by
  unfold State.fwEvent; simp
@[simp] theorem State.fwEvent_objs (s : State) (r : RegionId) (b : Nat) :
    (s.fwEvent r b).objs = s.objs := by
  unfold State.fwEvent; simp
@[simp] theorem State.fwEvent_ports (s : State) (r : RegionId) (b : Nat) :
    (s.fwEvent r b).ports = s.ports := by
  unfold State.fwEvent; simp
@[simp] theorem State.fwEvent_fuses (s : State) (r : RegionId) (b : Nat) :
    (s.fwEvent r b).fuses = s.fuses := by
  unfold State.fwEvent; simp
@[simp] theorem State.fwEvent_frame (s : State) (r : RegionId) (b : Nat) :
    (s.fwEvent r b).frame = s.frame := by
  unfold State.fwEvent; simp
@[simp] theorem State.fwEvent_units (s : State) (r : RegionId) (b : Nat) :
    (s.fwEvent r b).units = s.units := by
  unfold State.fwEvent; simp
@[simp] theorem State.fwEvent_ident (s : State) (r : RegionId) (b : Nat) :
    (s.fwEvent r b).ident = s.ident := by
  unfold State.fwEvent; simp
@[simp] theorem State.fwEvent_cad (s : State) (r : RegionId) (b : Nat) :
    (s.fwEvent r b).cad = s.cad := by
  unfold State.fwEvent; simp
@[simp] theorem State.fwEvent_power (s : State) (r : RegionId) (b : Nat) :
    (s.fwEvent r b).power = s.power := by
  unfold State.fwEvent; simp
@[simp] theorem State.fwEvent_resets (s : State) (r : RegionId) (b : Nat) :
    (s.fwEvent r b).resets = s.resets := by
  unfold State.fwEvent; simp
@[simp] theorem State.fwEvent_mem (s : State) (r : RegionId) (b : Nat) :
    (s.fwEvent r b).mem = s.mem := by
  unfold State.fwEvent; simp

/-! `beginHalt` writes regions, hub only. -/

@[simp] theorem State.beginHalt_pending (s : State) (r : RegionId) :
    (s.beginHalt r).pending = s.pending := by
  unfold State.beginHalt; split <;> simp
@[simp] theorem State.beginHalt_wall (s : State) (r : RegionId) :
    (s.beginHalt r).wall = s.wall := by
  unfold State.beginHalt; split <;> simp
@[simp] theorem State.beginHalt_beats (s : State) (r : RegionId) :
    (s.beginHalt r).beats = s.beats := by
  unfold State.beginHalt; split <;> simp
@[simp] theorem State.beginHalt_free (s : State) (r : RegionId) :
    (s.beginHalt r).free = s.free := by
  unfold State.beginHalt; split <;> simp
@[simp] theorem State.beginHalt_order (s : State) (r : RegionId) :
    (s.beginHalt r).order = s.order := by
  unfold State.beginHalt; split <;> simp
@[simp] theorem State.beginHalt_tiles (s : State) (r : RegionId) :
    (s.beginHalt r).tiles = s.tiles := by
  unfold State.beginHalt; split <;> simp
@[simp] theorem State.beginHalt_undo (s : State) (r : RegionId) :
    (s.beginHalt r).undo = s.undo := by
  unfold State.beginHalt; split <;> simp
@[simp] theorem State.beginHalt_hw (s : State) (r : RegionId) :
    (s.beginHalt r).hw = s.hw := by
  unfold State.beginHalt; split <;> simp
@[simp] theorem State.beginHalt_scrubPass (s : State) (r : RegionId) :
    (s.beginHalt r).scrubPass = s.scrubPass := by
  unfold State.beginHalt; split <;> simp
@[simp] theorem State.beginHalt_beatAt (s : State) (r : RegionId) :
    (s.beginHalt r).beatAt = s.beatAt := by
  unfold State.beginHalt; split <;> simp
@[simp] theorem State.beginHalt_tilesAt (s : State) (r : RegionId) :
    (s.beginHalt r).tilesAt = s.tilesAt := by
  unfold State.beginHalt; split <;> simp
@[simp] theorem State.beginHalt_parity (s : State) (r : RegionId) :
    (s.beginHalt r).parity = s.parity := by
  unfold State.beginHalt; split <;> simp
@[simp] theorem State.beginHalt_stopped (s : State) (r : RegionId) :
    (s.beginHalt r).stopped = s.stopped := by
  unfold State.beginHalt; split <;> simp
@[simp] theorem State.beginHalt_objs (s : State) (r : RegionId) :
    (s.beginHalt r).objs = s.objs := by
  unfold State.beginHalt; split <;> simp
@[simp] theorem State.beginHalt_ports (s : State) (r : RegionId) :
    (s.beginHalt r).ports = s.ports := by
  unfold State.beginHalt; split <;> simp
@[simp] theorem State.beginHalt_fuses (s : State) (r : RegionId) :
    (s.beginHalt r).fuses = s.fuses := by
  unfold State.beginHalt; split <;> simp
@[simp] theorem State.beginHalt_frame (s : State) (r : RegionId) :
    (s.beginHalt r).frame = s.frame := by
  unfold State.beginHalt; split <;> simp
@[simp] theorem State.beginHalt_units (s : State) (r : RegionId) :
    (s.beginHalt r).units = s.units := by
  unfold State.beginHalt; split <;> simp
@[simp] theorem State.beginHalt_ident (s : State) (r : RegionId) :
    (s.beginHalt r).ident = s.ident := by
  unfold State.beginHalt; split <;> simp
@[simp] theorem State.beginHalt_cad (s : State) (r : RegionId) :
    (s.beginHalt r).cad = s.cad := by
  unfold State.beginHalt; split <;> simp
@[simp] theorem State.beginHalt_power (s : State) (r : RegionId) :
    (s.beginHalt r).power = s.power := by
  unfold State.beginHalt; split <;> simp
@[simp] theorem State.beginHalt_resets (s : State) (r : RegionId) :
    (s.beginHalt r).resets = s.resets := by
  unfold State.beginHalt; split <;> simp
@[simp] theorem State.beginHalt_mem (s : State) (r : RegionId) :
    (s.beginHalt r).mem = s.mem := by
  unfold State.beginHalt; split <;> simp

/-! `raise` writes order, tiles, regions, hub only. -/

@[simp] theorem State.raise_pending (s : State) (r : RegionId) (t : Option TileId) (x : Option (Slot × BitVec 11)) (c d : Nat) :
    (s.raise r t x c d).pending = s.pending := by
  unfold State.raise; dsimp only; split <;> simp
@[simp] theorem State.raise_wall (s : State) (r : RegionId) (t : Option TileId) (x : Option (Slot × BitVec 11)) (c d : Nat) :
    (s.raise r t x c d).wall = s.wall := by
  unfold State.raise; dsimp only; split <;> simp
@[simp] theorem State.raise_beats (s : State) (r : RegionId) (t : Option TileId) (x : Option (Slot × BitVec 11)) (c d : Nat) :
    (s.raise r t x c d).beats = s.beats := by
  unfold State.raise; dsimp only; split <;> simp
@[simp] theorem State.raise_free (s : State) (r : RegionId) (t : Option TileId) (x : Option (Slot × BitVec 11)) (c d : Nat) :
    (s.raise r t x c d).free = s.free := by
  unfold State.raise; dsimp only; split <;> simp
@[simp] theorem State.raise_undo (s : State) (r : RegionId) (t : Option TileId) (x : Option (Slot × BitVec 11)) (c d : Nat) :
    (s.raise r t x c d).undo = s.undo := by
  unfold State.raise; dsimp only; split <;> simp
@[simp] theorem State.raise_hw (s : State) (r : RegionId) (t : Option TileId) (x : Option (Slot × BitVec 11)) (c d : Nat) :
    (s.raise r t x c d).hw = s.hw := by
  unfold State.raise; dsimp only; split <;> simp
@[simp] theorem State.raise_scrubPass (s : State) (r : RegionId) (t : Option TileId) (x : Option (Slot × BitVec 11)) (c d : Nat) :
    (s.raise r t x c d).scrubPass = s.scrubPass := by
  unfold State.raise; dsimp only; split <;> simp
@[simp] theorem State.raise_beatAt (s : State) (r : RegionId) (t : Option TileId) (x : Option (Slot × BitVec 11)) (c d : Nat) :
    (s.raise r t x c d).beatAt = s.beatAt := by
  unfold State.raise; dsimp only; split <;> simp
@[simp] theorem State.raise_tilesAt (s : State) (r : RegionId) (t : Option TileId) (x : Option (Slot × BitVec 11)) (c d : Nat) :
    (s.raise r t x c d).tilesAt = s.tilesAt := by
  unfold State.raise; dsimp only; split <;> simp
@[simp] theorem State.raise_parity (s : State) (r : RegionId) (t : Option TileId) (x : Option (Slot × BitVec 11)) (c d : Nat) :
    (s.raise r t x c d).parity = s.parity := by
  unfold State.raise; dsimp only; split <;> simp
@[simp] theorem State.raise_stopped (s : State) (r : RegionId) (t : Option TileId) (x : Option (Slot × BitVec 11)) (c d : Nat) :
    (s.raise r t x c d).stopped = s.stopped := by
  unfold State.raise; dsimp only; split <;> simp
@[simp] theorem State.raise_objs (s : State) (r : RegionId) (t : Option TileId) (x : Option (Slot × BitVec 11)) (c d : Nat) :
    (s.raise r t x c d).objs = s.objs := by
  unfold State.raise; dsimp only; split <;> simp
@[simp] theorem State.raise_ports (s : State) (r : RegionId) (t : Option TileId) (x : Option (Slot × BitVec 11)) (c d : Nat) :
    (s.raise r t x c d).ports = s.ports := by
  unfold State.raise; dsimp only; split <;> simp
@[simp] theorem State.raise_fuses (s : State) (r : RegionId) (t : Option TileId) (x : Option (Slot × BitVec 11)) (c d : Nat) :
    (s.raise r t x c d).fuses = s.fuses := by
  unfold State.raise; dsimp only; split <;> simp
@[simp] theorem State.raise_frame (s : State) (r : RegionId) (t : Option TileId) (x : Option (Slot × BitVec 11)) (c d : Nat) :
    (s.raise r t x c d).frame = s.frame := by
  unfold State.raise; dsimp only; split <;> simp
@[simp] theorem State.raise_units (s : State) (r : RegionId) (t : Option TileId) (x : Option (Slot × BitVec 11)) (c d : Nat) :
    (s.raise r t x c d).units = s.units := by
  unfold State.raise; dsimp only; split <;> simp
@[simp] theorem State.raise_ident (s : State) (r : RegionId) (t : Option TileId) (x : Option (Slot × BitVec 11)) (c d : Nat) :
    (s.raise r t x c d).ident = s.ident := by
  unfold State.raise; dsimp only; split <;> simp
@[simp] theorem State.raise_cad (s : State) (r : RegionId) (t : Option TileId) (x : Option (Slot × BitVec 11)) (c d : Nat) :
    (s.raise r t x c d).cad = s.cad := by
  unfold State.raise; dsimp only; split <;> simp
@[simp] theorem State.raise_power (s : State) (r : RegionId) (t : Option TileId) (x : Option (Slot × BitVec 11)) (c d : Nat) :
    (s.raise r t x c d).power = s.power := by
  unfold State.raise; dsimp only; split <;> simp
@[simp] theorem State.raise_resets (s : State) (r : RegionId) (t : Option TileId) (x : Option (Slot × BitVec 11)) (c d : Nat) :
    (s.raise r t x c d).resets = s.resets := by
  unfold State.raise; dsimp only; split <;> simp
@[simp] theorem State.raise_mem (s : State) (r : RegionId) (t : Option TileId) (x : Option (Slot × BitVec 11)) (c d : Nat) :
    (s.raise r t x c d).mem = s.mem := by
  unfold State.raise; dsimp only; split <;> simp

/-! `hazard` writes order, regions only. -/

@[simp] theorem State.hazard_pending (s : State) (r : RegionId) (t : TileId) (x : Option (Slot × BitVec 11)) (c d : Nat) :
    (s.hazard r t x c d).pending = s.pending := by
  unfold State.hazard; dsimp only; split <;> simp
@[simp] theorem State.hazard_wall (s : State) (r : RegionId) (t : TileId) (x : Option (Slot × BitVec 11)) (c d : Nat) :
    (s.hazard r t x c d).wall = s.wall := by
  unfold State.hazard; dsimp only; split <;> simp
@[simp] theorem State.hazard_beats (s : State) (r : RegionId) (t : TileId) (x : Option (Slot × BitVec 11)) (c d : Nat) :
    (s.hazard r t x c d).beats = s.beats := by
  unfold State.hazard; dsimp only; split <;> simp
@[simp] theorem State.hazard_beatAt (s : State) (r : RegionId) (t : TileId) (x : Option (Slot × BitVec 11)) (c d : Nat) :
    (s.hazard r t x c d).beatAt = s.beatAt := by
  unfold State.hazard; dsimp only; split <;> simp
@[simp] theorem State.hazard_free (s : State) (r : RegionId) (t : TileId) (x : Option (Slot × BitVec 11)) (c d : Nat) :
    (s.hazard r t x c d).free = s.free := by
  unfold State.hazard; dsimp only; split <;> simp
@[simp] theorem State.hazard_tiles (s : State) (r : RegionId) (t : TileId) (x : Option (Slot × BitVec 11)) (c d : Nat) :
    (s.hazard r t x c d).tiles = s.tiles := by
  unfold State.hazard; dsimp only; split <;> simp
@[simp] theorem State.hazard_undo (s : State) (r : RegionId) (t : TileId) (x : Option (Slot × BitVec 11)) (c d : Nat) :
    (s.hazard r t x c d).undo = s.undo := by
  unfold State.hazard; dsimp only; split <;> simp
@[simp] theorem State.hazard_hw (s : State) (r : RegionId) (t : TileId) (x : Option (Slot × BitVec 11)) (c d : Nat) :
    (s.hazard r t x c d).hw = s.hw := by
  unfold State.hazard; dsimp only; split <;> simp
@[simp] theorem State.hazard_scrubPass (s : State) (r : RegionId) (t : TileId) (x : Option (Slot × BitVec 11)) (c d : Nat) :
    (s.hazard r t x c d).scrubPass = s.scrubPass := by
  unfold State.hazard; dsimp only; split <;> simp
@[simp] theorem State.hazard_tilesAt (s : State) (r : RegionId) (t : TileId) (x : Option (Slot × BitVec 11)) (c d : Nat) :
    (s.hazard r t x c d).tilesAt = s.tilesAt := by
  unfold State.hazard; dsimp only; split <;> simp
@[simp] theorem State.hazard_objs (s : State) (r : RegionId) (t : TileId) (x : Option (Slot × BitVec 11)) (c d : Nat) :
    (s.hazard r t x c d).objs = s.objs := by
  unfold State.hazard; dsimp only; split <;> simp
@[simp] theorem State.hazard_ports (s : State) (r : RegionId) (t : TileId) (x : Option (Slot × BitVec 11)) (c d : Nat) :
    (s.hazard r t x c d).ports = s.ports := by
  unfold State.hazard; dsimp only; split <;> simp
@[simp] theorem State.hazard_fuses (s : State) (r : RegionId) (t : TileId) (x : Option (Slot × BitVec 11)) (c d : Nat) :
    (s.hazard r t x c d).fuses = s.fuses := by
  unfold State.hazard; dsimp only; split <;> simp
@[simp] theorem State.hazard_frame (s : State) (r : RegionId) (t : TileId) (x : Option (Slot × BitVec 11)) (c d : Nat) :
    (s.hazard r t x c d).frame = s.frame := by
  unfold State.hazard; dsimp only; split <;> simp
@[simp] theorem State.hazard_units (s : State) (r : RegionId) (t : TileId) (x : Option (Slot × BitVec 11)) (c d : Nat) :
    (s.hazard r t x c d).units = s.units := by
  unfold State.hazard; dsimp only; split <;> simp
@[simp] theorem State.hazard_hub (s : State) (r : RegionId) (t : TileId) (x : Option (Slot × BitVec 11)) (c d : Nat) :
    (s.hazard r t x c d).hub = s.hub := by
  unfold State.hazard; dsimp only; split <;> simp
@[simp] theorem State.hazard_ident (s : State) (r : RegionId) (t : TileId) (x : Option (Slot × BitVec 11)) (c d : Nat) :
    (s.hazard r t x c d).ident = s.ident := by
  unfold State.hazard; dsimp only; split <;> simp
@[simp] theorem State.hazard_cad (s : State) (r : RegionId) (t : TileId) (x : Option (Slot × BitVec 11)) (c d : Nat) :
    (s.hazard r t x c d).cad = s.cad := by
  unfold State.hazard; dsimp only; split <;> simp
@[simp] theorem State.hazard_power (s : State) (r : RegionId) (t : TileId) (x : Option (Slot × BitVec 11)) (c d : Nat) :
    (s.hazard r t x c d).power = s.power := by
  unfold State.hazard; dsimp only; split <;> simp
@[simp] theorem State.hazard_resets (s : State) (r : RegionId) (t : TileId) (x : Option (Slot × BitVec 11)) (c d : Nat) :
    (s.hazard r t x c d).resets = s.resets := by
  unfold State.hazard; dsimp only; split <;> simp
@[simp] theorem State.hazard_mem (s : State) (r : RegionId) (t : TileId) (x : Option (Slot × BitVec 11)) (c d : Nat) :
    (s.hazard r t x c d).mem = s.mem := by
  unfold State.hazard; dsimp only; split <;> simp
@[simp] theorem State.hazard_parity (s : State) (r : RegionId) (t : TileId) (x : Option (Slot × BitVec 11)) (c d : Nat) :
    (s.hazard r t x c d).parity = s.parity := by
  unfold State.hazard; dsimp only; split <;> simp
@[simp] theorem State.hazard_stopped (s : State) (r : RegionId) (t : TileId) (x : Option (Slot × BitVec 11)) (c d : Nat) :
    (s.hazard r t x c d).stopped = s.stopped := by
  unfold State.hazard; dsimp only; split <;> simp

/-! `readEcc` writes tiles, hw only. -/

@[simp] theorem State.readEcc_pending (s : State) (t : TileId) (row : Nat) :
    (s.readEcc t row).pending = s.pending := by
  unfold State.readEcc; dsimp only; split <;> simp
@[simp] theorem State.readEcc_wall (s : State) (t : TileId) (row : Nat) :
    (s.readEcc t row).wall = s.wall := by
  unfold State.readEcc; dsimp only; split <;> simp
@[simp] theorem State.readEcc_beats (s : State) (t : TileId) (row : Nat) :
    (s.readEcc t row).beats = s.beats := by
  unfold State.readEcc; dsimp only; split <;> simp
@[simp] theorem State.readEcc_free (s : State) (t : TileId) (row : Nat) :
    (s.readEcc t row).free = s.free := by
  unfold State.readEcc; dsimp only; split <;> simp
@[simp] theorem State.readEcc_order (s : State) (t : TileId) (row : Nat) :
    (s.readEcc t row).order = s.order := by
  unfold State.readEcc; dsimp only; split <;> simp
@[simp] theorem State.readEcc_undo (s : State) (t : TileId) (row : Nat) :
    (s.readEcc t row).undo = s.undo := by
  unfold State.readEcc; dsimp only; split <;> simp
@[simp] theorem State.readEcc_scrubPass (s : State) (t : TileId) (row : Nat) :
    (s.readEcc t row).scrubPass = s.scrubPass := by
  unfold State.readEcc; dsimp only; split <;> simp
@[simp] theorem State.readEcc_beatAt (s : State) (t : TileId) (row : Nat) :
    (s.readEcc t row).beatAt = s.beatAt := by
  unfold State.readEcc; dsimp only; split <;> simp
@[simp] theorem State.readEcc_tilesAt (s : State) (t : TileId) (row : Nat) :
    (s.readEcc t row).tilesAt = s.tilesAt := by
  unfold State.readEcc; dsimp only; split <;> simp
@[simp] theorem State.readEcc_parity (s : State) (t : TileId) (row : Nat) :
    (s.readEcc t row).parity = s.parity := by
  unfold State.readEcc; dsimp only; split <;> simp
@[simp] theorem State.readEcc_stopped (s : State) (t : TileId) (row : Nat) :
    (s.readEcc t row).stopped = s.stopped := by
  unfold State.readEcc; dsimp only; split <;> simp
@[simp] theorem State.readEcc_objs (s : State) (t : TileId) (row : Nat) :
    (s.readEcc t row).objs = s.objs := by
  unfold State.readEcc; dsimp only; split <;> simp
@[simp] theorem State.readEcc_regions (s : State) (t : TileId) (row : Nat) :
    (s.readEcc t row).regions = s.regions := by
  unfold State.readEcc; dsimp only; split <;> simp
@[simp] theorem State.readEcc_ports (s : State) (t : TileId) (row : Nat) :
    (s.readEcc t row).ports = s.ports := by
  unfold State.readEcc; dsimp only; split <;> simp
@[simp] theorem State.readEcc_fuses (s : State) (t : TileId) (row : Nat) :
    (s.readEcc t row).fuses = s.fuses := by
  unfold State.readEcc; dsimp only; split <;> simp
@[simp] theorem State.readEcc_frame (s : State) (t : TileId) (row : Nat) :
    (s.readEcc t row).frame = s.frame := by
  unfold State.readEcc; dsimp only; split <;> simp
@[simp] theorem State.readEcc_units (s : State) (t : TileId) (row : Nat) :
    (s.readEcc t row).units = s.units := by
  unfold State.readEcc; dsimp only; split <;> simp
@[simp] theorem State.readEcc_hub (s : State) (t : TileId) (row : Nat) :
    (s.readEcc t row).hub = s.hub := by
  unfold State.readEcc; dsimp only; split <;> simp
@[simp] theorem State.readEcc_ident (s : State) (t : TileId) (row : Nat) :
    (s.readEcc t row).ident = s.ident := by
  unfold State.readEcc; dsimp only; split <;> simp
@[simp] theorem State.readEcc_cad (s : State) (t : TileId) (row : Nat) :
    (s.readEcc t row).cad = s.cad := by
  unfold State.readEcc; dsimp only; split <;> simp
@[simp] theorem State.readEcc_power (s : State) (t : TileId) (row : Nat) :
    (s.readEcc t row).power = s.power := by
  unfold State.readEcc; dsimp only; split <;> simp
@[simp] theorem State.readEcc_resets (s : State) (t : TileId) (row : Nat) :
    (s.readEcc t row).resets = s.resets := by
  unfold State.readEcc; dsimp only; split <;> simp
@[simp] theorem State.readEcc_mem (s : State) (t : TileId) (row : Nat) :
    (s.readEcc t row).mem = s.mem := by
  unfold State.readEcc; dsimp only; split <;> simp

/-! `useBank` writes free, order, tiles, regions only. -/

@[simp] theorem State.useBank_pending (s : State) (r : RegionId) (t : TileId) (row : Nat) (w : Bool) (x : Option (Slot × BitVec 11)) :
    (s.useBank r t row w x).2.pending = s.pending := by
  unfold State.useBank State.draw; dsimp only; (repeat' split) <;> simp
@[simp] theorem State.useBank_wall (s : State) (r : RegionId) (t : TileId) (row : Nat) (w : Bool) (x : Option (Slot × BitVec 11)) :
    (s.useBank r t row w x).2.wall = s.wall := by
  unfold State.useBank State.draw; dsimp only; (repeat' split) <;> simp
@[simp] theorem State.useBank_beats (s : State) (r : RegionId) (t : TileId) (row : Nat) (w : Bool) (x : Option (Slot × BitVec 11)) :
    (s.useBank r t row w x).2.beats = s.beats := by
  unfold State.useBank State.draw; dsimp only; (repeat' split) <;> simp
@[simp] theorem State.useBank_beatAt (s : State) (r : RegionId) (t : TileId) (row : Nat) (w : Bool) (x : Option (Slot × BitVec 11)) :
    (s.useBank r t row w x).2.beatAt = s.beatAt := by
  unfold State.useBank State.draw; dsimp only; (repeat' split) <;> simp
@[simp] theorem State.useBank_undo (s : State) (r : RegionId) (t : TileId) (row : Nat) (w : Bool) (x : Option (Slot × BitVec 11)) :
    (s.useBank r t row w x).2.undo = s.undo := by
  unfold State.useBank State.draw; dsimp only; (repeat' split) <;> simp
@[simp] theorem State.useBank_hw (s : State) (r : RegionId) (t : TileId) (row : Nat) (w : Bool) (x : Option (Slot × BitVec 11)) :
    (s.useBank r t row w x).2.hw = s.hw := by
  unfold State.useBank State.draw; dsimp only; (repeat' split) <;> simp
@[simp] theorem State.useBank_scrubPass (s : State) (r : RegionId) (t : TileId) (row : Nat) (w : Bool) (x : Option (Slot × BitVec 11)) :
    (s.useBank r t row w x).2.scrubPass = s.scrubPass := by
  unfold State.useBank State.draw; dsimp only; (repeat' split) <;> simp
@[simp] theorem State.useBank_tilesAt (s : State) (r : RegionId) (t : TileId) (row : Nat) (w : Bool) (x : Option (Slot × BitVec 11)) :
    (s.useBank r t row w x).2.tilesAt = s.tilesAt := by
  unfold State.useBank State.draw; dsimp only; (repeat' split) <;> simp
@[simp] theorem State.useBank_objs (s : State) (r : RegionId) (t : TileId) (row : Nat) (w : Bool) (x : Option (Slot × BitVec 11)) :
    (s.useBank r t row w x).2.objs = s.objs := by
  unfold State.useBank State.draw; dsimp only; (repeat' split) <;> simp
@[simp] theorem State.useBank_ports (s : State) (r : RegionId) (t : TileId) (row : Nat) (w : Bool) (x : Option (Slot × BitVec 11)) :
    (s.useBank r t row w x).2.ports = s.ports := by
  unfold State.useBank State.draw; dsimp only; (repeat' split) <;> simp
@[simp] theorem State.useBank_fuses (s : State) (r : RegionId) (t : TileId) (row : Nat) (w : Bool) (x : Option (Slot × BitVec 11)) :
    (s.useBank r t row w x).2.fuses = s.fuses := by
  unfold State.useBank State.draw; dsimp only; (repeat' split) <;> simp
@[simp] theorem State.useBank_frame (s : State) (r : RegionId) (t : TileId) (row : Nat) (w : Bool) (x : Option (Slot × BitVec 11)) :
    (s.useBank r t row w x).2.frame = s.frame := by
  unfold State.useBank State.draw; dsimp only; (repeat' split) <;> simp
@[simp] theorem State.useBank_units (s : State) (r : RegionId) (t : TileId) (row : Nat) (w : Bool) (x : Option (Slot × BitVec 11)) :
    (s.useBank r t row w x).2.units = s.units := by
  unfold State.useBank State.draw; dsimp only; (repeat' split) <;> simp
@[simp] theorem State.useBank_hub (s : State) (r : RegionId) (t : TileId) (row : Nat) (w : Bool) (x : Option (Slot × BitVec 11)) :
    (s.useBank r t row w x).2.hub = s.hub := by
  unfold State.useBank State.draw; dsimp only; (repeat' split) <;> simp
@[simp] theorem State.useBank_ident (s : State) (r : RegionId) (t : TileId) (row : Nat) (w : Bool) (x : Option (Slot × BitVec 11)) :
    (s.useBank r t row w x).2.ident = s.ident := by
  unfold State.useBank State.draw; dsimp only; (repeat' split) <;> simp
@[simp] theorem State.useBank_cad (s : State) (r : RegionId) (t : TileId) (row : Nat) (w : Bool) (x : Option (Slot × BitVec 11)) :
    (s.useBank r t row w x).2.cad = s.cad := by
  unfold State.useBank State.draw; dsimp only; (repeat' split) <;> simp
@[simp] theorem State.useBank_power (s : State) (r : RegionId) (t : TileId) (row : Nat) (w : Bool) (x : Option (Slot × BitVec 11)) :
    (s.useBank r t row w x).2.power = s.power := by
  unfold State.useBank State.draw; dsimp only; (repeat' split) <;> simp
@[simp] theorem State.useBank_resets (s : State) (r : RegionId) (t : TileId) (row : Nat) (w : Bool) (x : Option (Slot × BitVec 11)) :
    (s.useBank r t row w x).2.resets = s.resets := by
  unfold State.useBank State.draw; dsimp only; (repeat' split) <;> simp
@[simp] theorem State.useBank_mem (s : State) (r : RegionId) (t : TileId) (row : Nat) (w : Bool) (x : Option (Slot × BitVec 11)) :
    (s.useBank r t row w x).2.mem = s.mem := by
  unfold State.useBank State.draw; dsimp only; (repeat' split) <;> simp
@[simp] theorem State.useBank_parity (s : State) (r : RegionId) (t : TileId) (row : Nat) (w : Bool) (x : Option (Slot × BitVec 11)) :
    (s.useBank r t row w x).2.parity = s.parity := by
  unfold State.useBank State.draw; dsimp only; (repeat' split) <;> simp
@[simp] theorem State.useBank_stopped (s : State) (r : RegionId) (t : TileId) (row : Nat) (w : Bool) (x : Option (Slot × BitVec 11)) :
    (s.useBank r t row w x).2.stopped = s.stopped := by
  unfold State.useBank State.draw; dsimp only; (repeat' split) <;> simp

/-! `noteLead` writes order, regions only. -/

@[simp] theorem State.noteLead_pending (s : State) (r : RegionId) (t : TileId) (row : Nat) (x : Option (Slot × BitVec 11)) :
    (s.noteLead r t row x).2.pending = s.pending := by
  unfold State.noteLead; split <;> simp
@[simp] theorem State.noteLead_wall (s : State) (r : RegionId) (t : TileId) (row : Nat) (x : Option (Slot × BitVec 11)) :
    (s.noteLead r t row x).2.wall = s.wall := by
  unfold State.noteLead; split <;> simp
@[simp] theorem State.noteLead_beats (s : State) (r : RegionId) (t : TileId) (row : Nat) (x : Option (Slot × BitVec 11)) :
    (s.noteLead r t row x).2.beats = s.beats := by
  unfold State.noteLead; split <;> simp
@[simp] theorem State.noteLead_beatAt (s : State) (r : RegionId) (t : TileId) (row : Nat) (x : Option (Slot × BitVec 11)) :
    (s.noteLead r t row x).2.beatAt = s.beatAt := by
  unfold State.noteLead; split <;> simp
@[simp] theorem State.noteLead_free (s : State) (r : RegionId) (t : TileId) (row : Nat) (x : Option (Slot × BitVec 11)) :
    (s.noteLead r t row x).2.free = s.free := by
  unfold State.noteLead; split <;> simp
@[simp] theorem State.noteLead_tiles (s : State) (r : RegionId) (t : TileId) (row : Nat) (x : Option (Slot × BitVec 11)) :
    (s.noteLead r t row x).2.tiles = s.tiles := by
  unfold State.noteLead; split <;> simp
@[simp] theorem State.noteLead_undo (s : State) (r : RegionId) (t : TileId) (row : Nat) (x : Option (Slot × BitVec 11)) :
    (s.noteLead r t row x).2.undo = s.undo := by
  unfold State.noteLead; split <;> simp
@[simp] theorem State.noteLead_hw (s : State) (r : RegionId) (t : TileId) (row : Nat) (x : Option (Slot × BitVec 11)) :
    (s.noteLead r t row x).2.hw = s.hw := by
  unfold State.noteLead; split <;> simp
@[simp] theorem State.noteLead_scrubPass (s : State) (r : RegionId) (t : TileId) (row : Nat) (x : Option (Slot × BitVec 11)) :
    (s.noteLead r t row x).2.scrubPass = s.scrubPass := by
  unfold State.noteLead; split <;> simp
@[simp] theorem State.noteLead_tilesAt (s : State) (r : RegionId) (t : TileId) (row : Nat) (x : Option (Slot × BitVec 11)) :
    (s.noteLead r t row x).2.tilesAt = s.tilesAt := by
  unfold State.noteLead; split <;> simp
@[simp] theorem State.noteLead_objs (s : State) (r : RegionId) (t : TileId) (row : Nat) (x : Option (Slot × BitVec 11)) :
    (s.noteLead r t row x).2.objs = s.objs := by
  unfold State.noteLead; split <;> simp
@[simp] theorem State.noteLead_ports (s : State) (r : RegionId) (t : TileId) (row : Nat) (x : Option (Slot × BitVec 11)) :
    (s.noteLead r t row x).2.ports = s.ports := by
  unfold State.noteLead; split <;> simp
@[simp] theorem State.noteLead_fuses (s : State) (r : RegionId) (t : TileId) (row : Nat) (x : Option (Slot × BitVec 11)) :
    (s.noteLead r t row x).2.fuses = s.fuses := by
  unfold State.noteLead; split <;> simp
@[simp] theorem State.noteLead_frame (s : State) (r : RegionId) (t : TileId) (row : Nat) (x : Option (Slot × BitVec 11)) :
    (s.noteLead r t row x).2.frame = s.frame := by
  unfold State.noteLead; split <;> simp
@[simp] theorem State.noteLead_units (s : State) (r : RegionId) (t : TileId) (row : Nat) (x : Option (Slot × BitVec 11)) :
    (s.noteLead r t row x).2.units = s.units := by
  unfold State.noteLead; split <;> simp
@[simp] theorem State.noteLead_hub (s : State) (r : RegionId) (t : TileId) (row : Nat) (x : Option (Slot × BitVec 11)) :
    (s.noteLead r t row x).2.hub = s.hub := by
  unfold State.noteLead; split <;> simp
@[simp] theorem State.noteLead_ident (s : State) (r : RegionId) (t : TileId) (row : Nat) (x : Option (Slot × BitVec 11)) :
    (s.noteLead r t row x).2.ident = s.ident := by
  unfold State.noteLead; split <;> simp
@[simp] theorem State.noteLead_cad (s : State) (r : RegionId) (t : TileId) (row : Nat) (x : Option (Slot × BitVec 11)) :
    (s.noteLead r t row x).2.cad = s.cad := by
  unfold State.noteLead; split <;> simp
@[simp] theorem State.noteLead_power (s : State) (r : RegionId) (t : TileId) (row : Nat) (x : Option (Slot × BitVec 11)) :
    (s.noteLead r t row x).2.power = s.power := by
  unfold State.noteLead; split <;> simp
@[simp] theorem State.noteLead_resets (s : State) (r : RegionId) (t : TileId) (row : Nat) (x : Option (Slot × BitVec 11)) :
    (s.noteLead r t row x).2.resets = s.resets := by
  unfold State.noteLead; split <;> simp
@[simp] theorem State.noteLead_mem (s : State) (r : RegionId) (t : TileId) (row : Nat) (x : Option (Slot × BitVec 11)) :
    (s.noteLead r t row x).2.mem = s.mem := by
  unfold State.noteLead; split <;> simp
@[simp] theorem State.noteLead_parity (s : State) (r : RegionId) (t : TileId) (row : Nat) (x : Option (Slot × BitVec 11)) :
    (s.noteLead r t row x).2.parity = s.parity := by
  unfold State.noteLead; split <;> simp
@[simp] theorem State.noteLead_stopped (s : State) (r : RegionId) (t : TileId) (row : Nat) (x : Option (Slot × BitVec 11)) :
    (s.noteLead r t row x).2.stopped = s.stopped := by
  unfold State.noteLead; split <;> simp

/-! `takeRow` writes free, tiles, hw only. -/

@[simp] theorem State.takeRow_pending (s : State) (t : TileId) (row : Nat) (b : Bool) :
    (s.takeRow t row b).2.2.pending = s.pending := by
  unfold State.takeRow State.draw; dsimp only; split <;> simp
@[simp] theorem State.takeRow_wall (s : State) (t : TileId) (row : Nat) (b : Bool) :
    (s.takeRow t row b).2.2.wall = s.wall := by
  unfold State.takeRow State.draw; dsimp only; split <;> simp
@[simp] theorem State.takeRow_beats (s : State) (t : TileId) (row : Nat) (b : Bool) :
    (s.takeRow t row b).2.2.beats = s.beats := by
  unfold State.takeRow State.draw; dsimp only; split <;> simp
@[simp] theorem State.takeRow_beatAt (s : State) (t : TileId) (row : Nat) (b : Bool) :
    (s.takeRow t row b).2.2.beatAt = s.beatAt := by
  unfold State.takeRow State.draw; dsimp only; split <;> simp
@[simp] theorem State.takeRow_order (s : State) (t : TileId) (row : Nat) (b : Bool) :
    (s.takeRow t row b).2.2.order = s.order := by
  unfold State.takeRow State.draw; dsimp only; split <;> simp
@[simp] theorem State.takeRow_undo (s : State) (t : TileId) (row : Nat) (b : Bool) :
    (s.takeRow t row b).2.2.undo = s.undo := by
  unfold State.takeRow State.draw; dsimp only; split <;> simp
@[simp] theorem State.takeRow_scrubPass (s : State) (t : TileId) (row : Nat) (b : Bool) :
    (s.takeRow t row b).2.2.scrubPass = s.scrubPass := by
  unfold State.takeRow State.draw; dsimp only; split <;> simp
@[simp] theorem State.takeRow_tilesAt (s : State) (t : TileId) (row : Nat) (b : Bool) :
    (s.takeRow t row b).2.2.tilesAt = s.tilesAt := by
  unfold State.takeRow State.draw; dsimp only; split <;> simp
@[simp] theorem State.takeRow_objs (s : State) (t : TileId) (row : Nat) (b : Bool) :
    (s.takeRow t row b).2.2.objs = s.objs := by
  unfold State.takeRow State.draw; dsimp only; split <;> simp
@[simp] theorem State.takeRow_regions (s : State) (t : TileId) (row : Nat) (b : Bool) :
    (s.takeRow t row b).2.2.regions = s.regions := by
  unfold State.takeRow State.draw; dsimp only; split <;> simp
@[simp] theorem State.takeRow_ports (s : State) (t : TileId) (row : Nat) (b : Bool) :
    (s.takeRow t row b).2.2.ports = s.ports := by
  unfold State.takeRow State.draw; dsimp only; split <;> simp
@[simp] theorem State.takeRow_fuses (s : State) (t : TileId) (row : Nat) (b : Bool) :
    (s.takeRow t row b).2.2.fuses = s.fuses := by
  unfold State.takeRow State.draw; dsimp only; split <;> simp
@[simp] theorem State.takeRow_frame (s : State) (t : TileId) (row : Nat) (b : Bool) :
    (s.takeRow t row b).2.2.frame = s.frame := by
  unfold State.takeRow State.draw; dsimp only; split <;> simp
@[simp] theorem State.takeRow_units (s : State) (t : TileId) (row : Nat) (b : Bool) :
    (s.takeRow t row b).2.2.units = s.units := by
  unfold State.takeRow State.draw; dsimp only; split <;> simp
@[simp] theorem State.takeRow_hub (s : State) (t : TileId) (row : Nat) (b : Bool) :
    (s.takeRow t row b).2.2.hub = s.hub := by
  unfold State.takeRow State.draw; dsimp only; split <;> simp
@[simp] theorem State.takeRow_ident (s : State) (t : TileId) (row : Nat) (b : Bool) :
    (s.takeRow t row b).2.2.ident = s.ident := by
  unfold State.takeRow State.draw; dsimp only; split <;> simp
@[simp] theorem State.takeRow_cad (s : State) (t : TileId) (row : Nat) (b : Bool) :
    (s.takeRow t row b).2.2.cad = s.cad := by
  unfold State.takeRow State.draw; dsimp only; split <;> simp
@[simp] theorem State.takeRow_power (s : State) (t : TileId) (row : Nat) (b : Bool) :
    (s.takeRow t row b).2.2.power = s.power := by
  unfold State.takeRow State.draw; dsimp only; split <;> simp
@[simp] theorem State.takeRow_resets (s : State) (t : TileId) (row : Nat) (b : Bool) :
    (s.takeRow t row b).2.2.resets = s.resets := by
  unfold State.takeRow State.draw; dsimp only; split <;> simp
@[simp] theorem State.takeRow_mem (s : State) (t : TileId) (row : Nat) (b : Bool) :
    (s.takeRow t row b).2.2.mem = s.mem := by
  unfold State.takeRow State.draw; dsimp only; split <;> simp
@[simp] theorem State.takeRow_parity (s : State) (t : TileId) (row : Nat) (b : Bool) :
    (s.takeRow t row b).2.2.parity = s.parity := by
  unfold State.takeRow State.draw; dsimp only; split <;> simp
@[simp] theorem State.takeRow_stopped (s : State) (t : TileId) (row : Nat) (b : Bool) :
    (s.takeRow t row b).2.2.stopped = s.stopped := by
  unfold State.takeRow State.draw; dsimp only; split <;> simp

/-! `readSched` writes free, order, tiles, hw, regions only. -/

@[simp] theorem State.readSched_pending (s : State) (r : RegionId) (t : TileId) (row : Nat) (x : Option (Slot × BitVec 11)) :
    (s.readSched r t row x).2.2.pending = s.pending := by
  unfold State.readSched; simp
@[simp] theorem State.readSched_wall (s : State) (r : RegionId) (t : TileId) (row : Nat) (x : Option (Slot × BitVec 11)) :
    (s.readSched r t row x).2.2.wall = s.wall := by
  unfold State.readSched; simp
@[simp] theorem State.readSched_beats (s : State) (r : RegionId) (t : TileId) (row : Nat) (x : Option (Slot × BitVec 11)) :
    (s.readSched r t row x).2.2.beats = s.beats := by
  unfold State.readSched; simp
@[simp] theorem State.readSched_beatAt (s : State) (r : RegionId) (t : TileId) (row : Nat) (x : Option (Slot × BitVec 11)) :
    (s.readSched r t row x).2.2.beatAt = s.beatAt := by
  unfold State.readSched; simp
@[simp] theorem State.readSched_undo (s : State) (r : RegionId) (t : TileId) (row : Nat) (x : Option (Slot × BitVec 11)) :
    (s.readSched r t row x).2.2.undo = s.undo := by
  unfold State.readSched; simp
@[simp] theorem State.readSched_scrubPass (s : State) (r : RegionId) (t : TileId) (row : Nat) (x : Option (Slot × BitVec 11)) :
    (s.readSched r t row x).2.2.scrubPass = s.scrubPass := by
  unfold State.readSched; simp
@[simp] theorem State.readSched_tilesAt (s : State) (r : RegionId) (t : TileId) (row : Nat) (x : Option (Slot × BitVec 11)) :
    (s.readSched r t row x).2.2.tilesAt = s.tilesAt := by
  unfold State.readSched; simp
@[simp] theorem State.readSched_objs (s : State) (r : RegionId) (t : TileId) (row : Nat) (x : Option (Slot × BitVec 11)) :
    (s.readSched r t row x).2.2.objs = s.objs := by
  unfold State.readSched; simp
@[simp] theorem State.readSched_ports (s : State) (r : RegionId) (t : TileId) (row : Nat) (x : Option (Slot × BitVec 11)) :
    (s.readSched r t row x).2.2.ports = s.ports := by
  unfold State.readSched; simp
@[simp] theorem State.readSched_fuses (s : State) (r : RegionId) (t : TileId) (row : Nat) (x : Option (Slot × BitVec 11)) :
    (s.readSched r t row x).2.2.fuses = s.fuses := by
  unfold State.readSched; simp
@[simp] theorem State.readSched_frame (s : State) (r : RegionId) (t : TileId) (row : Nat) (x : Option (Slot × BitVec 11)) :
    (s.readSched r t row x).2.2.frame = s.frame := by
  unfold State.readSched; simp
@[simp] theorem State.readSched_units (s : State) (r : RegionId) (t : TileId) (row : Nat) (x : Option (Slot × BitVec 11)) :
    (s.readSched r t row x).2.2.units = s.units := by
  unfold State.readSched; simp
@[simp] theorem State.readSched_hub (s : State) (r : RegionId) (t : TileId) (row : Nat) (x : Option (Slot × BitVec 11)) :
    (s.readSched r t row x).2.2.hub = s.hub := by
  unfold State.readSched; simp
@[simp] theorem State.readSched_ident (s : State) (r : RegionId) (t : TileId) (row : Nat) (x : Option (Slot × BitVec 11)) :
    (s.readSched r t row x).2.2.ident = s.ident := by
  unfold State.readSched; simp
@[simp] theorem State.readSched_cad (s : State) (r : RegionId) (t : TileId) (row : Nat) (x : Option (Slot × BitVec 11)) :
    (s.readSched r t row x).2.2.cad = s.cad := by
  unfold State.readSched; simp
@[simp] theorem State.readSched_power (s : State) (r : RegionId) (t : TileId) (row : Nat) (x : Option (Slot × BitVec 11)) :
    (s.readSched r t row x).2.2.power = s.power := by
  unfold State.readSched; simp
@[simp] theorem State.readSched_resets (s : State) (r : RegionId) (t : TileId) (row : Nat) (x : Option (Slot × BitVec 11)) :
    (s.readSched r t row x).2.2.resets = s.resets := by
  unfold State.readSched; simp
@[simp] theorem State.readSched_mem (s : State) (r : RegionId) (t : TileId) (row : Nat) (x : Option (Slot × BitVec 11)) :
    (s.readSched r t row x).2.2.mem = s.mem := by
  unfold State.readSched; simp
@[simp] theorem State.readSched_parity (s : State) (r : RegionId) (t : TileId) (row : Nat) (x : Option (Slot × BitVec 11)) :
    (s.readSched r t row x).2.2.parity = s.parity := by
  unfold State.readSched; simp
@[simp] theorem State.readSched_stopped (s : State) (r : RegionId) (t : TileId) (row : Nat) (x : Option (Slot × BitVec 11)) :
    (s.readSched r t row x).2.2.stopped = s.stopped := by
  unfold State.readSched; simp

/-! `readRow` writes free, order, tiles, hw, regions only. -/

@[simp] theorem State.readRow_pending (s : State) (r : RegionId) (t : TileId) (row n : Nat) (x : Option (Slot × BitVec 11)) :
    (s.readRow r t row n x).2.2.pending = s.pending := by
  unfold State.readRow; dsimp only; (repeat' split) <;> simp
@[simp] theorem State.readRow_wall (s : State) (r : RegionId) (t : TileId) (row n : Nat) (x : Option (Slot × BitVec 11)) :
    (s.readRow r t row n x).2.2.wall = s.wall := by
  unfold State.readRow; dsimp only; (repeat' split) <;> simp
@[simp] theorem State.readRow_beats (s : State) (r : RegionId) (t : TileId) (row n : Nat) (x : Option (Slot × BitVec 11)) :
    (s.readRow r t row n x).2.2.beats = s.beats := by
  unfold State.readRow; dsimp only; (repeat' split) <;> simp
@[simp] theorem State.readRow_beatAt (s : State) (r : RegionId) (t : TileId) (row n : Nat) (x : Option (Slot × BitVec 11)) :
    (s.readRow r t row n x).2.2.beatAt = s.beatAt := by
  unfold State.readRow; dsimp only; (repeat' split) <;> simp
@[simp] theorem State.readRow_undo (s : State) (r : RegionId) (t : TileId) (row n : Nat) (x : Option (Slot × BitVec 11)) :
    (s.readRow r t row n x).2.2.undo = s.undo := by
  unfold State.readRow; dsimp only; (repeat' split) <;> simp
@[simp] theorem State.readRow_scrubPass (s : State) (r : RegionId) (t : TileId) (row n : Nat) (x : Option (Slot × BitVec 11)) :
    (s.readRow r t row n x).2.2.scrubPass = s.scrubPass := by
  unfold State.readRow; dsimp only; (repeat' split) <;> simp
@[simp] theorem State.readRow_tilesAt (s : State) (r : RegionId) (t : TileId) (row n : Nat) (x : Option (Slot × BitVec 11)) :
    (s.readRow r t row n x).2.2.tilesAt = s.tilesAt := by
  unfold State.readRow; dsimp only; (repeat' split) <;> simp
@[simp] theorem State.readRow_objs (s : State) (r : RegionId) (t : TileId) (row n : Nat) (x : Option (Slot × BitVec 11)) :
    (s.readRow r t row n x).2.2.objs = s.objs := by
  unfold State.readRow; dsimp only; (repeat' split) <;> simp
@[simp] theorem State.readRow_ports (s : State) (r : RegionId) (t : TileId) (row n : Nat) (x : Option (Slot × BitVec 11)) :
    (s.readRow r t row n x).2.2.ports = s.ports := by
  unfold State.readRow; dsimp only; (repeat' split) <;> simp
@[simp] theorem State.readRow_fuses (s : State) (r : RegionId) (t : TileId) (row n : Nat) (x : Option (Slot × BitVec 11)) :
    (s.readRow r t row n x).2.2.fuses = s.fuses := by
  unfold State.readRow; dsimp only; (repeat' split) <;> simp
@[simp] theorem State.readRow_frame (s : State) (r : RegionId) (t : TileId) (row n : Nat) (x : Option (Slot × BitVec 11)) :
    (s.readRow r t row n x).2.2.frame = s.frame := by
  unfold State.readRow; dsimp only; (repeat' split) <;> simp
@[simp] theorem State.readRow_units (s : State) (r : RegionId) (t : TileId) (row n : Nat) (x : Option (Slot × BitVec 11)) :
    (s.readRow r t row n x).2.2.units = s.units := by
  unfold State.readRow; dsimp only; (repeat' split) <;> simp
@[simp] theorem State.readRow_hub (s : State) (r : RegionId) (t : TileId) (row n : Nat) (x : Option (Slot × BitVec 11)) :
    (s.readRow r t row n x).2.2.hub = s.hub := by
  unfold State.readRow; dsimp only; (repeat' split) <;> simp
@[simp] theorem State.readRow_ident (s : State) (r : RegionId) (t : TileId) (row n : Nat) (x : Option (Slot × BitVec 11)) :
    (s.readRow r t row n x).2.2.ident = s.ident := by
  unfold State.readRow; dsimp only; (repeat' split) <;> simp
@[simp] theorem State.readRow_cad (s : State) (r : RegionId) (t : TileId) (row n : Nat) (x : Option (Slot × BitVec 11)) :
    (s.readRow r t row n x).2.2.cad = s.cad := by
  unfold State.readRow; dsimp only; (repeat' split) <;> simp
@[simp] theorem State.readRow_power (s : State) (r : RegionId) (t : TileId) (row n : Nat) (x : Option (Slot × BitVec 11)) :
    (s.readRow r t row n x).2.2.power = s.power := by
  unfold State.readRow; dsimp only; (repeat' split) <;> simp
@[simp] theorem State.readRow_resets (s : State) (r : RegionId) (t : TileId) (row n : Nat) (x : Option (Slot × BitVec 11)) :
    (s.readRow r t row n x).2.2.resets = s.resets := by
  unfold State.readRow; dsimp only; (repeat' split) <;> simp
@[simp] theorem State.readRow_mem (s : State) (r : RegionId) (t : TileId) (row n : Nat) (x : Option (Slot × BitVec 11)) :
    (s.readRow r t row n x).2.2.mem = s.mem := by
  unfold State.readRow; dsimp only; (repeat' split) <;> simp
@[simp] theorem State.readRow_parity (s : State) (r : RegionId) (t : TileId) (row n : Nat) (x : Option (Slot × BitVec 11)) :
    (s.readRow r t row n x).2.2.parity = s.parity := by
  unfold State.readRow; dsimp only; (repeat' split) <;> simp
@[simp] theorem State.readRow_stopped (s : State) (r : RegionId) (t : TileId) (row n : Nat) (x : Option (Slot × BitVec 11)) :
    (s.readRow r t row n x).2.2.stopped = s.stopped := by
  unfold State.readRow; dsimp only; (repeat' split) <;> simp

/-! `writeRow` writes free, order, tiles, regions only. -/

@[simp] theorem State.writeRow_pending (s : State) (r : RegionId) (t : TileId) (row : Nat) (v : Row) (x : Option (Slot × BitVec 11)) :
    (s.writeRow r t row v x).pending = s.pending := by
  unfold State.writeRow; simp
@[simp] theorem State.writeRow_wall (s : State) (r : RegionId) (t : TileId) (row : Nat) (v : Row) (x : Option (Slot × BitVec 11)) :
    (s.writeRow r t row v x).wall = s.wall := by
  unfold State.writeRow; simp
@[simp] theorem State.writeRow_beats (s : State) (r : RegionId) (t : TileId) (row : Nat) (v : Row) (x : Option (Slot × BitVec 11)) :
    (s.writeRow r t row v x).beats = s.beats := by
  unfold State.writeRow; simp
@[simp] theorem State.writeRow_beatAt (s : State) (r : RegionId) (t : TileId) (row : Nat) (v : Row) (x : Option (Slot × BitVec 11)) :
    (s.writeRow r t row v x).beatAt = s.beatAt := by
  unfold State.writeRow; simp
@[simp] theorem State.writeRow_undo (s : State) (r : RegionId) (t : TileId) (row : Nat) (v : Row) (x : Option (Slot × BitVec 11)) :
    (s.writeRow r t row v x).undo = s.undo := by
  unfold State.writeRow; simp
@[simp] theorem State.writeRow_hw (s : State) (r : RegionId) (t : TileId) (row : Nat) (v : Row) (x : Option (Slot × BitVec 11)) :
    (s.writeRow r t row v x).hw = s.hw := by
  unfold State.writeRow; simp
@[simp] theorem State.writeRow_scrubPass (s : State) (r : RegionId) (t : TileId) (row : Nat) (v : Row) (x : Option (Slot × BitVec 11)) :
    (s.writeRow r t row v x).scrubPass = s.scrubPass := by
  unfold State.writeRow; simp
@[simp] theorem State.writeRow_tilesAt (s : State) (r : RegionId) (t : TileId) (row : Nat) (v : Row) (x : Option (Slot × BitVec 11)) :
    (s.writeRow r t row v x).tilesAt = s.tilesAt := by
  unfold State.writeRow; simp
@[simp] theorem State.writeRow_objs (s : State) (r : RegionId) (t : TileId) (row : Nat) (v : Row) (x : Option (Slot × BitVec 11)) :
    (s.writeRow r t row v x).objs = s.objs := by
  unfold State.writeRow; simp
@[simp] theorem State.writeRow_ports (s : State) (r : RegionId) (t : TileId) (row : Nat) (v : Row) (x : Option (Slot × BitVec 11)) :
    (s.writeRow r t row v x).ports = s.ports := by
  unfold State.writeRow; simp
@[simp] theorem State.writeRow_fuses (s : State) (r : RegionId) (t : TileId) (row : Nat) (v : Row) (x : Option (Slot × BitVec 11)) :
    (s.writeRow r t row v x).fuses = s.fuses := by
  unfold State.writeRow; simp
@[simp] theorem State.writeRow_frame (s : State) (r : RegionId) (t : TileId) (row : Nat) (v : Row) (x : Option (Slot × BitVec 11)) :
    (s.writeRow r t row v x).frame = s.frame := by
  unfold State.writeRow; simp
@[simp] theorem State.writeRow_units (s : State) (r : RegionId) (t : TileId) (row : Nat) (v : Row) (x : Option (Slot × BitVec 11)) :
    (s.writeRow r t row v x).units = s.units := by
  unfold State.writeRow; simp
@[simp] theorem State.writeRow_hub (s : State) (r : RegionId) (t : TileId) (row : Nat) (v : Row) (x : Option (Slot × BitVec 11)) :
    (s.writeRow r t row v x).hub = s.hub := by
  unfold State.writeRow; simp
@[simp] theorem State.writeRow_ident (s : State) (r : RegionId) (t : TileId) (row : Nat) (v : Row) (x : Option (Slot × BitVec 11)) :
    (s.writeRow r t row v x).ident = s.ident := by
  unfold State.writeRow; simp
@[simp] theorem State.writeRow_cad (s : State) (r : RegionId) (t : TileId) (row : Nat) (v : Row) (x : Option (Slot × BitVec 11)) :
    (s.writeRow r t row v x).cad = s.cad := by
  unfold State.writeRow; simp
@[simp] theorem State.writeRow_power (s : State) (r : RegionId) (t : TileId) (row : Nat) (v : Row) (x : Option (Slot × BitVec 11)) :
    (s.writeRow r t row v x).power = s.power := by
  unfold State.writeRow; simp
@[simp] theorem State.writeRow_resets (s : State) (r : RegionId) (t : TileId) (row : Nat) (v : Row) (x : Option (Slot × BitVec 11)) :
    (s.writeRow r t row v x).resets = s.resets := by
  unfold State.writeRow; simp
@[simp] theorem State.writeRow_mem (s : State) (r : RegionId) (t : TileId) (row : Nat) (v : Row) (x : Option (Slot × BitVec 11)) :
    (s.writeRow r t row v x).mem = s.mem := by
  unfold State.writeRow; simp
@[simp] theorem State.writeRow_parity (s : State) (r : RegionId) (t : TileId) (row : Nat) (v : Row) (x : Option (Slot × BitVec 11)) :
    (s.writeRow r t row v x).parity = s.parity := by
  unfold State.writeRow; simp
@[simp] theorem State.writeRow_stopped (s : State) (r : RegionId) (t : TileId) (row : Nat) (v : Row) (x : Option (Slot × BitVec 11)) :
    (s.writeRow r t row v x).stopped = s.stopped := by
  unfold State.writeRow; simp

/-! `readFree` writes free, order, tiles, hw, regions only. -/

@[simp] theorem State.readFree_pending (s : State) (r : RegionId) (t : TileId) (row : Nat) (x : Option (Slot × BitVec 11)) :
    (s.readFree r t row x).2.2.pending = s.pending := by
  unfold State.readFree; simp
@[simp] theorem State.readFree_wall (s : State) (r : RegionId) (t : TileId) (row : Nat) (x : Option (Slot × BitVec 11)) :
    (s.readFree r t row x).2.2.wall = s.wall := by
  unfold State.readFree; simp
@[simp] theorem State.readFree_beats (s : State) (r : RegionId) (t : TileId) (row : Nat) (x : Option (Slot × BitVec 11)) :
    (s.readFree r t row x).2.2.beats = s.beats := by
  unfold State.readFree; simp
@[simp] theorem State.readFree_beatAt (s : State) (r : RegionId) (t : TileId) (row : Nat) (x : Option (Slot × BitVec 11)) :
    (s.readFree r t row x).2.2.beatAt = s.beatAt := by
  unfold State.readFree; simp
@[simp] theorem State.readFree_undo (s : State) (r : RegionId) (t : TileId) (row : Nat) (x : Option (Slot × BitVec 11)) :
    (s.readFree r t row x).2.2.undo = s.undo := by
  unfold State.readFree; simp
@[simp] theorem State.readFree_scrubPass (s : State) (r : RegionId) (t : TileId) (row : Nat) (x : Option (Slot × BitVec 11)) :
    (s.readFree r t row x).2.2.scrubPass = s.scrubPass := by
  unfold State.readFree; simp
@[simp] theorem State.readFree_tilesAt (s : State) (r : RegionId) (t : TileId) (row : Nat) (x : Option (Slot × BitVec 11)) :
    (s.readFree r t row x).2.2.tilesAt = s.tilesAt := by
  unfold State.readFree; simp
@[simp] theorem State.readFree_objs (s : State) (r : RegionId) (t : TileId) (row : Nat) (x : Option (Slot × BitVec 11)) :
    (s.readFree r t row x).2.2.objs = s.objs := by
  unfold State.readFree; simp
@[simp] theorem State.readFree_ports (s : State) (r : RegionId) (t : TileId) (row : Nat) (x : Option (Slot × BitVec 11)) :
    (s.readFree r t row x).2.2.ports = s.ports := by
  unfold State.readFree; simp
@[simp] theorem State.readFree_fuses (s : State) (r : RegionId) (t : TileId) (row : Nat) (x : Option (Slot × BitVec 11)) :
    (s.readFree r t row x).2.2.fuses = s.fuses := by
  unfold State.readFree; simp
@[simp] theorem State.readFree_frame (s : State) (r : RegionId) (t : TileId) (row : Nat) (x : Option (Slot × BitVec 11)) :
    (s.readFree r t row x).2.2.frame = s.frame := by
  unfold State.readFree; simp
@[simp] theorem State.readFree_units (s : State) (r : RegionId) (t : TileId) (row : Nat) (x : Option (Slot × BitVec 11)) :
    (s.readFree r t row x).2.2.units = s.units := by
  unfold State.readFree; simp
@[simp] theorem State.readFree_hub (s : State) (r : RegionId) (t : TileId) (row : Nat) (x : Option (Slot × BitVec 11)) :
    (s.readFree r t row x).2.2.hub = s.hub := by
  unfold State.readFree; simp
@[simp] theorem State.readFree_ident (s : State) (r : RegionId) (t : TileId) (row : Nat) (x : Option (Slot × BitVec 11)) :
    (s.readFree r t row x).2.2.ident = s.ident := by
  unfold State.readFree; simp
@[simp] theorem State.readFree_cad (s : State) (r : RegionId) (t : TileId) (row : Nat) (x : Option (Slot × BitVec 11)) :
    (s.readFree r t row x).2.2.cad = s.cad := by
  unfold State.readFree; simp
@[simp] theorem State.readFree_power (s : State) (r : RegionId) (t : TileId) (row : Nat) (x : Option (Slot × BitVec 11)) :
    (s.readFree r t row x).2.2.power = s.power := by
  unfold State.readFree; simp
@[simp] theorem State.readFree_resets (s : State) (r : RegionId) (t : TileId) (row : Nat) (x : Option (Slot × BitVec 11)) :
    (s.readFree r t row x).2.2.resets = s.resets := by
  unfold State.readFree; simp
@[simp] theorem State.readFree_mem (s : State) (r : RegionId) (t : TileId) (row : Nat) (x : Option (Slot × BitVec 11)) :
    (s.readFree r t row x).2.2.mem = s.mem := by
  unfold State.readFree; simp
@[simp] theorem State.readFree_parity (s : State) (r : RegionId) (t : TileId) (row : Nat) (x : Option (Slot × BitVec 11)) :
    (s.readFree r t row x).2.2.parity = s.parity := by
  unfold State.readFree; simp
@[simp] theorem State.readFree_stopped (s : State) (r : RegionId) (t : TileId) (row : Nat) (x : Option (Slot × BitVec 11)) :
    (s.readFree r t row x).2.2.stopped = s.stopped := by
  unfold State.readFree; simp

/-! `noteClear` writes tiles only. -/

@[simp] theorem State.noteClear_pending (s : State) (r : RegionId) (t : TileId) :
    (s.noteClear r t).pending = s.pending := by
  unfold State.noteClear; dsimp only; (repeat' split) <;> simp
@[simp] theorem State.noteClear_wall (s : State) (r : RegionId) (t : TileId) :
    (s.noteClear r t).wall = s.wall := by
  unfold State.noteClear; dsimp only; (repeat' split) <;> simp
@[simp] theorem State.noteClear_beats (s : State) (r : RegionId) (t : TileId) :
    (s.noteClear r t).beats = s.beats := by
  unfold State.noteClear; dsimp only; (repeat' split) <;> simp
@[simp] theorem State.noteClear_free (s : State) (r : RegionId) (t : TileId) :
    (s.noteClear r t).free = s.free := by
  unfold State.noteClear; dsimp only; (repeat' split) <;> simp
@[simp] theorem State.noteClear_order (s : State) (r : RegionId) (t : TileId) :
    (s.noteClear r t).order = s.order := by
  unfold State.noteClear; dsimp only; (repeat' split) <;> simp
@[simp] theorem State.noteClear_undo (s : State) (r : RegionId) (t : TileId) :
    (s.noteClear r t).undo = s.undo := by
  unfold State.noteClear; dsimp only; (repeat' split) <;> simp
@[simp] theorem State.noteClear_hw (s : State) (r : RegionId) (t : TileId) :
    (s.noteClear r t).hw = s.hw := by
  unfold State.noteClear; dsimp only; (repeat' split) <;> simp
@[simp] theorem State.noteClear_scrubPass (s : State) (r : RegionId) (t : TileId) :
    (s.noteClear r t).scrubPass = s.scrubPass := by
  unfold State.noteClear; dsimp only; (repeat' split) <;> simp
@[simp] theorem State.noteClear_beatAt (s : State) (r : RegionId) (t : TileId) :
    (s.noteClear r t).beatAt = s.beatAt := by
  unfold State.noteClear; dsimp only; (repeat' split) <;> simp
@[simp] theorem State.noteClear_tilesAt (s : State) (r : RegionId) (t : TileId) :
    (s.noteClear r t).tilesAt = s.tilesAt := by
  unfold State.noteClear; dsimp only; (repeat' split) <;> simp
@[simp] theorem State.noteClear_parity (s : State) (r : RegionId) (t : TileId) :
    (s.noteClear r t).parity = s.parity := by
  unfold State.noteClear; dsimp only; (repeat' split) <;> simp
@[simp] theorem State.noteClear_stopped (s : State) (r : RegionId) (t : TileId) :
    (s.noteClear r t).stopped = s.stopped := by
  unfold State.noteClear; dsimp only; (repeat' split) <;> simp
@[simp] theorem State.noteClear_objs (s : State) (r : RegionId) (t : TileId) :
    (s.noteClear r t).objs = s.objs := by
  unfold State.noteClear; dsimp only; (repeat' split) <;> simp
@[simp] theorem State.noteClear_regions (s : State) (r : RegionId) (t : TileId) :
    (s.noteClear r t).regions = s.regions := by
  unfold State.noteClear; dsimp only; (repeat' split) <;> simp
@[simp] theorem State.noteClear_ports (s : State) (r : RegionId) (t : TileId) :
    (s.noteClear r t).ports = s.ports := by
  unfold State.noteClear; dsimp only; (repeat' split) <;> simp
@[simp] theorem State.noteClear_fuses (s : State) (r : RegionId) (t : TileId) :
    (s.noteClear r t).fuses = s.fuses := by
  unfold State.noteClear; dsimp only; (repeat' split) <;> simp
@[simp] theorem State.noteClear_frame (s : State) (r : RegionId) (t : TileId) :
    (s.noteClear r t).frame = s.frame := by
  unfold State.noteClear; dsimp only; (repeat' split) <;> simp
@[simp] theorem State.noteClear_units (s : State) (r : RegionId) (t : TileId) :
    (s.noteClear r t).units = s.units := by
  unfold State.noteClear; dsimp only; (repeat' split) <;> simp
@[simp] theorem State.noteClear_hub (s : State) (r : RegionId) (t : TileId) :
    (s.noteClear r t).hub = s.hub := by
  unfold State.noteClear; dsimp only; (repeat' split) <;> simp
@[simp] theorem State.noteClear_ident (s : State) (r : RegionId) (t : TileId) :
    (s.noteClear r t).ident = s.ident := by
  unfold State.noteClear; dsimp only; (repeat' split) <;> simp
@[simp] theorem State.noteClear_cad (s : State) (r : RegionId) (t : TileId) :
    (s.noteClear r t).cad = s.cad := by
  unfold State.noteClear; dsimp only; (repeat' split) <;> simp
@[simp] theorem State.noteClear_power (s : State) (r : RegionId) (t : TileId) :
    (s.noteClear r t).power = s.power := by
  unfold State.noteClear; dsimp only; (repeat' split) <;> simp
@[simp] theorem State.noteClear_resets (s : State) (r : RegionId) (t : TileId) :
    (s.noteClear r t).resets = s.resets := by
  unfold State.noteClear; dsimp only; (repeat' split) <;> simp
@[simp] theorem State.noteClear_mem (s : State) (r : RegionId) (t : TileId) :
    (s.noteClear r t).mem = s.mem := by
  unfold State.noteClear; dsimp only; (repeat' split) <;> simp

/-! `undoBundle` writes tiles, regions only. -/

@[simp] theorem State.undoBundle_pending (s : State) (r : RegionId) (t : TileId) :
    (s.undoBundle r t).pending = s.pending := by
  unfold State.undoBundle; simp
@[simp] theorem State.undoBundle_wall (s : State) (r : RegionId) (t : TileId) :
    (s.undoBundle r t).wall = s.wall := by
  unfold State.undoBundle; simp
@[simp] theorem State.undoBundle_beats (s : State) (r : RegionId) (t : TileId) :
    (s.undoBundle r t).beats = s.beats := by
  unfold State.undoBundle; simp
@[simp] theorem State.undoBundle_free (s : State) (r : RegionId) (t : TileId) :
    (s.undoBundle r t).free = s.free := by
  unfold State.undoBundle; simp
@[simp] theorem State.undoBundle_order (s : State) (r : RegionId) (t : TileId) :
    (s.undoBundle r t).order = s.order := by
  unfold State.undoBundle; simp
@[simp] theorem State.undoBundle_undo (s : State) (r : RegionId) (t : TileId) :
    (s.undoBundle r t).undo = s.undo := by
  unfold State.undoBundle; simp
@[simp] theorem State.undoBundle_hw (s : State) (r : RegionId) (t : TileId) :
    (s.undoBundle r t).hw = s.hw := by
  unfold State.undoBundle; simp
@[simp] theorem State.undoBundle_scrubPass (s : State) (r : RegionId) (t : TileId) :
    (s.undoBundle r t).scrubPass = s.scrubPass := by
  unfold State.undoBundle; simp
@[simp] theorem State.undoBundle_beatAt (s : State) (r : RegionId) (t : TileId) :
    (s.undoBundle r t).beatAt = s.beatAt := by
  unfold State.undoBundle; simp
@[simp] theorem State.undoBundle_tilesAt (s : State) (r : RegionId) (t : TileId) :
    (s.undoBundle r t).tilesAt = s.tilesAt := by
  unfold State.undoBundle; simp
@[simp] theorem State.undoBundle_parity (s : State) (r : RegionId) (t : TileId) :
    (s.undoBundle r t).parity = s.parity := by
  unfold State.undoBundle; simp
@[simp] theorem State.undoBundle_stopped (s : State) (r : RegionId) (t : TileId) :
    (s.undoBundle r t).stopped = s.stopped := by
  unfold State.undoBundle; simp
@[simp] theorem State.undoBundle_objs (s : State) (r : RegionId) (t : TileId) :
    (s.undoBundle r t).objs = s.objs := by
  unfold State.undoBundle; simp
@[simp] theorem State.undoBundle_ports (s : State) (r : RegionId) (t : TileId) :
    (s.undoBundle r t).ports = s.ports := by
  unfold State.undoBundle; simp
@[simp] theorem State.undoBundle_fuses (s : State) (r : RegionId) (t : TileId) :
    (s.undoBundle r t).fuses = s.fuses := by
  unfold State.undoBundle; simp
@[simp] theorem State.undoBundle_frame (s : State) (r : RegionId) (t : TileId) :
    (s.undoBundle r t).frame = s.frame := by
  unfold State.undoBundle; simp
@[simp] theorem State.undoBundle_units (s : State) (r : RegionId) (t : TileId) :
    (s.undoBundle r t).units = s.units := by
  unfold State.undoBundle; simp
@[simp] theorem State.undoBundle_hub (s : State) (r : RegionId) (t : TileId) :
    (s.undoBundle r t).hub = s.hub := by
  unfold State.undoBundle; simp
@[simp] theorem State.undoBundle_ident (s : State) (r : RegionId) (t : TileId) :
    (s.undoBundle r t).ident = s.ident := by
  unfold State.undoBundle; simp
@[simp] theorem State.undoBundle_cad (s : State) (r : RegionId) (t : TileId) :
    (s.undoBundle r t).cad = s.cad := by
  unfold State.undoBundle; simp
@[simp] theorem State.undoBundle_power (s : State) (r : RegionId) (t : TileId) :
    (s.undoBundle r t).power = s.power := by
  unfold State.undoBundle; simp
@[simp] theorem State.undoBundle_resets (s : State) (r : RegionId) (t : TileId) :
    (s.undoBundle r t).resets = s.resets := by
  unfold State.undoBundle; simp
@[simp] theorem State.undoBundle_mem (s : State) (r : RegionId) (t : TileId) :
    (s.undoBundle r t).mem = s.mem := by
  unfold State.undoBundle; simp

/-! Reads of tiles, cores and region cycles. -/

theorem State.tile_of_tiles {s u : State} (h : s.tiles = u.tiles) (t : TileId) : s.tile t = u.tile t := by
  unfold State.tile; rw [h]
theorem State.region_of_regions {s u : State} (h : s.regions = u.regions) (r : RegionId) : s.region r = u.region r := by
  unfold State.region; rw [h]

@[simp] theorem State.msixSend_tile (s : State) (a b : Nat) (t : TileId) : (s.msixSend a b).tile t = s.tile t :=
  State.tile_of_tiles (by simp) t
@[simp] theorem State.msixSend_region (s : State) (a b : Nat) (r : RegionId) : (s.msixSend a b).region r = s.region r :=
  State.region_of_regions (by simp) r
@[simp] theorem State.regionEvent_tile (s : State) (r : RegionId) (b : Nat) (t : TileId) :
    (s.regionEvent r b).tile t = s.tile t := State.tile_of_tiles (by simp) t
@[simp] theorem State.hazard_tile (s : State) (r : RegionId) (t : TileId) (x : Option (Slot × BitVec 11)) (c d : Nat)
    (q : TileId) : (s.hazard r t x c d).tile q = s.tile q := State.tile_of_tiles (by simp) q
@[simp] theorem State.readEcc_region (s : State) (t : TileId) (row : Nat) (r : RegionId) :
    (s.readEcc t row).region r = s.region r := State.region_of_regions (by simp) r
@[simp] theorem State.noteClear_region (s : State) (r : RegionId) (t : TileId) (q : RegionId) :
    (s.noteClear r t).region q = s.region q := State.region_of_regions (by simp) q

/-- An event leaves the region cycle as it is. -/
@[simp] theorem State.regionEvent_cycle (s : State) (r : RegionId) (b : Nat) (q : RegionId) :
    ((s.regionEvent r b).region q).cycle = (s.region q).cycle := by
  unfold State.regionEvent; simp; split <;> simp_all
/-- A hazard record leaves the region cycle as it is. -/
@[simp] theorem State.hazard_cycle (s : State) (r : RegionId) (t : TileId) (x : Option (Slot × BitVec 11)) (c d : Nat)
    (q : RegionId) : ((s.hazard r t x c d).region q).cycle = (s.region q).cycle := by
  unfold State.hazard
  dsimp only
  repeat' split
  all_goals simp
  all_goals (split <;> simp_all)
@[simp] theorem State.readEcc_ctl (s : State) (t : TileId) (row : Nat) (q : TileId) :
    ((s.readEcc t row).tile q).ctl = (s.tile q).ctl := by
  unfold State.readEcc
  dsimp only
  split
  · rfl
  · rw [State.tile_modHw, State.tile_modTile]; split <;> simp_all
/-- A use of a bank leaves every core as it is. -/
@[simp] theorem State.useBank_ctl (s : State) (r : RegionId) (t : TileId) (row : Nat) (w : Bool)
    (x : Option (Slot × BitVec 11)) (q : TileId) : ((s.useBank r t row w x).2.tile q).ctl = (s.tile q).ctl := by
  unfold State.useBank State.draw
  dsimp only
  split
  · rw [State.tile_setTile]; split <;> simp_all
  · dsimp only
    rw [State.tile_modTile]
    split
    · next h => subst h; split <;> simp
    · next h => split <;> simp [h]
@[simp] theorem State.useBank_cycle (s : State) (r : RegionId) (t : TileId) (row : Nat) (w : Bool)
    (x : Option (Slot × BitVec 11)) (q : RegionId) : ((s.useBank r t row w x).2.region q).cycle = (s.region q).cycle := by
  unfold State.useBank State.draw
  dsimp only
  split
  · rfl
  · dsimp only; split <;> simp
@[simp] theorem State.noteLead_tile (s : State) (r : RegionId) (t : TileId) (row : Nat) (x : Option (Slot × BitVec 11))
    (q : TileId) : ((s.noteLead r t row x).2.tile q) = s.tile q := State.tile_of_tiles (by simp) q
@[simp] theorem State.noteLead_cycle (s : State) (r : RegionId) (t : TileId) (row : Nat) (x : Option (Slot × BitVec 11))
    (q : RegionId) : ((s.noteLead r t row x).2.region q).cycle = (s.region q).cycle := by
  unfold State.noteLead; split <;> simp
@[simp] theorem State.takeRow_ctl (s : State) (t : TileId) (row : Nat) (b : Bool) (q : TileId) :
    ((s.takeRow t row b).2.2.tile q).ctl = (s.tile q).ctl := by
  unfold State.takeRow State.draw; dsimp only
  split
  · exact State.readEcc_ctl s t row q
  · exact State.readEcc_ctl s t row q
@[simp] theorem State.takeRow_region (s : State) (t : TileId) (row : Nat) (b : Bool) (q : RegionId) :
    (s.takeRow t row b).2.2.region q = s.region q := State.region_of_regions (by simp) q
/-- A read of a row leaves every core as it is. -/
@[simp] theorem State.readRow_ctl (s : State) (r : RegionId) (t : TileId) (row n : Nat) (x : Option (Slot × BitVec 11))
    (q : TileId) : ((s.readRow r t row n x).2.2.tile q).ctl = (s.tile q).ctl := by
  unfold State.readRow
  dsimp only
  repeat' split
  all_goals simp
@[simp] theorem State.readRow_cycle (s : State) (r : RegionId) (t : TileId) (row n : Nat) (x : Option (Slot × BitVec 11))
    (q : RegionId) : ((s.readRow r t row n x).2.2.region q).cycle = (s.region q).cycle := by
  unfold State.readRow
  dsimp only
  repeat' split
  all_goals simp
@[simp] theorem State.readSched_ctl (s : State) (r : RegionId) (t : TileId) (row : Nat) (x : Option (Slot × BitVec 11))
    (q : TileId) : ((s.readSched r t row x).2.2.tile q).ctl = (s.tile q).ctl := by
  unfold State.readSched; simp
@[simp] theorem State.readSched_cycle (s : State) (r : RegionId) (t : TileId) (row : Nat) (x : Option (Slot × BitVec 11))
    (q : RegionId) : ((s.readSched r t row x).2.2.region q).cycle = (s.region q).cycle := by
  unfold State.readSched; simp
@[simp] theorem State.readFree_ctl (s : State) (r : RegionId) (t : TileId) (row : Nat) (x : Option (Slot × BitVec 11))
    (q : TileId) : ((s.readFree r t row x).2.2.tile q).ctl = (s.tile q).ctl := by
  unfold State.readFree; simp
@[simp] theorem State.readFree_cycle (s : State) (r : RegionId) (t : TileId) (row : Nat) (x : Option (Slot × BitVec 11))
    (q : RegionId) : ((s.readFree r t row x).2.2.region q).cycle = (s.region q).cycle := by
  unfold State.readFree; simp
/-- A write of a row leaves every core as it is. -/
@[simp] theorem State.writeRow_ctl (s : State) (r : RegionId) (t : TileId) (row : Nat) (v : Row)
    (x : Option (Slot × BitVec 11)) (q : TileId) : ((s.writeRow r t row v x).tile q).ctl = (s.tile q).ctl := by
  unfold State.writeRow
  dsimp only
  rw [State.useBank_ctl, State.tile_modTile]
  split
  · next h => subst h; rfl
  · rfl
@[simp] theorem State.writeRow_cycle (s : State) (r : RegionId) (t : TileId) (row : Nat) (v : Row)
    (x : Option (Slot × BitVec 11)) (q : RegionId) : ((s.writeRow r t row v x).region q).cycle = (s.region q).cycle := by
  unfold State.writeRow
  dsimp only
  rw [State.useBank_cycle]
  rfl

end Sys2Proof.Machine
end

