-- ==== Sys2Proof/Tests/Slice0.lean ====
section
/-!
SUPPORT. Sys2Proof/Tests/Slice0.lean: the tests: ill-formed commands that WellFormed refuses, the spec's worked examples,
one command at a time on small states, and for every statement with hypotheses a state and operands that meet them.
-/
namespace Sys2Proof.Tests
set_option maxRecDepth 8000
open Sys2Proof Sys2Proof.Machine

/-! ### Small states -/

/-- A region of columns 0 and 1, rows 0 to 3, with sync block 0, HBM channel 40, LPDDR channel 0, and lane 0 of port 0. -/
def cfg : RegionCfg :=
  { col0 := 0, ncols := 2, row0 := 0, nrows := 4, floor := 2, debug := false, tag := 0, sync := 1,
    hbm := 1#256 <<< 40, lpddr := 1, poolBase := 0x5FA0000000, poolSize := 0x200000,
    vlane := [0x80], tileMap := [], raw := [] }

/-- Region 0 granted with `cfg`, its tiles in the state after a grant. -/
def region : Region := { Region.reset with cfg := some cfg, st := .granted, epoch := 1 }

/-- The part READY with 128 columns, its firmware running, port 0 to 11 enabled, and region 0 granted. -/
def base : State :=
  { State.reset with
    fuses := { entries := [], inEffect := 0, revoked := 0, used := [], columns := 128, parked := [], pulse := none,
               revokePulse := none },
    resets := { Resets.reset with pwrgood := true, ready := true },
    hub := { Hub.reset with fwState := 2 },
    frame := { FrameSt.reset with loaded := true, portEnable := 0xFFF },
    regions := [(0, region)] }

/-- A tile that runs, bundle 0 next. -/
def tile : Tile := { Tile.reset with ctl := { Ctl.reset with run := .running } }

/-- `base` with tile 0 given by `f` from a running one. -/
def withTile (f : Tile → Tile) : State := { base with tiles := [(0, f tile)] }

/-- `base` with tile 0 running. -/
def running : State := withTile id

/-- `s` with `f` applied to region 0. -/
def onRegion (s : State) (f : Region → Region) : State := s.modRegion 0 f

/-- `s` with region 0 in an exchange phase of 200 cycles. -/
def exchanging (s : State) : State :=
  onRegion s (fun g => { g with window := { g.window with open_ := true, e0 := 0, xlen := 200 } })

/-- A slot word under the guard "always". -/
def word (op rest : Nat) : SlotWord := BitVec.ofNat 32 (op * 2 ^ 26 + rest)

/-- `s` with the bundle at the PC of tile 0 holding word `w` in slot `l` and NOPs in the others (02 R47). -/
def ld (s : State) (l : Slot) (w : SlotWord) : State :=
  let at_ : Nat := match l with
    | .s => 0
    | .m => 32
    | .v => 64
    | .x => 96
  s.modTile 0 (fun x => { x with pm := x.pm.put x.ctl.pc.toNat (BitVec.ofNat 128 (w.toNat <<< at_)) })

/-- What a command leaves of tile 0. -/
def tileOf (o : Host.Outcome State Fault Refusal) : Tile := match o with
  | .next s => s.tile 0
  | _ => Tile.reset

/-- What a command leaves. -/
def after (o : Host.Outcome State Fault Refusal) : State := match o with
  | .next s => s
  | _ => State.reset

/-- The commands one after another. -/
def perform (s : State) : List Instr → State
  | [] => s
  | c :: r => perform (after (exec c s)) r

/-! ### WellFormed refuses -/

theorem test_ill_formed_tile_row : (Instr.alu 48 (word 0x01 0)).wf = false := by decide
theorem test_ill_formed_op : (Instr.addi 0 (word 0x03 0)).wf = false := by decide
theorem test_ill_formed_port : (Instr.trainingTimeout 12).wf = false := by decide
theorem test_ill_formed_upset_row : (Instr.scrubWindow 0 [⟨768, 0, false⟩] []).wf = false := by decide
theorem test_ill_formed_regulator : (Instr.vrFault 5).wf = false := by decide
theorem test_ill_formed_unit_class : (Instr.unitReturn 0 0 0 0).wf = false ∧ (Instr.unitReload 7 0).wf = false := by decide
theorem test_ill_formed_parity_tile :
    (Instr.paritySweep [{ region := none, tile := some 48, port := none, loc := 0 }]).wf = false := by decide
theorem test_ill_formed_parity_port :
    (Instr.paritySweep [{ region := none, tile := none, port := some 12, loc := 0 }]).wf = false := by decide
theorem test_ill_formed_walk : (Instr.pageWalk (.tileDma 63 0)).wf = false := by decide
theorem test_ill_formed_tile_of_an_event : (Instr.stallResume 48).wf = false := by decide
theorem test_well_formed : (Instr.addi 0 0x080A0046).wf = true ∧ (Instr.endOp 47 (word 0x1F 0)).wf = true := by decide

/-! ### Worked examples of the spec -/

/-- 02, "Encoding example": ADDI g5, g0, 70; the value is readable a cycle later. -/
theorem test_addi_example : (tileOf (exec (.addi 0 0x080A0046) (ld running .s 0x080A0046))).ctl.gw = [{ reg := 5, val := 70, ready := 1, issue := 0 }] := by
  decide
/-- 02, "Encoding example": the fields of ROWLD at row g5 + 0, guarded by NOT p2. -/
theorem test_rowld_example : opOf 0x69405000 = 0x1A ∧ predOf 0x69405000 = 2 ∧ pnOf 0x69405000 = true ∧ raOf 0x69405000 = 5 ∧
    simmOf 0x69405000 = 0 := by decide

/-- 12 R315: the CRC of the nine ASCII bytes "123456789". -/
theorem test_crc : crc32c [0x31, 0x32, 0x33, 0x34, 0x35, 0x36, 0x37, 0x38, 0x39] = 0xE3069283 := by decide
/-- 08 R215, R216: with all inputs zero, round 3 leaves injection 1 in the first two words, and round 4 follows. -/
theorem test_spoke_rounds :
    (List.range 4).foldl (fun q r => spokeRound 0 0 r q) { x0 := 0, x1 := 0, x2 := 0, x3 := 0 } =
      { x0 := 0x9E3779B9, x1 := 0xBB67AE85, x2 := 0, x3 := 0 } ∧
    spokeRound 0 0 4 { x0 := 0x9E3779B9, x1 := 0xBB67AE85, x2 := 0, x3 := 0 } =
      { x0 := 0xCFB8D49A, x1 := 0x283E599F, x2 := 0x283E599F, x3 := 0x599F283E } := by decide
/-- 04, "Worked example: choosing a margin": FP32 13.0 to E2M1 at margin 0 clips to 0x7, at margin 1 gives 0x5. -/
theorem test_e2m1_margin :
    cvt .fp32 (decode .fp32 0x41500000) .e2m1 .sat .nearest (.pow 1) = (0x7, Events.clip1) ∧
    cvt .fp32 (decode .fp32 0x41500000) .e2m1 .sat .nearest (.pow 2) = (0x5, Events.none_) ∧
    scaleCode (scaleExp (decode .fp32 0x41500000) .e2m1 0) = 0x80 := by decide
/-- The same table: −5.0 gives 0xC, 0.2 underflows, −0.0 is written +0 and counts nothing. -/
theorem test_e2m1_rest :
    cvt .fp32 (decode .fp32 0xC0A00000) .e2m1 .sat .nearest (.pow 1) = (0xC, Events.none_) ∧
    cvt .fp32 (decode .fp32 0x3E4CCCCD) .e2m1 .sat .nearest (.pow 1) = (0x0, Events.uflow1) ∧
    cvt .fp32 (decode .fp32 0x80000000) .e2m1 .sat .nearest (.pow 1) = (0x0, Events.none_) := by decide
/-- 04, "Worked example: stochastic rounding into T2". -/
theorem test_t2_stochastic :
    cvt .fp32 (decode .fp32 0x3F400000) .t2 .sat (.stoch 0x4000) (.pow 0) = (1, Events.none_) ∧
    cvt .fp32 (decode .fp32 0x3F400000) .t2 .sat (.stoch 0x3FFF) (.pow 0) = (0, Events.uflow1) ∧
    cvt .fp32 (decode .fp32 0xBE800000) .t2 .sat (.stoch 0xC000) (.pow 0) = (3, Events.none_) := by decide

/-- Memory with the entries of 11, "Worked example: a walk": 8 bytes each. -/
def walkMem : Mem := ([(0x5FA0000010, 0x5FA0000401), (0x5FA0000428, 0x5FA0000801), (0x5FA0000818, 0x5FA0000C01),
  (0x5FA0000E08, 0xF0020000F)] : List (Nat × Nat)).foldl (fun m e => m.write e.1 (leBytes 8 e.2)) Mem.reset
/-- `base` with that memory and the root table at the pool's base. -/
def walking : State := onRegion { base with mem := walkMem } (fun g => { g with mem := { g.mem with root := 0x5FA0000000 } })

/-- 11, "Worked example: a walk": the device address of the virtual address, and page 1 of channel 40. -/
theorem test_walk_example : (walking.translate 0 0x082838204200 kRead).1 = .ok 0x0F00204200 ∧
    chanOf 0x0F00204200 = some (.hbm 40) := by decide
/-- 09, "Worked example": code 0x5 of E2M1 under scale byte 0x7C widens to BF16 0x3EC0 and to E4M3 0x2C. -/
theorem test_widen_example :
    cvt .e2m1 (decodeScaled .e2m1 0x5 (Scale.ofE8M0 0x7C)).1 .bf16 .sat .nearest .none_ = (0x3EC0, Events.none_) ∧
    cvt .e2m1 (decodeScaled .e2m1 0x5 (Scale.ofE8M0 0x7C)).1 .e4m3 .sat .nearest .none_ = (0x2C, Events.none_) := by decide

/-! ### One command on a small state; expected values by hand from the rules -/

/-- MUL keeps the low 32 bits, MULHU the high ones (02 R53): (2^32 − 1)^2. -/
theorem test_mul : aluOp 0x08 0xFFFFFFFF 0xFFFFFFFF = some 1 ∧ aluOp 0x09 0xFFFFFFFF 0xFFFFFFFF = some 0xFFFFFFFE := by decide
/-- SRA keeps the sign; a shift counts rb[4:0] only (02 R53). -/
theorem test_sra : aluOp 0x07 0x80000000 33 = some 0xC0000000 := by decide
/-- FOP ADD 1.0 + 2^−24 under round to nearest is 1.0, inexact (02 R54, R56). -/
theorem test_fadd : fpOp .fp32 0x00 0 0 0x3F800000 0x33800000 = { code := 0x3F800000, flags := flInexact } := by decide
/-- DIV 1.0 / 0 raises divide-by-zero and gives +infinity (02 R54, R56). -/
theorem test_fdiv : fpOp .fp32 0x06 0 0 0x3F800000 0 = { code := 0x7F800000, flags := flDivZero } := by decide
/-- FN 0x09 saturates 2^31 with invalid (02 R56). -/
theorem test_ftoi : fpOp .fp32 0x09 0 0 0x4F000000 0 = { code := 0x7FFFFFFF, flags := flInvalid } := by decide
/-- CALL writes the address of the bundle after the delay bundle (02 R52, R57). -/
theorem test_call : let x := tileOf (exec (.call 0 (word 0x0B 100)) (ld running .s (word 0x0B 100)))
    x.ctl.gw = [{ reg := 31, val := 2, ready := 1, issue := 0 }] ∧ x.ctl.branch = some 100 := by decide
/-- LOOPI of count 0 skips past END (02 R58). -/
theorem test_loop_zero : (tileOf (exec (.loopi 0 (word 0x0D 7)) (ld running .s (word 0x0D 7)))).ctl.pc = 8 := by decide
/-- A write of g0 is discarded (02 R44). -/
theorem test_g0 : ((tileOf (exec (.addi 0 (word 0x02 5)) (ld running .s (word 0x02 5)))).ctl.settle 1).reg 0 = 0 := by decide
/-- An OP that no operation of the slot has faults ILLEGAL_OP and stops the tile (02 R50). -/
theorem test_illegal :
    let s := after (exec (.nop 0 .s (word 0x3F 0)) (ld running .s (word 0x3F 0)))
    (s.region 0).faults.recs.map (·.code) = [0x01] ∧ (s.tile 0).ctl.run = .stopped := by decide
/-- ROWLD beyond row 831 faults BAD_ROW, before any memory is read (02 R63; 03 R108). -/
theorem test_bad_row : ((after (exec (.rowld 0 (word 0x1A 0x7FF)) (ld running .s (word 0x1A 0x7FF)))).region 0).faults.recs.map (·.code) = [0x06] := by decide
/-- A signal of one object lies 10 cy before it arrives (10 R252). -/
theorem test_ssig : ((after (exec (.ssig 0 (word 0x28 3)) (ld running .s (word 0x28 3)))).region 0).flights.map (fun f => (f.due, f.kind)) =
    [(10, .ssig 3)] := by decide
/-- A doorbell before READY has no effect (17 R422). -/
theorem test_not_ready : exec (.bufReg .pf 0 0 0) State.reset = .next State.reset := rfl
/-- Power-on is cause 1 and is counted (18 R443, R444). -/
theorem test_power_on : (after (exec (.pwrgoodRise true 0) State.reset)).resets.count = 1 ∧
    (after (exec (.pwrgoodRise true 0) State.reset)).resets.cause = 1 := by decide

/-! ### Witnesses: states and operands that meet the hypotheses of the statements, clause by clause -/

/-- The word under guard always issues in slot `l` of tile 0 of `s`, whose bundle holds it. -/
abbrev Goes (s : State) (l : Slot) (w : SlotWord) (op : Nat) : Prop := Issues (ld s l w) l 0 w 0 ∧ opOf w = op

theorem wit_StepRunsTheFrontCommand : step { base with pending := [.vbkupLoss] } = exec .vbkupLoss base := rfl
theorem wit_EmptyQueueCountsAWallCycle : base.pending = [] := rfl
theorem wit_ImmediateOperationsWriteRd :
    Goes running .s (word 0x02 0xFFF) 0x02 ∧ Goes running .s (word 0x03 0xFFF) 0x03 ∧ Goes running .s (word 0x04 0) 0x04 ∧
    Goes running .s (word 0x05 0) 0x05 ∧ Goes running .s (word 0x07 0x1FFFF) 0x07 ∧ Goes running .s (word 0x1C 0x7F) 0x1C := by decide
theorem wit_AluAndShiftWriteRd :
    (Goes running .s (word 0x01 0x0D) 0x01 ∧ aluOp (fnOf (word 0x01 0x0D)) 0 0 = some 0) ∧
    (Goes running .s (word 0x06 31) 0x06 ∧ Word.bits (word 0x06 31) 5 5 = 0 ∧ Word.bits (word 0x06 31) 10 2 = 0) ∧
    (Goes running .s (word 0x06 0x400) 0x06 ∧ Word.bits (word 0x06 0x400) 5 5 = 0 ∧ Word.bits (word 0x06 0x400) 10 2 = 1) ∧
    (Goes running .s (word 0x06 0x81F) 0x06 ∧ Word.bits (word 0x06 0x81F) 5 5 = 0 ∧ Word.bits (word 0x06 0x81F) 10 2 = 2) := by decide
theorem wit_PredicateOperationsWritePd :
    (Goes running .s (word 0x08 0x50000) 0x08 ∧ cmpOf (word 0x08 0x50000) = 5 ∧ Word.bits (word 0x08 0x50000) 0 6 = 0) ∧
    (Goes running .s (word 0x09 0x1800) 0x09 ∧ Word.bits (word 0x09 0x1800) 0 11 = 0) ∧
    (Goes running .s (word 0x12 0x30000) 0x12 ∧ Word.bits (word 0x12 0x30000) 0 6 = 0 ∧ cmpOf (word 0x12 0x30000) = 3) ∧
    (Goes running .s (word 0x12 0x71080) 0x12 ∧ Word.bits (word 0x12 0x71080) 0 6 = 0 ∧ cmpOf (word 0x12 0x71080) = 7 ∧
      praOf (word 0x12 0x71080) = 2 ∧ prbOf (word 0x12 0x71080) = 2) := by decide
theorem wit_FloatingOperationsWriteResultAndFlags :
    (Goes running .s (word 0x10 0x0C) 0x10 ∧ fpEnc false (word 0x10 0x0C) = true) ∧
    (Goes running .s (word 0x11 0x40000) 0x11 ∧ fpEnc true (word 0x11 0x40000) = true) := by decide
theorem wit_BranchesTakeEffect :
    let c := (((ld running .s (word 0x0A 2047)).opened 0 0).tile 0).ctl
    c.branch = none ∧ c.loopHere = none ∧
    (Goes running .s (word 0x0A 2047) 0x0A ∧ Word.bits (word 0x0A 2047) 11 11 = 0) ∧
    (Goes running .s (word 0x0B 2047) 0x0B ∧ Word.bits (word 0x0B 2047) 11 11 = 0) ∧
    (Goes running .s (word 0x0C 0x1F000) 0x0C ∧ Word.bits (word 0x0C 0x1F000) 17 5 = 0 ∧ Word.bits (word 0x0C 0x1F000) 0 12 = 0) := by
  decide
theorem wit_LoopsStartOrSkip :
    let c := (((ld running .s (word 0x0D 1)).opened 0 0).tile 0).ctl
    c.branch = none ∧ c.loopHere = none ∧ c.loops = [] ∧ (∀ l, c.loops.head? = some l → ¬ l.stop < 1) ∧
    (Goes running .s (word 0x0D 0xFF801) 0x0D ∧ c.pc.toNat < (baOf (word 0x0D 0xFF801)).toNat ∧ countOf (word 0x0D 0xFF801) = 511) ∧
    (Goes running .s (word 0x0D 1) 0x0D ∧ c.pc.toNat < (baOf (word 0x0D 1)).toNat ∧ countOf (word 0x0D 1) = 0) ∧
    (Goes running .s (word 0x0E 1) 0x0E ∧ c.pc.toNat < (baOf (word 0x0E 1)).toNat ∧ Word.bits (word 0x0E 1) 11 4 = 0) := by
  refine ⟨rfl, rfl, rfl, ?_, by decide, by decide, by decide⟩
  intro l h; cases h
/-- A core in the delay bundle of a branch, one at the END of a loop with 2 and with 1 to go, one before the last bundle. -/
theorem wit_BundleEndMovesThePc :
    let c := tile.ctl
    let l : Loop := { lc := 1, start := 3, stop := 5 }
    let k (n : Word) : Ctl := { c with pc := 5, loops := [l], lc := [(1, n)] }
    ({ c with branch := some 9 } : Ctl).branch = some 9 ∧
    (({ c with pc := 2046 } : Ctl).branch = none ∧ ({ c with pc := 2046 } : Ctl).loopHere = none) ∧
    ((k 2).loopHere = some l ∧ (k 2).branch = none ∧ (k 2).lc.wf = true ∧ (k 2).lc.get 1 ≠ 1) ∧
    ((k 1).loopHere = some l ∧ (k 1).branch = none ∧ (k 1).lc.wf = true ∧ (k 1).lc.get 1 = 1) := by decide
theorem wit_ControlRegistersAreReadAndWritten :
    (Goes running .s (word 0x18 0x043) 0x18 ∧ cregAccess (immOf (word 0x18 0x043)) ≠ .none_ ∧ Word.bits (word 0x18 0x043) 12 5 = 0 ∧
      (((ld running .s (word 0x18 0x043)).opened 0 0).tile 0).vec.asyncs = []) ∧
    (Goes running .s (word 0x19 0x04A) 0x19 ∧ cregAccess (immOf (word 0x19 0x04A)) = .rw ∧ Word.bits (word 0x19 0x04A) 17 5 = 0 ∧
      Word.bits ((((ld running .s (word 0x19 0x04A)).opened 0 0).tile 0).ctl.reg (raOf (word 0x19 0x04A))) 4 5 = 0) := by decide
theorem wit_RowBufferOperations :
    (Goes running .s (word 0x1A 767) 0x1A ∧ Word.bits (word 0x1A 767) 17 5 = 0 ∧ ((ld running .s (word 0x1A 767)).opened 0 0).rowFree 0 767 false ∧
      (((ld running .s (word 0x1A 767)).opened 0 0).readRow 0 0 767 0 (some (.s, 0))).2.1 = none) ∧
    (Goes running .s (word 0x1B 767) 0x1B ∧ Word.bits (word 0x1B 767) 17 5 = 0 ∧ ((ld running .s (word 0x1B 767)).opened 0 0).rowFree 0 767 true) ∧
    Goes running .s (word 0x1D 127) 0x1D := by decide

/-- A tile with message 7 at port 1, and one whose CQROW waits for two messages of port 1. -/
def messaged : State := withTile (fun x => { x with ports := [(1, { RxPort.reset with buf := [7] })] })
def rowed : State := withTile (fun x => { x with cqrows := [{ q := 1, n := 2, row := 0, op := 0, got := [] }] })

theorem wit_NopEndAndCqrd :
    Goes running .m (word 0 5) 0 ∧ Goes running .s (word 0x1F 0) 0x1F ∧
    (Goes rowed .s (word 0x1E 1) 0x1E ∧ Word.bits (word 0x1E 1) 2 10 = 0 ∧ Word.bits (word 0x1E 1) 12 5 = 0 ∧ rdOf (word 0x1E 1) % 2 = 0 ∧
      (((ld rowed .s (word 0x1E 1)).opened 0 0).region 0).inExchange = false ∧
      (((ld rowed .s (word 0x1E 1)).opened 0 0).tile 0).cqrows.any (fun k => k.q.toNat == 1 && decide (k.got.length < k.n)) = true) ∧
    (Goes running .s (word 0x1E 1) 0x1E ∧ ((((ld running .s (word 0x1E 1)).opened 0 0).tile 0).rx 1).buf = []) ∧
    (Goes messaged .s (word 0x1E 1) 0x1E ∧ (((ld messaged .s (word 0x1E 1)).opened 0 0).tile 0).cqrows = [] ∧
      ((((ld messaged .s (word 0x1E 1)).opened 0 0).tile 0).rx 1).buf = [7]) := by decide

/-- A tile with a split arrival at object 0. -/
def split : State := withTile (fun x => { x with split := some (0, none, 0) })

theorem wit_SyncOperationsReachTheirObject :
    let o := (ld running .s (word 0x28 0xFFF)).opened 0 0
    (o.region 0).ownsObj 0 = true ∧ o.stale 2 0 = false ∧ ((o.tile 0).split = none) ∧
    (Goes running .s (word 0x28 0xFFF) 0x28 ∧ Word.bits (word 0x28 0xFFF) 17 5 = 0 ∧ Word.bits (word 0x28 0xFFF) 0 12 ≠ 0) ∧
    (Goes running .s (word 0x29 0) 0x29 ∧ Word.bits (word 0x29 0) 17 5 = 0 ∧ Word.bits (word 0x29 0) 0 7 = 0) ∧
    (Goes running .s (word 0x2A 1) 0x2A ∧ Word.bits (word 0x2A 1) 17 5 = 0 ∧ Word.bits (word 0x2A 1) 0 12 ≠ 0) ∧
    (Goes running .s (word 0x2B 0x3E0000) 0x2B ∧ Word.bits (word 0x2B 0x3E0000) 0 12 = 0) ∧
    (Goes running .s (word 0x2C 0) 0x2C ∧ Goes running .s (word 0x2D 0) 0x2D) ∧
    (Goes split .s (word 0x2E 0) 0x2E ∧ (((ld split .s (word 0x2E 0)).opened 0 0).tile 0).split = some (0, none, 0)) ∧
    Goes running .s (word 0x2F 0) 0x2F := by decide
theorem wit_UnitRegistersAreLoaded :
    (Goes running .m (word 0x03 124) 0x03 ∧ wField (word 0x03 124) % 4 = 0 ∧ Word.bits (word 0x03 124) 7 12 = 0) ∧
    (Goes running .v (word 0x01 120) 0x01 ∧ wField (word 0x01 120) % 8 = 0 ∧ Word.bits (word 0x01 120) 7 11 = 0) ∧
    (Goes running .v (word 0x02 112) 0x02 ∧ wField (word 0x02 112) % 16 = 0 ∧ Word.bits (word 0x02 112) 7 12 = 0) ∧
    (Goes running .v (word 0x06 0x200000) 0x06 ∧ Word.bits (word 0x06 0x200000) 0 21 = 0) ∧
    (Goes running .x (word 0x01 124) 0x01 ∧ wField (word 0x01 124) % 4 = 0 ∧ Word.bits (word 0x01 124) 7 11 = 0) ∧
    (Goes running .x (word 0x02 124) 0x02 ∧ wField (word 0x02 124) % 4 = 0 ∧ Word.bits (word 0x02 124) 7 11 = 0) ∧
    (Goes running .x (word 0x06 255) 0x06 ∧ Word.bits (word 0x06 255) 8 14 = 0) ∧
    (Goes running .x (word 0x07 63) 0x07 ∧ Word.bits (word 0x07 63) 6 16 = 0) ∧
    (Goes running .x (word 0x10 124) 0x10 ∧ wField (word 0x10 124) % 4 = 0 ∧ Word.bits (word 0x10 124) 7 12 = 0) := by decide

/-- A pass descriptor: FP32 by FP32, one step; a drain job to FP32 without stages; a vector job of one stage over 32 FP32. -/
def passDesc : BitVec 128 := BitVec.ofNat 128 ((1 <<< 52) + (1 <<< 56) + (1 <<< 64))
def vecDesc : BitVec 256 := BitVec.ofNat 256 ((1 <<< 19) + (1 <<< 23) + (31 <<< 96) + (1 <<< 108))
def outDesc : BitVec 256 := vecDesc ||| 8
def vecTile : State := withTile (fun x => { x with
  matrix := { x.matrix with md := [(0, passDesc)] },
  vec := { x.vec with vd := [(0, vecDesc), (1, outDesc)], vj := [(0, BitVec.ofNat 512 (4 + (1 <<< 15) + (1 <<< 96))), (1, 2#512)] } })

theorem wit_MatrixOperationsStart :
    (Goes vecTile .m (word 0x01 0) 0x01 ∧ mdLegal ((((ld vecTile .m (word 0x01 0)).opened 0 0).tile 0).matrix.md.get 0) false = true ∧ mdBlk passDesc false = false) ∧
    (Goes vecTile .m (word 0x02 0x10000) 0x02 ∧ Word.bits (word 0x02 0x10000) 0 16 = 0 ∧ Word.bits (word 0x02 0x10000) 19 2 ≤ 1 ∧
      Word.bit (word 0x02 0x10000) 21 = false ∧
      drainLegal (jobSetup (((ld vecTile .m (word 0x02 0x10000)).opened 0 0).site 0 .m 0 (word 0x02 0x10000)) 1 ((ld vecTile .m (word 0x02 0x10000)).opened 0 0)) = true) := by decide
theorem wit_VectorOperationsStart :
    let o (l : Slot) (w : SlotWord) := (ld vecTile l w).opened 0 0
    let i := (o .v (word 0x04 0)).site 0 .v 0 (word 0x04 0)
    let job := jobSetup i 0 (o .v (word 0x04 0))
    (Goes running .v (word 0x03 767) 0x03 ∧ Word.bits (word 0x03 767) 10 3 = 0 ∧ rowField (word 0x03 767) = 767 ∧
      ((ld running .v (word 0x03 767)).opened 0 0).rowFree 0 767 false ∧ (((ld running .v (word 0x03 767)).opened 0 0).readRow 0 0 767 0 (some (.v, 0))).2.1 = none) ∧
    (Goes vecTile .v (word 0x04 0) 0x04 ∧ Word.bits (word 0x04 0) 0 19 = 0 ∧ jobLegal job false = true ∧
      ∀ q ∈ (job.begin_ 0 1).rows, (o .v (word 0x04 0)).rowFree 0 q.1 q.2) ∧
    (Goes vecTile .v (word 0x05 0) 0x05 ∧ jobLegal job true = true ∧ ((o .v (word 0x05 0)).tile 0).vec.asyncs.length < 2 ∧
      (job.begin_ 0 0).ranges.length ≤ ((o .v (word 0x05 0)).tile 0).freeEntries) := by decide

/-- A tile in an exchange phase with XR0 an on-device send to itself, XR1 an off-device send by port 0, XV0 a compiled receive, XV1
a late one of item 1, and a declared item 2. -/
def decl : Decl :=
  { id := 0, pc := 0, junk := false, item := 2, n := 1, row := 0, xv := 0x2000, dma := false, written := [], key := 0, port := none,
    scale := none, events := Events.none_ }
def exchTile : State := exchanging (withTile (fun x => { x with
  exch := { x.exch with xr := [(1, BitVec.ofNat 128 ((1 <<< 26) + (0xFFFF <<< 80)))], xv := [(1, 0x12000#128)], decls := [decl], reserved := [(0, 1)] } }))
theorem wit_SendsAreInjected :
    let o (l : Slot) (w : SlotWord) := (ld exchTile l w).opened 0 0
    ((o .s 0).region 0).inExchange = true ∧ (o .s 0).rowFree 0 767 false ∧
    (Goes exchTile .x (word 0x03 767) 0x03 ∧ xrLegal (((o .x (word 0x03 767)).tile 0).exch.xr.get 0) = true ∧ rowField (word 0x03 767) + nOf (word 0x03 767) ≤ 768 ∧
      xrGate (((o .x (word 0x03 767)).tile 0).exch.xr.get 0) = false ∧ badDest (o .x (word 0x03 767)) ((o .x (word 0x03 767)).region 0) 0 = none ∧ staleDest (o .x (word 0x03 767)) 0 0 = none ∧ xrSigen 0 = false) ∧
    (let x := ((o .s 0).tile 0).exch.xr.get 1
     Goes exchTile .x (word 0x03 (0x40000 + 767)) 0x03 ∧ reg4Of (word 0x03 (0x40000 + 767)) = 1 ∧ xrLegal x = true ∧ xrGate x = true ∧
      (o .x (word 0x03 (0x40000 + 767))).portEnabled (xrPort x) = true ∧ (((o .x (word 0x03 (0x40000 + 767))).region 0).lane (xrPort x)).isSome = true ∧ ((o .x (word 0x03 (0x40000 + 767))).port (xrPort x)).nbrDev = xrRdev x ∧
      nOf (word 0x03 (0x40000 + 767)) ≤ ((o .x (word 0x03 (0x40000 + 767))).tile 0).spare (xrPort x) ∧ badTileId (o .x (word 0x03 (0x40000 + 767))) (xrRtile x).toNat = false ∧
      staleLane (o .x (word 0x03 (0x40000 + 767))) 0 (xrPort x) = none) := by decide
theorem wit_ReceivesAreArmedOrDeclared :
    let o (l : Slot) (w : SlotWord) := (ld exchTile l w).opened 0 0
    ((o .s 0).region 0).inExchange = true ∧
    (Goes exchTile .x (word 0x04 0) 0x04 ∧ xvLegal 0 1 = true ∧ xvRows 0 = 1 ∧ xvWiden 0 = false ∧ xvLate 0 = false ∧
      badTileId (o .x (word 0x04 0)) (xvSender 0).toNat = false ∧ ((o .x (word 0x04 0)).tile 0).sb = []) ∧
    (let x := ((o .s 0).tile 0).exch.xv.get 1
     Goes exchTile .x (word 0x04 0x40000) 0x04 ∧ reg4Of (word 0x04 0x40000) = 1 ∧ xvLegal x 1 = true ∧ xvWiden x = false ∧ xvLate x = true ∧
      ((o .x (word 0x04 0x40000)).tile 0).decl (xvItem x) = none) := by decide
theorem wit_DueMarksAndCopies :
    let o (l : Slot) (w : SlotWord) := (ld exchTile l w).opened 0 0
    ((o .s 0).region 0).inExchange = true ∧
    (Goes exchTile .x (word 0x05 2) 0x05 ∧ reg2Of (word 0x05 2) = 0 ∧ ((o .x (word 0x05 2)).tile 0).decl 2 = some decl) ∧
    (Goes exchTile .x (word 0x05 (0x100000 + 63)) 0x05 ∧ reg2Of (word 0x05 (0x100000 + 63)) = 1 ∧ Word.bits (word 0x05 (0x100000 + 63)) 6 10 = 0) ∧
    (Goes exchTile .x (word 0x05 (0x200000 + 11 * 4096 + 511)) 0x05 ∧ reg2Of (word 0x05 (0x200000 + 11 * 4096 + 511)) = 2 ∧
      Word.bits (word 0x05 (0x200000 + 11 * 4096 + 511)) 9 3 = 0 ∧ Word.bits (word 0x05 (0x200000 + 11 * 4096 + 511)) 12 4 = 11) ∧
    (Goes running .x (word 0x08 767) 0x08 ∧ Word.bits (word 0x08 767) 10 2 = 0 ∧ Word.bits (word 0x08 767) 17 5 = 0 ∧
      ((ld running .x (word 0x08 767)).opened 0 0).rowFree 0 767 false) := by decide
theorem wit_DmaOperationsStart :
    let o (l : Slot) (w : SlotWord) := (ld running l w).opened 0 0
    drSigen 0 = false ∧ 1 ≤ ((o .s 0).tile 0).freeEntries ∧ rowField (word 0x11 767) + nOf (word 0x11 767) = 768 ∧
    (Goes running .x (word 0x11 767) 0x11 ∧ drLegal .rd 0 = true) ∧ (Goes running .x (word 0x12 767) 0x12 ∧ drLegal .wr 0 = true) ∧
    (Goes running .x (word 0x13 767) 0x13 ∧ drLegal .acc 0 = true) ∧
    (Goes exchTile .x (word 0x15 0) 0x15 ∧ drLegal .xr 0 = true ∧ (((ld exchTile .x (word 0x15 0)).opened 0 0).region 0).inExchange = true ∧
      (((ld exchTile .x (word 0x15 0)).opened 0 0).tile 0).decl (drItem 0) = none) ∧
    (let z := withTile (fun x => { x with dr := [(0, 1#128 <<< 64)] })
     Goes z .x (word 0x14 0) 0x14 ∧ drLegal .zf (((ld z .x (word 0x14 0)).opened 0 0).tile 0 |>.dr.get 0) = true ∧ (((ld z .x (word 0x14 0)).opened 0 0).tile 0).zeroFills < 4) := by
  decide

/-- A tile whose channel 0 is in state `st` with `n` credits. -/
def chanTile (st : ChState) (n : Nat) : State := withTile (fun x => { x with chans := [(0, { Chan.reset with st := st, credits := n })] })

theorem wit_ChannelOperations :
    (((ld running .x (word 0x20 0)).opened 0 0).region 0).inExchange = false ∧
    (Goes running .x (word 0x20 0) 0x20 ∧ Word.bits (word 0x20 0x80000) 17 3 = 4 ∧
      outside ((ld running .x (word 0x20 0)).opened 0 0) (((ld running .x (word 0x20 0)).opened 0 0).region 0) 0 = false ∧ ((ld running .x (word 0x20 0)).opened 0 0).staleColumn 0 0 = false ∧
      ((((ld running .x (word 0x20 0)).opened 0 0).tile 0).chan 0).st = .closed) ∧
    (Goes (chanTile .closing 0) .x (word 0x20 0) 0x20 ∧ ((((ld (chanTile .closing 0) .x (word 0x20 0)).opened 0 0).tile 0).chan 0).st = .closing) ∧
    (Goes (chanTile .open_ 1) .x (word 0x21 0) 0x21 ∧ ((((ld (chanTile .open_ 1) .x (word 0x21 0)).opened 0 0).tile 0).chan 0).credits = 1) ∧
    Goes (chanTile .open_ 0) .x (word 0x21 0) 0x21 ∧ Goes (chanTile .opening 0) .x (word 0x21 0) 0x21 ∧
    Goes (chanTile .open_ 1) .x (word 0x22 0) 0x22 ∧ Goes running .x (word 0x22 0) 0x22 ∧
    (Goes running .x (word 0x23 767) 0x23 ∧ Word.bits (word 0x23 767) 18 2 = 0 ∧ 1 ≤ (((ld running .x (word 0x23 767)).opened 0 0).tile 0).freeEntries) := by decide

/-- `running` with the brake of region 0 given by `f`, at wall cycle `w`. -/
def braking (w : Nat) (f : Brake → Brake) : State := { onRegion running (fun g => { g with brake := f g.brake }) with wall := w }

theorem wit_HaltEngagesAfter24WallCycles :
    (((braking 23 (fun b => { b with haltAt := some 0 })).region 0).brake.haltAt = some 0 ∧ (braking 23 id).wall < 0 + 24) ∧
    (((braking 24 (fun b => { b with haltAt := some 0 })).region 0).brake.halted = false ∧ 0 + 24 ≤ (braking 24 id).wall) := by decide
theorem wit_BrakesReachTheRegion :
    (((braking 24 (fun b => { b with flips := [(0, true)] })).region 0).brake.flips = [(0, true)]) ∧
    (((braking 24 (fun b => { b with limitFlips := [(0, true)] })).region 0).brake.flips = []) ∧
    (((braking 24 (fun b => { b with flips := [(0, false)], frozen := true })).region 0).brake.limitFlips = []) ∧
    (((braking 24 (fun b => { b with limitFlips := [(0, false)], limited := true })).region 0).brake.limited = true) ∧
    ((running.region 0).brake.frozen = false ∧ (running.region 0).brake.limited = false) ∧
    (let s : State := { braking 0 (fun b => { b with dutyOn := true, duty := 15 }) with cad := { Cadence.reset with beat := 960 } }
     (s.region 0).brake.dutyOn = true ∧ 64 * (s.region 0).brake.duty = s.cad.beat.toNat % 1024) ∧
    (running.region 0).brake.dutyOn = false := by decide
theorem wit_BrakeTimeoutIsCharged :
    let s := braking 0 (fun b => { b with run := 125000 })
    let u := braking 0 (fun b => { b with run := 125001 })
    let mark (t : TileId) : DueMark := { tile := t, kind := .code 0, item := 0, cyc := 0 }
    let v := braking 0 (fun b => { b with run := 125001, marks := [mark 0, mark 1] })
    (s.region 0).brake.run ≤ (s.region 0).brake.limit.toNat ∧
    ((u.region 0).brake.limit.toNat < (u.region 0).brake.run ∧ (u.region 0).brake.marks = []) ∧
    ((v.region 0).brake.limit.toNat < (v.region 0).brake.run ∧ (v.region 0).brake.marks ≠ [] ∧
      (v.region 0).brake.marks.Pairwise (fun m k => k.before m = false)) := by decide

/-- Tile 0 of region 0 in issue state `r`, at region cycle `n`. -/
def issuing (n : Nat) (r : Run) (pending : Option Bool) : State :=
  onRegion (withTile (fun x => { x with ctl := { x.ctl with run := r }, vec := { x.vec with pending := pending } })) (fun g => { g with cycle := n })

theorem wit_WaitingTilesGoOn :
    running.regionOf 0 = some 0 ∧ (running.region 0).frozen = false ∧ ((issuing 7 (.waking 7 false) none).tile 0).ctl.bundle = none ∧
    ((issuing 7 (.stalled Need.zero (some 7)) none).tile 0).ctl.run = .stalled Need.zero (some 7) ∧
    ((issuing 7 (.waking 7 false) none).tile 0).ctl.run = .waking 7 false ∧
    (((issuing 7 (.waking 7 true) (some true)).tile 0).ctl.run = .waking 7 true ∧
      ((issuing 7 (.waking 7 true) (some true)).tile 0).vec.pending = some true) ∧
    ((issuing 7 (.waking 7 true) none).tile 0).vec.pending = none := by decide
theorem wit_ReleasesReachTheTiles :
    let s (n : Nat) := onRegion (issuing n (.released 48) none) (fun g => { g with releases := [(0, 0, [0])] })
    let h (n : Nat) := onRegion (issuing n .entryHold none) (fun g => { g with startRel := some 0 })
    (((s 47).region 0).frozen = false ∧ ((s 47).obj 0).xch = false ∧ ((s 47).region 0).releases = [(0, 0, [0])] ∧ [(0 : TileId)].Nodup ∧
      ((s 47).region 0).cycle < 0 + 48) ∧
    (0 + 48 ≤ ((s 48).region 0).cycle ∧ ((s 48).tile 0).ctl.run = .released 48) ∧
    (((h 47).region 0).startRel = some 0 ∧ ((h 47).region 0).cfg = some cfg ∧ (h 47).power.cur.toNat ≤ cfg.floor ∧
      ((h 47).region 0).st = .granted ∧ ((h 47).region 0).cycle < 0 + 48) ∧
    (0 + 48 ≤ ((h 48).region 0).cycle ∧ ((h 48).tile 0).ctl.run = .entryHold ∧ (0 : TileId) ∈ cfg.tiles) := by decide
theorem wit_ExchangeWindowsOpenAndEnd :
    let s (n : Nat) (beat : Bool) := onRegion running (fun g => { g with cycle := n, window := { g.window with next := some (0, 1), beat := beat } })
    let e (n : Nat) := onRegion running (fun g => { g with cycle := n, window := { g.window with open_ := true, e0 := 0, xlen := 16 } })
    let z (n : Nat) (beat : Bool) := onRegion (s n beat) (fun g => { g with xwin := [(1, 0x10010)] })
    (((s 47 true).region 0).window.next = some (0, 1) ∧ ((s 47 true).region 0).cycle < 0 + 48) ∧
    (((z 48 false).region 0).window.beat = false ∧ (Tab.get 0x10 ((z 48 false).region 0).xwin 1).getLsbD 16 = true) ∧
    (0 + 48 ≤ ((z 48 true).region 0).cycle ∧ ((z 48 true).region 0).window.beat = true) ∧
    (0 + 48 ≤ ((s 48 false).region 0).cycle ∧ (Tab.get 0x10 ((s 48 false).region 0).xwin 1 : Word).getLsbD 16 = false) ∧
    (((e 15).region 0).window.open_ = true ∧ ((e 15).region 0).cycle < ((e 15).region 0).window.e0 + ((e 15).region 0).window.xlen) ∧
    ((e 16).region 0).window.e0 + ((e 16).region 0).window.xlen ≤ ((e 16).region 0).cycle := by decide

/-- An operation of tile 0 on object 0 that arrives now, alone. -/
def flight (k : SyncKind) : SyncFlight := { due := 10, obj := 0, src := .op 0 0, kind := k }
def arriving (k : SyncKind) (x : SyncObj) : State :=
  { onRegion running (fun g => { g with cycle := 10, flights := [flight k] }) with objs := [(0, x)] }

theorem wit_SyncOperationsArrive :
    let c : SyncObj := { SyncObj.reset with value := 65535 }
    let v (k : SyncKind) := arriving k SyncObj.reset
    (((v (.ssig 1)).region 0).frozen = false ∧ ((v (.ssig 1)).region 0).flights = [flight (.ssig 1)] ∧
      (flight (.ssig 1)).due ≤ ((v (.ssig 1)).region 0).cycle ∧ ((v (.ssig 1)).obj 0).bar = false ∧ ((v (.ssig 1)).obj 0).waiters = [] ∧
      ((v (.ssig 65535)).obj 0).value.toNat + 65535 ≤ 65535 ∧ (v (.ssig 1)).stale 2 0 = false) ∧
    ({ v (.ssig 1) with units := [(2 * 65536, { UnitRec.reset with quarantined := true })] } : State).stale 2 0 = true ∧
    65535 < ((arriving (.ssig 1) c).obj 0).value.toNat + 1 ∧
    ((arriving (.ssig 1) { c with bar := true }).obj 0).bar = true ∧
    (65535 ≤ ((arriving (.swait 65535) c).obj 0).value.toNat ∧ ((v (.swait 1)).obj 0).value.toNat < 1) ∧
    ((v (.sread 31)).obj 0).waiters = [] ∧
    (((v (.scfg 5)).region 0).touched = [] ∧ configRefused 0 0 5 ((v (.scfg 5)).setRegion 0 { (v (.scfg 5)).region 0 with flights := [] }) = false) := by decide
theorem wit_SreadReturnsTheCounterOrTheBarrier :
    let s := arriving (.sread 3) SyncObj.reset
    let b := arriving (.sread 3) { SyncObj.reset with bar := true, sense := true, value := 2 }
    ((s.region 0).flights = [flight (.sread 3)] ∧ (s.obj 0).waiters = [] ∧ (s.obj 0).bar = false ∧ s.stale 2 0 = false) ∧
    ((b.region 0).flights = [flight (.sread 3)] ∧ (b.obj 0).waiters = [] ∧ (b.obj 0).bar = true) := by decide
theorem wit_BarrierArrivalsCountDown :
    let x (n : BitVec 16) : SyncObj := { SyncObj.reset with bar := true, value := n, pcount := 3 }
    let s (n : BitVec 16) := arriving (.sbar 0) (x n)
    (((s 2).region 0).flights = [flight (.sbar 0)] ∧ (s 2).stale 2 0 = false ∧ ((s 2).obj 0).bar = true ∧ ((s 2).obj 0).xch = false ∧ ((s 2).obj 0).up = false ∧
      ((s 2).obj 0).parEn = false ∧ ((s 2).obj 0).children = [] ∧ ((s 2).region 0).releases = [] ∧ 2 ≤ ((s 2).obj 0).value.toNat) ∧
    (((s 1).obj 0).value = 1 ∧ ((s 1).region 0).fw.conf = false ∧ ((s 1).region 0).drl.st = .idle) := by decide

/-- Tile 0 with channel 0 in state `k`; tile 1 (row 1) ranked above it with receive port 0 as `p`. -/
def linked (k : Chan) (p : RxPort) (gate : Option Gate) : State :=
  { onRegion base (fun g => { g with ranks := [0, 1] }) with
    tiles := [(0, { tile with ctl := { tile.ctl with gate := gate }, chans := [(0, k)] }), (1, { tile with ports := [(0, p)] })] }

theorem wit_ChannelEvents :
    let k : Chan := { Chan.reset with st := .opening, dst := 1 }
    let s := linked k RxPort.reset none
    let b := linked { k with dst := 0 } RxPort.reset none
    let f := linked { k with st := .open_, flight := [5], back := 1 } { RxPort.reset with bound := some (0, 0) } none
    let z := linked { k with st := .closing, marker := true } { bound := some (0, 0), buf := [] } none
    (s.moving 0 = some 0 ∧ s.midBundle 1 = false ∧ f.moving 0 = some 0 ∧ f.midBundle 1 = false ∧ z.moving 1 = some 0 ∧ z.midBundle 0 = false ∧
      ((s.tile 0).chan 0).st = .opening ∧
      (s.region 0).rank 0 < (s.region 0).rank 1 ∧ ((s.tile 1).rx 0).bound = none) ∧
    (b.region 0).rank 0 ≤ (b.region 0).rank 0 ∧
    (((f.tile 0).chan 0).flight = [5] ∧ 0 < ((f.tile 0).chan 0).back ∧ (f.tile 0).ctl.gate = none) ∧
    ((z.tile 1).rx 0 = { bound := some (0, 0), buf := [] } ∧ ((z.tile 0).chan 0).marker = true ∧ ((z.tile 0).chan 0).flight = []) := by
  decide
theorem wit_GatedChannelOperationsGoOn :
    let s (st : ChState) (n : Nat) (g : Gate) := linked { Chan.reset with st := st, credits := n } RxPort.reset (some g)
    (((s .open_ 1 (.send 0 5)).tile 0).ctl.gate = some (.send 0 5) ∧ (((s .open_ 1 (.send 0 5)).tile 0).chan 0).credits = 1) ∧
    (((s .open_ 0 (.send 0 5)).tile 0).chan 0).credits = 0 ∧
    (((s .closed 0 (.reopen 0 1 0 0)).tile 0).ctl.gate = some (.reopen 0 1 0 0) ∧ (((s .closed 0 (.reopen 0 1 0 0)).tile 0).chan 0).st = .closed) ∧
    (((s .closing 0 (.reopen 0 1 0 0)).tile 0).chan 0).st ≠ .closed := by decide

/-- The row of a send of tile 1 that completes at tile 0 in cycle 16, and the receive armed for it there. -/
def packet : Packet :=
  { src := 1, issue := 0, k := 1, n := 1, srcRow := 4, readAt := 0, data := some 9, dests := [(0, 16, [])], sig := none, pc := 0, junk := false }
def armed (src : Nat) : Armed :=
  { at_ := 0, xv := BitVec.ofNat 128 src, n := 1, row := 8, done := 0, base := none, key := 0, pc := 0, scale := none, got := [], junk := false }
def landing (ps : List Packet) (as : List Armed) : State :=
  onRegion (withTile (fun x => { x with exch := { x.exch with armed := as } })) (fun g => { g with cycle := 16, packets := ps })
/-- A row `k` of item 2 for tile 0, which has declared one row of it; its free bank cycles have come, or not. -/
def late (k : Nat) (granted : Bool) : State :=
  onRegion (withTile (fun x => { x with
    exch := { x.exch with decls := [decl] }
    reqs := if granted then [{ who := .late 2 k none, steps := [], enters := [] }] else [] })) (fun g => { g with
    inRows := [{ tile := 0, item := 2, k := k, data := 9, sig := none, decl := none, port := 0, dev := 0 }] })

theorem wit_RowsArriveOrFault :
    (landing [packet] []).moving 0 = some 0 ∧
    (((landing [packet] []).region 0).arrivals 0 ((landing [packet] []).region 0).cycle = [packet] ∧ ((landing [packet] []).tile 0).exch.armed = []) ∧
    (((landing [packet] [armed 1]).tile 0).exch.armed = [armed 1] ∧ (armed 1).rowAt 16 = some 1 ∧ (armed 1).done < 1 ∧ (armed 1).takes packet 1 = true ∧
      packet.sig = none) ∧
    ((armed 2).rowAt 16 = some 1 ∧ (armed 2).takes packet 1 = false) ∧
    ((armed 1).done < (armed 1).n ∧ (armed 1).at_ + 16 * ((armed 1).done + 1) ≤ ((landing [] [armed 1]).region 0).cycle ∧
      ((landing [] [armed 1]).region 0).arrivals 0 16 = []) ∧
    ((late 1 false).moving 0 = some 0 ∧ ((late 1 false).tile 0).decl 2 = some decl ∧ decl.dma = false ∧ decl.n ≤ 1) ∧
    (((late 0 false).tile 0).granted (.late 2 0 none) = false ∧ 0 < decl.n) ∧
    (((late 0 true).tile 0).decl 2 = some decl ∧ ((late 0 true).tile 0).granted (.late 2 0 none) = true ∧ xvWiden decl.xv = false ∧
      decl.junk = false ∧ ((late 0 true).tile 0).tm.wf = true) := by decide
theorem wit_MemoryWritesChangeTheirBytesOnly :
    walkMem.bytes.wf = true ∧ (0x1FFFFF ≤ 0x200000 ∧ 0x200000 < 0x1FFFFF + [1#8, 2#8].length) ∧
    0x1FFFFF + [1#8, 2#8].length ≤ 0x200001 := by decide
theorem wit_MarkedPagesReadZero :
    walkMem.bytes.wf = true ∧ pageOf 0x5FA0000010 = 0x2FD00 ∧ pageOf 0x5FA0200000 ≠ 0x2FD00 := by decide
theorem wit_TranslationsAreCached : (walking.translate 0 0x082838204200 kRead).1 = .ok 0x0F00204200 := by decide

/-- A load and a store of tile 0 on row 0, translated or not; `va` is the address, `data` what it has read. -/
def dma (op : DmaOp) (va : Nat) (pas : Option (List Nat)) (data : Option (List Row)) : Dma :=
  { id := 3, op := op, n := 1, row := 0, dr := BitVec.ofNat 128 va, pas := pas, data := data, pc := 0 }
def moving (d : Dma) (m : Mem) : State :=
  { onRegion (withTile (fun x => { x with dmas := [d], sb := [(0, { first := 0, last := 0, write := d.op.writesTile, op := 3 })] }))
      (fun g => { g with mem := { g.mem with root := 0x5FA0000000 } }) with mem := m }

theorem wit_WalksTranslateOrFault :
    (walking.translate 0 0x082838204200 kRead).1 = .ok 0x0F00204200 ∧
    (walking.translate 0 0 kRead).1 ≠ .ok 0 ∧
    (let s := moving (dma .rd 0x082838204200 none none) walkMem
     s.regionOf 0 = some 0 ∧ (s.region 0).brake.halted = false ∧
      (s.tile 0).dmas.find? (fun e => e.id == 3) = some (dma .rd 0x082838204200 none none) ∧
      (translateAll 0 kRead (dma .rd 0x082838204200 none none).vas s).1.2 = none) ∧
    (let s := moving (dma .rd 0 none none) walkMem
     (translateAll 0 kRead (dma .rd 0 none none).vas s).1.2.isSome = true) ∧
    (dma .rd 0 (some [0]) none).pas = some [0] ∧
    ((onRegion base (fun g => { g with brake := { g.brake with halted := true } })).region 0).brake.halted = true := by decide

/-- The device address of page 1 of channel 40, and that channel quarantined. -/
abbrev page1 : Nat := 0x0F00200000
def staleChan (s : State) : State := { s with units := [(3 * 65536 + 40, { UnitRec.reset with quarantined := true })] }

theorem wit_DmasMoveTheirRows :
    let d (op : DmaOp) (data : Option (List Row)) := dma op 0 (some [page1]) data
    let s (op : DmaOp) (data : Option (List Row)) := moving (d op data) Mem.reset
    let q (op : DmaOp) (data : Option (List Row)) := (s op data).modTile 0 (fun x => { x with reqs := [{ who := .dma 3, steps := [], enters := [] }] })
    let v := dropOp 0 3 (q .wr none)
    ((s .rd none).between 0 = some 0 ∧ ((s .rd none).tile 0).dmas.find? (fun e => e.id == 3) = some (d .rd none) ∧
      ((s .rd none).tile 0).earlier (d .rd none) = false ∧ ((s .rd none).region 0).brake.haltFrozen = false ∧
      (d .rd none).staleUnit (s .rd none) = none ∧ (dmaRows (s .rd none).mem [page1]).1 = none) ∧
    ((d .wr (some [9])).staleUnit (staleChan (s .wr (some [9]))) = some (3 + 40 * 256)) ∧
    (dmaRows (Mem.reset.poisonLine (page1 / 64)) [page1]).1 = some page1 ∧
    ((d .wr (some [9])).data = some [9] ∧ (d .wr (some [9])).staleUnit (s .wr (some [9])) = none) ∧
    (((s .zf none).tile 0).earlier (d .zf none) = false) ∧
    (((s .rd (some [9])).tile 0).sb.find 0 = some { first := 0, last := 0, write := true, op := 3 } ∧
      ((s .rd (some [9])).tile 0).opGranted 3 = false) ∧
    (((q .rd (some [9])).tile 0).opGranted 3 = true ∧ ((q .rd (some [9])).tile 0).sb.find 0 = some { first := 0, last := 0, write := true, op := 3 }) ∧
    (((q .wr none).tile 0).sb.find 0 = some { first := 0, last := 0, write := false, op := 3 } ∧ ((q .wr none).tile 0).opGranted 3 = true ∧
      (d .wr none).pas.isSome = true ∧ (captureRows 0 0 (some (.x, 0)) [0] v).1 = (none, [0])) ∧
    (captureRows 0 0 (some (.x, 0)) [0] (v.modTile 0 (fun x => x.upset ⟨0, 3, true⟩))).1.1 = some (0, 3) := by decide
theorem wit_DmasMoveTheirRows_accumulate :
    (accRows 0 false [(page1, 0)] (moving (dma .acc 0 (some [page1]) (some [0])) Mem.reset)).1 = none := by decide
theorem wit_MemoryErrorsAndSweeps :
    let s := moving (dma .rd 0 (some [page1]) none) Mem.reset
    (s.regionOf 0 = some 0 ∧ ((s.tile 0).dmas.find? (fun d => (d.pas.getD []).any (fun pa =>
      decide (pa / 64 ≤ page1 / 64) && decide (page1 / 64 < (pa + 512) / 64)))) = some (dma .rd 0 (some [page1]) none)) ∧
    (chanOf page1).isSome = true ∧ running.chanOwner page1 = some 0 ∧
    ((chanOf 0).isSome = true ∧ running.chanOwner 0 = none) ∧
    (chanOf (0x30000 * 0x200000)).isSome = false ∧ (chanOf (0x6FFFF * 0x200000)).isSome = true ∧
    memUnitNo (.package 15) ∉ running.power.throttled := by decide
theorem wit_UnitsAreComparedAndReloaded :
    let fresh : State := { base with units := [(2 * 65536, { owner := some 0, epoch := 1, quarantined := false })] }
    let held : State := { base with units := [(6 * 65536, { owner := none, epoch := 0, quarantined := true })] }
    let idle := onRegion base (fun g => { g with st := .configured })
    base.claimants 4 7 = [] ∧
    (fresh.claimants 2 0 = [0] ∧ (1 : Word) = (fresh.region 0).epoch ∧ (0 : Word) ≠ (fresh.region 0).epoch) ∧
    (idle.claimants 1 1 = [0] ∧ (63 : RegionId) ≠ 0 ∧ (idle.region 0).st ≠ .granted) ∧
    ((base.region 0).st = .granted ∧ (base.region 0).brake.halted = false ∧ base.claimants 2 0 = [0]) ∧
    (held.claimants 6 0 = [0] ∧ (Tab.get UnitRec.reset held.units (recordKey 6 0 0)).quarantined = true ∧
      (Tab.get UnitRec.reset base.units (recordKey 6 0 0)).quarantined = false) := by decide
theorem wit_TheScrubberWalksAndWritesBack :
    let w : State := { base with hw := [(0, { TileHw.reset with wb := some 5 })] }
    let p (wall pass : Nat) (had : BitVec 4) : State := { base with
      tilesAt := some 3, wall := wall, scrubPass := pass, hw := [(0, { TileHw.reset with window := 1, had := had })] }
    ((p 3 0 0).tilesAt = some 3 ∧ (p 3 0 0).scrubPass * 2 ^ 29 ≤ (p 3 0 0).wall - 3 ∧ (p 4 1 0).wall - 3 < (p 4 1 0).scrubPass * 2 ^ 29) ∧
    base.tilesAt = none ∧ (TileHw.reset.pass ≠ 1 ∧ (191 < 192) ∧ 192 ≤ 192) ∧ (p 1026 1 0).windowOver 0 = false ∧ (767#10).toNat < 768 ∧
    ((p 1027 1 0).windowOver 0 = true ∧ ((p 1027 1 0).tileHw 0).window ≠ 0 ∧ ((p 1027 1 0).tileHw 0).window + 1 = (p 1027 1 0).windowNo) ∧
    ((p 1027 1 0xF).starvedBanks 0 1 = [] ∧ (p 1027 1 0xE).starvedBanks 0 1 = [0]) ∧ (w.tileHw 0).wb = some 5 := by decide

/-- A load descriptor of one tile and `n` blocks under way in slot 0, at the address of `walking`, with its barrier object 0. -/
def codeDesc : LoadDesc := { src := 0x082838204200, col := 0, nc := 1, row := 0, nr := 1, block0 := 0, nblk := 2, obj := 0, start := false }
def coding (left : List (Nat × TileId)) (r : Run) : State :=
  { onRegion walking (fun g => { g with running := [(0, { desc := codeDesc, left := left, again := false })] }) with
    tiles := [(0, { Tile.reset with ctl := { Ctl.reset with run := r } })] }

theorem wit_CodeBlocksAreDelivered :
    let s := coding [(0, 0), (1, 0)] .entryHold
    let z := coding [(1, 0)] (.waitBar 0)
    let x := coding [(1, 0)] .running
    ((s.region 0).running.find 0 = some { desc := codeDesc, left := [(0, 0), (1, 0)], again := false } ∧ (s.region 0).brake.haltFrozen = false ∧
      (s.engineWalk 0 0x082838204200 kRead).1 = some 0x0F00204200 ∧ s.mem.poisonedAt 0x0F00204200 512 = none ∧ s.staleAt 0x0F00204200 = none ∧
      (s.tile 0).takesCode codeDesc.obj = true) ∧
    ((z.engineWalk 0 (0x082838204200 + 512) kRead).1 = some 0x0F00204400 ∧ (z.tile 0).takesCode codeDesc.obj = true) ∧
    (x.tile 0).takesCode codeDesc.obj = false := by decide

/-- Tile 0 at cycle `n` with a pass, or a drain, a job or an asynchronous job in flight. -/
def onePass : Pass :=
  { md := passDesc, bank := false, init := true, first := 0, cycles := 4, pc := 0, passNo := 0, got := [], issue := 0, junk := false }
def setup : JobSetup := jobSetup ((vecTile.opened 0 0).site 0 .v 0 (word 0x04 0)) 0 (vecTile.opened 0 0)
def job : Job := setup.begin_ 0 1
def chain : Drain := { job := job, at_ := 0, bank := false, mode := 0, rows := [], audit := false, col := 0, noted := false }
def asyncJob (base : Nat) : AsyncJob := { setup := { setup with in0 := vecDesc + BitVec.ofNat 256 base }, op := 0, need := 0, vcq := [] }
def busyTile (n : Nat) (f : Tile → Tile) : State := onRegion (withTile f) (fun g => { g with cycle := n })

theorem wit_PassesDrainsAndJobsComplete :
    let p (n : Nat) := busyTile n (fun x => { x with matrix := { x.matrix with passes := [onePass] } })
    let d (n : Nat) := busyTile n (fun x => { x with matrix := { x.matrix with drains := [chain] } })
    let j (n : Nat) := busyTile n (fun x => { x with vec := { x.vec with jobs := [job] } })
    ((p 67).regionOf 0 = some 0 ∧ ((p 67).region 0).frozen = false ∧ ((p 67).tile 0).matrix.passes = [onePass] ∧
      gearRows (((p 67).region 0).gear 0) = 32 ∧ 67 < onePass.first + onePass.cycles + 32 + 32 ∧
      onePass.first + onePass.cycles + 32 + 32 ≤ ((p 68).region 0).cycle) ∧
    ((p 0).moving 0 = some 0 ∧ (d 0).moving 0 = some 0 ∧ (j 0).moving 0 = some 0) ∧ chain.noted = false ∧
    (((d 0).region 0).cycle < chain.job.ends ∧ chain.job.ends ≤ ((d 9).region 0).cycle) ∧ (job.ends ≤ ((j 9).region 0).cycle) := by decide
theorem wit_PassesDrainsAndJobsComplete_async :
    let a (base : Nat) (steps : List FreeStep) := busyTile 9 (fun x => { x with
      vec := { x.vec with asyncs := [asyncJob base] }, reqs := [{ who := .async 0, steps := steps, enters := [] }] })
    ((a 0 []).moving 0 = some 0 ∧ ((a 0 []).tile 0).vec.asyncs[0]? = some (asyncJob 0) ∧ ((a 0 []).tile 0).granted (.async 0) = true ∧
      (asyncRun 0 0 (asyncJob 0) (a 0 [])).2.1 = none) ∧
    ((a 0 [.use 0]).tile 0).granted (.async 0) = false ∧ (asyncRun 0 0 (asyncJob 900) (a 900 [])).2.1 = some (fBadRow, 900) := by decide

/-- `base` with port 0 as `f` makes it of one that is UP on four lanes, at beat `n`. -/
def linkUp : Port := { Port.reset with st := .up, lanesOk := 0xF }
def onPort (n : Nat) (f : Port → Port) : State := { base with ports := [(0, f linkUp)], beats := n }

theorem wit_FlitsDecodeAsBuilt : tData < 4 ∧ 255 < 256 ∧ 4095 < 4096 ∧ 65535 < 65536 ∧ 2 ^ 1952 - 1 < 2 ^ 1952 ∧ 7 < 8 := by decide
theorem wit_SlotsSendTheirFlit :
    let shares : State := { onPort 0 (fun x => { x with slot := 1, lanes := [(0, { LaneSt.reset with part := List.replicate 244 1#8 })] }) with
      frame := { base.frame with vlShare := [1] } }
    let held : State := onRegion (onPort 0 (fun x => { x with slot := 1, lanes := [(0, { LaneSt.reset with part := [1], row := true })] }))
      (fun g => { g with brake := { g.brake with frozen := true } })
    (base.port 0).running = false ∧ (((onPort 0 id).port 0).running = true ∧ ((onPort 0 id).port 0).slot = 0) ∧
    (((onPort 0 (fun x => { x with slot := 64, resend := [(5, 0)] })).port 0).resend = [(5, 0)]) ∧
    (((onPort 0 (fun x => { x with slot := 64, buf := List.replicate 512 (0, 0) })).port 0).buf.length = 512) ∧
    (((onPort 0 (fun x => { x with slot := 1, st := .hold, buf := List.replicate 511 (0, 0) })).port 0).buf.length < 512 ∧
      ((onPort 0 (fun x => { x with slot := 1, st := .hold })).port 0).st ≠ .up) ∧
    ((shares.port 0).st = .up ∧ shares.resets.warm = false ∧ (shares.port 0).resend = [] ∧
      slotLane ((shares.frame.vlShare.drop 0).take 8) ((shares.port 0).slot - 1) 0 8 = some 0 ∧ 244 ≤ ((shares.port 0).lane 0).part.length ∧
      shares.partHeld 0 0 = false) ∧
    (held.partHeld 0 0 = true ∧ ((held.port 0).lane 0).part ≠ []) := by
  decide +kernel
/-- `linkUp` after a flit whose codeword had no wrong symbol, and one whose first codeword had sixteen. -/
def clear : Port := (linkUp.takeFec [] 0).2
def wrong (n : Nat) : List Sym := (List.range n).map (fun k => BitVec.ofNat 10 k)

theorem wit_FlitsAreCheckedOnReceipt :
    let s := onPort 0 id
    ((s.port 0).takeFec [] 0).1 = false ∧ ((s.port 0).takeFec (wrong 16) 0).1 = true ∧
    (base.port 0).running = false ∧ (s.port 0).running = true ∧
    (flGood tIdle (mkFlit tIdle 0 0 0 0) false = true ∧ flSeq (mkFlit tIdle 0 0 0 0) = (takeAck (mkFlit tIdle 0 0 0 0) 0 clear).rxSeq) ∧
    flGood tIdle (mkFlit tIdle 0 0 0 0) true = false ∧ flGood tData (mkFlit tIdle 0 0 0 0) false = false ∧
    flGood tHold (mkFlit tData 0 0 0 0) false = false ∧ flGood tCtrl (mkFlit tData 0 0 0 0) false = false := by decide +kernel
theorem wit_FlitsAreCheckedOnReceipt_kinds :
    let d := mkFlit tData 1 0 0 5
    (flGood tData d false = true ∧ flSeq d = (takeAck d 0 clear).rxSeq) ∧
    (flGood tIdle (mkFlit tIdle 0 1 0 0) false = true ∧ flSeq (mkFlit tIdle 0 1 0 0) ≠ (takeAck (mkFlit tIdle 0 1 0 0) 0 clear).rxSeq) ∧
    flGood tHold (mkFlit tHold 0 0 0 0) false = true ∧
    (flGood tCtrl (mkFlit tCtrl 0 0 0 0) false = true ∧ Word.bit (mkFlit tCtrl 0 0 0 0) 320 = false ∧ base.frame.source ≠ 1) := by decide +kernel
theorem wit_AcknowledgementsReleaseFlits :
    flNak (mkFlit tIdle 0 0 7 0) = false ∧ (flNak (mkFlit tIdle 0 0 (32768 + 7) 0) = true ∧ linkUp.resend = [] ∧ linkUp.nakSeq ≠ some 7) ∧
    ({ linkUp with nakSeq := some 7 } : Port).nakSeq = some (flAck (mkFlit tIdle 0 0 (32768 + 7) 0)) := by decide +kernel
theorem wit_CodewordsAreSentAndCorrected :
    let x (pos : Nat) (bad : BitVec 2) : Port := { linkUp with rxPos := pos, cwBad := bad }
    ({ linkUp with txPair := List.replicate 3 0 } : Port).txPair.length < 4 ∧ ({ linkUp with txPair := List.replicate 4 0 } : Port).txPair.length = 4 ∧
    (errPositions (wrong 15)).length = 15 ∧ 15 < (errPositions (wrong 16)).length ∧ (x 0 0).rxPos = 0 ∧ (x 2 1).rxPos = 2 ∧
    ((x 1 1).rxPos ≠ 0 ∧ (x 1 1).rxPos ≠ 2) ∧ ((x 4 2).rxPos ≠ 0 ∧ (x 4 2).rxPos ≠ 2) ∧
    ((x 0 0).takeFec (wrong 15) 0).2.fecCe = 15 ∧ ((x 2 1).takeFec (wrong 16) 0).2.fecUe = 1 := by decide +kernel
theorem wit_LinkFaultsRetrainOrFail :
    let n := onPort 0 (fun x => { x with nakCount := 8 })
    let r := onPort 250 (fun x => { x with replayAt := some 0 })
    let t (b : Nat) := onPort b (fun x => { x with st := .training, full := true })
    let e (n : Nat) : List (Nat × BitVec 4) := (List.replicate n (0, 0x8)).filter (fun q => decide (1023 < q.1 + 1024) && q.2.getLsbD 3)
    (16 < (e 17).length ∧ (e 16).length ≤ 16) ∧
    ((n.port 0).running = true ∧ 8 ≤ (n.port 0).nakCount) ∧ ((r.port 0).replayAt = some 0 ∧ 0 + 250 ≤ r.beats) ∧
    (((onPort 0 id).port 0).nakCount < 8 ∧ ((onPort 0 id).port 0).replayAt = none) ∧
    ((((onPort 0 id).port 0).lanesOk).getLsbD 3 = true ∧ 2 ≤ popCount (((onPort 0 id).port 0).lanesOk &&& ~~~(1#4 <<< 3)).toNat 4) ∧
    (popCount (((onPort 0 (fun x => { x with lanesOk := 0x3 })).port 0).lanesOk &&& ~~~(1#4 <<< 0)).toNat 4 < 2) ∧
    (((t 3750).port 0).st = .training ∧ ((t 3750).port 0).full = true ∧ popCount (0xF#4 &&& ~~~(0x7#4)).toNat 4 < 2 ∧
      ((t 3750).port 0).trainAt + 3750 ≤ (t 3750).beats ∧ (t 3749).beats < ((t 3749).port 0).trainAt + 3750) ∧
    (((onPort 4096 id).port 0).lastHello + 4096 ≤ (onPort 4096 id).beats ∧ (onPort 4095 id).beats < ((onPort 4095 id).port 0).lastHello + 4096) := by
  decide
theorem wit_FailedPortsAreEmptied : (base.region 0).lane 0 = some 0 := by decide

/-- A transaction of code `c`, flags `f`, sender 0, `n` bytes of data and arguments `a`; `received` has it as the oldest of lane 0 of port 0. -/
def txn (c f n a : Nat) : Txn := { hdr := BitVec.ofNat 128 (c + (f <<< 8) + (n <<< 48) + (a <<< 64)), data := List.replicate n 1 }
def received (s : State) (t : Txn) : State := { s with ports := [(0, { linkUp with lanes := [(0, { LaneSt.reset with rxq := [t] })] })] }

/-- A walk ended in a fault. -/
def faulted : Walked → Bool
  | .fault _ _ => true
  | _ => false

theorem wit_TransactionsActOnTheirRegion :
    let s (c f n a : Nat) := received walking (txn c f n a)
    let obj (x : SyncObj) : State := { received base (txn 5 0 0 (7 <<< 32)) with objs := [(0, x)] }
    let bar : SyncObj := { SyncObj.reset with bar := true, value := 1, children := List.replicate 15 { port := 0, dev := 0, obj := 0 } }
    let waits : State := onRegion (withTile (fun x => { x with exch := { x.exch with decls := [decl] } })) (fun g => { g with
      inRows := [{ tile := 0, item := 2, k := 0, data := 9, sig := none, decl := none, port := 0, dev := 0 }] })
    let bad : State := { received base (txn 1 0 512 0) with units := [(6 * 65536, { UnitRec.reset with quarantined := true })] }
    (received waits (txn 4 0 0 0)).laneWaits 0 0 = true ∧ (s 1 0 512 0).laneWaits 0 0 = false ∧ (obj bar).laneWaits 0 0 = false ∧
    bad.stale 6 (laneUnit 0 0) = true ∧ (obj bar).stale 2 0 = false ∧
    ({ obj bar with units := [(2 * 65536, { UnitRec.reset with quarantined := true })] } : State).stale 2 0 = true ∧
    ((s 1 0 512 0).port 0 |>.lane 0).rxq = [txn 1 0 512 0] ∧
    (received { base with regions := [] } (txn 1 0 512 0)).admits 0 0 (txn 1 0 512 0) = none ∧
    (received (onRegion base (fun g => { g with brake := { g.brake with halted := true } })) (txn 8 0 0 0)).admits 0 0 (txn 8 0 0 0) = none ∧
    ((s 1 0 512 0).admits 0 0 (txn 1 0 512 0) = some 0 ∧ (s 1 0 512 0).regionOf (BitVec.ofNat 13 ((txn 1 0 512 0).arg 0 13)) = some 0) ∧
    (((txn 2 0 64 0x082838204200).arg 0 48 / 64 * 64) = 0x082838204200 ∧ 0x082838204200 % 0x200000 + (txn 2 0 64 0).len ≤ 0x200000 ∧
      ((popTxn 0 0 (s 2 0 64 0x082838204200)).translate 0 0x082838204200 kWrite).1 = .ok 0x0F00204200 ∧
      ((popTxn 0 0 (s 2 0 64 0x082838204200)).translate 0 0x082838204200 kWrite).2.staleAt 0x0F00204200 = none) ∧
    ((txn 2 0 512 (0x1FFE00)).arg 0 48 % 0x200000 + (txn 2 0 512 0).len = 0x200000) ∧
    (((popTxn 0 0 (s 3 1 64 0x082838204200)).translate 0 0x082838204200 kAcc).1 = .ok 0x0F00204200 ∧
      (((popTxn 0 0 (s 3 1 64 0x082838204200)).translate 0 0x082838204200 kAcc).2.accumulate 0 true 0x0F00204200 (List.replicate 64 1)).1 = none) ∧
    faulted ((popTxn 0 0 (s 2 0 64 0)).translate 0 0 kWrite).1 = true ∧
    (s 4 0 0 0).admits 0 0 (txn 4 0 0 0) = some 0 ∧ ((received base (txn 5 0 0 256)).region 0).ownsObj 256 = false ∧
    ((base.region 0).ownsObj 0 = true ∧ (txn 5 0 0 (7 <<< 32)).arg 32 32 ≠ (base.region 0).tag.toNat) ∧
    ((txn 5 0 0 0).arg 32 32 = (base.region 0).tag.toNat ∧ arriveRefused 0 0 (obj bar) = false ∧ ((obj bar).obj 0).children.length < 16 ∧
      ((obj bar).obj 0).bar = true) := by decide +kernel

/-- A move of the derailleur: table `tid`, round 0, offset 64 `off`, `n` bytes. `deraily` has it as the oldest of its lane, the derailleur
of region 0 running table 5 with a window of 128 bytes at page 0 of channel 40, at beat `b`. -/
def move (f n tid off : Nat) : Txn := txn 9 f n (off + (tid <<< 48))
def deraily (b : Nat) (t : Txn) : State := { received (onRegion base (fun g => { g with
  drl := { g.drl with st := .running, tid := 5, scrBase := 0x0F00000000, scrSize := 128 } })) t with beats := b }

theorem wit_DerailleurMovesLand :
    let d := ((deraily 0 (move 0 64 5 1)).region 0).drl
    ((deraily 0 (move 0 64 5 1)).laneWaits 0 0 = false ∧ (deraily 0 (move 0 64 5 1)).admits 0 0 (move 0 64 5 1) = some 0 ∧ (move 0 64 5 1).code = 9 ∧ (move 0 64 5 1).flags.testBit 1 = false) ∧
    (move 0 64 4 1).flags.testBit 0 = false ∧ d.strange (move 0 64 4 1) = true ∧
    (d.strange (move 0 64 5 2) = false ∧ d.scrSize < (move 0 64 5 2).arg 0 32 * 64 + (move 0 64 5 2).len) ∧
    (d.strange (move 0 64 5 1) = false ∧ (move 0 64 5 1).arg 0 32 * 64 + (move 0 64 5 1).len = d.scrSize ∧ (move 0 64 5 1).len = 64) ∧
    ((move 1 0 4 0).flags.testBit 0 = true ∧ d.strange (move 1 0 4 0) = true ∧ d.strange (move 1 0 5 0) = false) ∧
    (d.st = .running ∧ d.since + 125000000 ≤ (deraily 125000000 (move 0 64 5 1)).beats ∧
      (deraily 124999999 (move 0 64 5 1)).beats < d.since + 125000000) := by decide

/-- Region 0 with its freewheel configured for tandem device 0 by port 0, in state `st`, with restore `q`. -/
def wheeling (q : Option Restore) : State := onRegion base (fun g => { g with
  fw := { g.fw with conf := true, tandem := 0, ports := 1, limit := 125000, st := .idle, restore := q } })
def restore : Restore :=
  { fn := .pf, target := 1, remirror := false, adopt := false, wait := [0], silent := [0], done := [], left := [(0, 64)], since := 0 }

theorem wit_FreewheelMovesLand :
    let t (f : Nat) := txn 9 f 64 0
    let s (f : Nat) := received (wheeling none) (t f)
    ((s 2).laneWaits 0 0 = false ∧ (s 2).admits 0 0 (t 2) = some 0 ∧ (t 2).code = 9 ∧ (t 2).flags.testBit 1 = true ∧ (t 63).flags < 64) ∧
    (((received base (t 2)).region 0).takesMove 0 (t 2) = false ∧ moveKind (t 2).flags = .mirrorData) ∧
    (((received base (t 18)).region 0).takesMove 0 (t 18) = false ∧ moveKind (t 18).flags = .restoreRequest) ∧
    (((s 2).region 0).takesMove 0 (t 2) = true ∧ (t 2).dataOk = true) ∧
    ((txn 9 2 64 1).dataOk = true ∧ (txn 9 2 64 (0x60000000 / 64)).dataOk = false ∧ (txn 9 2 64 (0x60000000 / 64 - 1)).dataOk = true) ∧
    (moveKind (t 3).flags = .mirrorDone ∧ moveKind (t 6).flags = .mirrorAck ∧ moveKind (t 10).flags = .restoreData ∧
      moveKind (t 11).flags = .restoreDone ∧ moveKind (t 50).flags = .restoreRefuse ∧ ((s 50).region 0).takesMove 0 (t 50) = true) ∧
    ((received (wheeling (some restore)) (t 50)).region 0).fw.restore.isSome = true ∧ ((s 50).region 0).fw.restore = none ∧
    (((wheeling (some restore)).region 0).fw.restore = some restore ∧ restore.silent ≠ [] ∧
      restore.since + 1250000 ≤ ({ wheeling (some restore) with beats := 1250000 } : State).beats ∧
      ({ wheeling (some restore) with beats := 1249999 } : State).beats < restore.since + 1250000) := by decide

/-- A shard block of SGD on 16 FP32, not emitted, of LPDDR channel 0 with its gradient at `va`; `shards` has it armed in region 0, the update unit and
the freewheel as `f` makes them. -/
def shard (va : Nat) : BitVec 1024 := BitVec.ofNat 1024 ((4 <<< 8) + (1 <<< 15) + (16 <<< 64) + (va <<< 256) + (va <<< 320))
def shards (va : Nat) (f : Region → Region) : State := onRegion walking (fun g => f { g with
  upd := { g.upd with armed := true, blocks := [shard va], step := 2 },
  fw := { g.fw with conf := true, st := .idle, commitValid := true, commitStep := 0, limit := 125000 } })

theorem wit_UpdateStepsRun :
    let w (met : Bool) := shards 0 (fun g => { g with upd := { g.upd with phase := .waitStart, startMet := met } })
    let d := shards 0 (fun g => { g with upd := { g.upd with phase := .waitStart, startMet := true }, drl := { g.drl with st := .running } })
    let c := shards 0 (fun g => { g with upd := { g.upd with phase := .waitStart, startMet := true, step := 4 } })
    let r (va : Nat) := shards va (fun g => { g with upd := { g.upd with phase := .running } })
    let x := shards 0 (fun g => { g with upd := { g.upd with phase := .running }, exp := { g.exp with want := [(0, 0)] } })
    (((w true).region 0).st = .granted ∧ ((w true).region 0).brake.halted = false ∧ ((w true).region 0).upd.phase = .waitStart ∧
      ((w true).region 0).upd.startMet = true ∧ ((w true).region 0).drl.st ≠ .running ∧ ((w true).region 0).commitMet = true) ∧
    ((d.region 0).drl.st = .running ∧ (c.region 0).commitMet = false) ∧ ((w false).region 0).upd.startMet = false ∧
    (x.region 0).exportHolds = true ∧
    (((r 0).region 0).upd.phase = .running ∧ ((r 0).region 0).exportHolds = false ∧
      (overBlocks (updShard 0 ((r 0).region 0).upd.step.toNat) ((r 0).region 0).upd.blocks.zipIdx (r 0)).1.isSome = true) ∧
    (overBlocks (updShard 0 2) ((r 0x082838204200).region 0).upd.blocks.zipIdx (r 0x082838204200)).1 = none := by decide +kernel
theorem wit_MirrorsBeginAndStall :
    let m := shards 0 id
    let re := shards 0 (fun g => { g with fw := { g.fw with remirror := true, commitStep := 1 } })
    let st (b : Nat) : State := { shards 0 (fun g => { g with fw := { g.fw with st := .mirroring, startBeat := some 0 } }) with beats := b }
    ((m.region 0).fwReady = true ∧ (m.region 0).fw.remirror = false ∧ (m.region 0).fw.commitValid = true ∧
      (m.region 0).fw.commitStep = (m.region 0).upd.step - 2) ∧
    ((re.region 0).fwReady = true ∧ (re.region 0).fw.remirror = true ∧ (re.region 0).upd.armed = true ∧
      (re.region 0).fw.commitStep = (re.region 0).upd.step - 1) ∧
    (base.region 0).fwReady = false ∧
    (((st 125000).region 0).fw.startBeat = some 0 ∧ ((st 125000).region 0).fw.st = .mirroring ∧ ((st 125000).region 0).fw.stalled = false ∧
      0 + ((st 125000).region 0).fw.limit ≤ (st 125000).beats ∧ (st 124999).beats < 0 + ((st 124999).region 0).fw.limit) := by decide

/-- Region 0 with an export as `f` makes it: a ring in a buffer of the physical function, and a map at the address of `walking` that gives
the one shard as 16 elements. -/
def exporting (f : Exp → Exp) : State :=
  let s := shards 0 (fun g => { g with exp := f { g.exp with fn := .pf, slot := 0, gen := 0, mapVa := 0x082838204200, size := 4096 } })
  { s.setBuffer 0 0 { used := true, gen := 0, iova := 0, len := 4096 } with
    mem := s.mem.write 0x0F00204200 (leBytes 128 ((1 <<< 64) + (16 <<< 512))) }

/-- The bytes read, if they were. -/
def got : Except Trouble (List Byte) → Option (List Byte)
  | .ok b => some b
  | .error _ => none

theorem wit_ExportsWriteTheirRecords :
    let s := exporting (fun x => { x with want := [(0, 0), (1, 0)] })
    let taken (s : State) : State := s.setRegion 0 { s.region 0 with exp := { (s.region 0).exp with want := [(1, 0)] } }
    let a : State := taken s
    let freed (u : State) : State := u.setBuffer 0 0 { used := false, gen := 1, iova := 0, len := 4096 }
    let lost := exporting (fun x => { x with want := [(0, 0), (1, 0)], mapVa := 0 })
    let run (left : List (Nat × Nat)) (tail : Word) := exporting (fun x => { x with running := true, left := left, tail := tail })
    let legal (u : State) := (got (u.readVa 0 0x082838204200 128).1).map (fun b =>
      ((u.region 0).upd.blocks.zip (cutBlocks 1 b)).all (fun q => mapLegal q.1 q.2))
    let rec_ (r : State) := (recordHeader r 0 0 0 (List.replicate 64 0) ++ List.replicate 64 0 ++ List.replicate 0 0).length
    ((s.region 0).brake.halted = false ∧ (s.region 0).exp.want = [(0, 0), (1, 0)] ∧ (s.region 0).exp.running = false ∧
      s.ringHeld (s.region 0).exp = true ∧ legal a = some true) ∧
    ((freed s).ringHeld ((freed s).region 0).exp = false ∧ (freed (run [(0, 0)] 0)).ringHeld ((run [(0, 0)] 0).region 0).exp = false ∧
      (run [(0, 0)] 0).ringHeld ((run [(0, 0)] 0).region 0).exp = true) ∧
    (lost.ringHeld (lost.region 0).exp = true ∧ got ((taken lost).readVa 0 0 128).1 = none) ∧
    legal { a with mem := a.mem.write 0x0F00204248 [1] } = some false ∧
    (((run [(0, 0)] 0).region 0).exp.running = true ∧ ((run [(0, 0)] 0).region 0).exp.left = [(0, 0)] ∧ (0 : Nat) ≠ 7 ∧
      got ((run [(0, 0)] 0).readPa (quarterBase (blkChan (shard 0)) 1 + blkArrayOff (shard 0) 0) 64) = some (List.replicate 64 0)) ∧
    (((4096 + 0 - (1 : Word).toNat % 4096) % 4096 = 4095 ∧ 4096 < 4095 + rec_ (run [(0, 0)] 1)) ∧
      (4096 + 0 - 0 % 4096) % 4096 + rec_ (run [(0, 0)] 0) ≤ 4096) ∧
    (((run [] 0).region 0).exp.running = true ∧ ((run [] 0).region 0).exp.left = []) := by decide +kernel

theorem wit_BeatsAreCounted :
    ({ base with wall := 9 } : State).wall < base.beatAt + (10 - base.power.cur.toNat) ∧
    base.beatAt + (10 - base.power.cur.toNat) ≤ ({ base with wall := 10 } : State).wall ∧ base.cadStopped = false ∧
    ({ base with resets := { base.resets with plan := [2, 8] } } : State).hubRuns = false ∧ base.hubRuns = true ∧
    ({ base with cad := { base.cad with beat := 0xFFFFFFFFFFFF } } : State).hubRuns = true ∧
    (({ base with ports := [(0, linkUp)] } : State).ports.find 0 = some linkUp) := by decide

/-- `base` with the cadence as `f` makes it. -/
def paced (f : Cadence → Cadence) : State := { base with cad := f base.cad }

theorem wit_TheCadenceLoadsAndHolds :
    let l (n : Nat) : State := { paced (fun c => { c with pending := [(1024, 0, 4), (2048, 0, 5)], edges := n }) with beats := 5 }
    ((l 17).cad.pending = [] ++ (1024, 0, 4) :: [(2048, 0, 5)] ∧ 4 < (l 17).beats ∧
      (∀ q ∈ [((2048 : BitVec 48), (0 : BitVec 16), 5)], (l 17).beats ≤ q.2.2) ∧ (l 17).cadStopped = false ∧
      (l 17).frame.loaded = true ∧ (l 17).frame.source ≠ 1 ∧ 17 ≤ (l 17).cad.edges ∧ (l 16).cad.edges < 17) ∧
    (∀ q ∈ base.cad.pending, base.beats ≤ q.2.2) ∧ base.cad.holdover = false ∧ (paced (fun c => { c with locked := true })).cad.locked = true ∧
    base.cad.locked = false ∧ (paced (fun c => { c with holdover := true })).cad.holdover = true ∧
    (4096#48).toNat ≤ 4096 ∧ 4096 < (4097#48).toNat := by decide
theorem wit_ThePowerManagerDecides :
    let w : State := { base with power := { base.power with window := 1 } }
    let k (b : BitVec 48) : State := { paced (fun c => { c with beat := b }) with power := { base.power with change := some 1 } }
    let e (b : BitVec 48) : State := { paced (fun c => { c with beat := b }) with power := { base.power with pend := some (2, 500, 0) } }
    base.power.window = 0 ∧ (w.power.window ≠ 0 ∧ w.power.skip = false) ∧ ({ w.power with skip := true } : Power).skip = true ∧
    ((k 128).power.change = some 1 ∧ (k 128).power.skip = false ∧ (k 128).power.window = 0 ∧ 128 ≤ (k 128).cad.beat.toNat % 1024 ∧
      (k 127).cad.beat.toNat % 1024 < 128) ∧
    ((e 500).power.pend = some (2, 500, 0) ∧ 0 ≤ bdiff (e 500).cad.beat 500 ∧ bdiff (e 499).cad.beat 500 < 0) := by decide
/-- A hot, overdrawn window at step 1: the decision is a change. -/
theorem wit_TheDecisionStaysInItsLimits :
    let s (now : BitVec 12) : State := { base with power := { base.power with cur := 1, now := now, cap := 1900 } }
    ((s 0).power.change = none ∧ (s 0).floorL ≤ (s 0).power.cur.toNat ∧ (s 0).power.cur.toNat ≤ (s 0).floorF) ∧
    (powerDecide (s 0)).power.change = some 0 ∧ (powerDecide (s 2000)).power.change = some 2 ∧
    ((s 0).region 0).brake.duty ≤ 15 := by decide
theorem wit_RegulatorsAndParityAreReported :
    let bad : State := { base with power := { base.power with vrBad := 16, vrAlert := true } }
    let h (g : Option RegionId) (p : Option PortId) (loc : Word) : ParityHit := { region := g, tile := none, port := p, loc := loc }
    let stood : State := { base with parity := [h (some 0) none 0x110] }
    (4#3).toNat ≤ 4 ∧ bad.power.vrBad.getLsbD (4#3).toNat = true ∧ base.power.vrBad.getLsbD (4#3).toNat = false ∧
    bad.power.vrAlert = true ∧ base.power.vrAlert = false ∧ base.hubRuns = true ∧ (base.region 0).st = .granted ∧
    (base.parity = [] ∧ (base.region 0).halting = false ∧ base.parityLegal (h (some 0) none 0x110) = true ∧
      base.parityLegal (h (some 0) none 0x100) = false) ∧
    (base.parityLegal (h none none (parityAt 4 0x2020)) = true ∧ hitPort (h none none (parityAt 4 0x2020)) = none) ∧
    (base.parityLegal (h none none (parityAt 5 99)) = true ∧ hitPort (h none none (parityAt 5 99)) = some 11 ∧
      hitPort (h none (some 11) (parityAt 5 1)) = some 11 ∧ hitPort (h none none (parityAt 5 3)) = none ∧
      base.parityLegal (h none none (parityAt 5 100)) = false) ∧
    (stood.parity = [h (some 0) none 0x110] ∧ (stood.region 0).st = .granted ∧ (stood.region 0).halting = false) := by decide

/-- `base` with the reset controller as `f` makes it. -/
def inReset (f : Resets → Resets) : State := { base with resets := f base.resets }

theorem wit_PowerOnClearsTheDevice :
    State.reset.resets.pwrgood = false ∧ State.reset.resets.backupOk = false ∧ base.resets.pwrgood = true ∧
    base.fuses.pulse = none ∧ base.fuses.revokePulse = none ∧
    ((inReset (fun x => { x with pwrgood := false, backupOk := true })).resets.pwrgood = false ∧
      (inReset (fun x => { x with pwrgood := false, backupOk := true })).resets.backupOk = true) := by decide
theorem wit_ResetsAreTakenByTheirKind :
    let p : State := { base with fuses := { base.fuses with pulse := some (.pf, 0) } }
    let w := inReset (fun x => { x with source := some .cmdCold })
    let k (b : Nat) : State := { inReset (fun x => { x with cmd := [(.cmdWarm, 0)] }) with beats := b }
    (base.resets.pwrgood = true ∧ base.pulsing = false ∧ base.absorbs .coldPin = false ∧ base.absorbs .warmPin = false ∧
      base.absorbs .perst = false ∧ base.hub.fwState = 2 ∧ base.absorbs .watchdog = false ∧ base.absorbs .thermal = false) ∧
    99 < 100 ∧ (100 ≤ 100 ∧ 999 < 1000) ∧ 1000 ≤ 1000 ∧ w.absorbs .thermal = false ∧
    (inReset (fun x => { x with source := some .powerOn, plan := [8] })).absorbs .thermal = true ∧ (p.resets.pwrgood = true ∧ p.pulsing = true) ∧ w.absorbs .perst = true ∧
    (∀ r : RegionId, (base.region r).drl.st ≠ .running) ∧
    ((k 1250).resets.cmd = [(.cmdWarm, 0)] ∧ 0 + 1250 ≤ (k 1250).beats ∧ (k 1249).beats < 0 + 1250) ∧
    (inReset (fun x => { x with thermHold := true })).resets.thermHold = true := by decide
theorem wit_TheReleaseOrderEndsInReady :
    let s (plan : List Nat) (straps : BitVec 4) (dies : Nat) := inReset (fun x => { x with plan := plan, straps := straps, dies := dies })
    ((inReset (fun x => { x with thermHold := true, plan := [2, 8] })).resets.plan = [2, 8] ∧
      (inReset (fun x => { x with thermHold := true })).resets.thermHold = true) ∧
    ((s [3, 4] 0 0).resets.plan = [3, 4] ∧ (s [3, 4] 0 0).resets.thermHold = false ∧ (s [3, 4] 0 0).resets.straps.getLsbD 3 = false ∧
      (s [3, 4] 8 0).resets.straps.getLsbD 3 = true) ∧
    ((s [5, 6] 0 2).resets.plan = [5, 6] ∧ (s [5, 6] 0 2).resets.dies < 3) ∧ (s [8] 0 0).resets.plan = [8] ∧
    ((s [1, 2, 3] 0 0).resets.plan = [1, 2, 3] ∧ (s [7, 8] 0 0).resets.plan = [7, 8] ∧ [8] ≠ ([] : List Nat)) := by decide
theorem wit_FusePulsesEnd : base.resets.heldFlr = [] ∧
    ({ base.fuses with pulse := some (.pf, 127) } : Fuses).pulse = some (.pf, 127) ∧
    ({ base.fuses with revokePulse := some (.pf, 3) } : Fuses).revokePulse = some (.pf, 3) ∧ base.resets.held = [] := by decide
theorem wit_RailsLoseWhatTheyFeed :
    let s : State := { base with fuses := { base.fuses with used := (List.range 4).map (fun d => (d, 0xFFFFFFFF)) } }
    State.reset.resets.pwrgood = false ∧ s.resets.pwrgood = true ∧ s.columns ≤ 128 ∧ s.dieOf (colOf 0) ≠ (3#2).toNat ∧
    ((onPort 0 id).port 0).st ≠ .down := by decide

/-- An argument block of little-endian fields: offset and value. -/
def args (l : List (Nat × Nat)) : ArgBlock := BitVec.ofNat 512 (l.foldl (fun x e => x + (e.2 <<< (8 * e.1))) 0)
/-- The doorbell's shared checks pass. -/
def takes (s : State) (scope : Scope) (named : List (Nat × Nat)) (fn : Fn) (a : ArgBlock) : Bool := decide (Accepts s scope named fn 0 a)
/-- `base` with region 0 in state `st`, and with the mailbox of `f` holding command `op` on arguments `a` since beat 0. -/
def inState (st : RState) : State := onRegion base (fun g => { g with st := st })
def called (f op : Nat) (a : ArgBlock) : State := base.modMail f (fun m => { m with busy := true, curOp := BitVec.ofNat 8 op, curArgs := a })

theorem wit_DoorbellsAreCheckedInOrder :
    State.reset.resets.ready = false ∧ ({ base with hub := { base.hub with vfEnable := false } } : State).vfOn 5 = false ∧
    (base.resets.ready = true ∧ (∀ n, Fn.vf 63 = .vf n → base.vfOn n = true)) ∧ ((called 64 0x0C 0).mail (fnNo (.vf 63))).busy = true ∧
    ((base.mail 64).busy = false ∧ base.hub.fwState = 2) ∧ ({ base with hub := Hub.reset } : State).hub.fwState ≠ 2 ∧
    (base.region 63).st ≠ .granted ∧ blkZero (args [(63, 1)]) [(0, 63)] = false ∧
    takes base .d [] .pf 0 = true ∧ takes base .r [(0, 64)] .pf (args [(63, 1)]) = true ∧ takes base .f [] (.vf 0) 0 = true := by decide
theorem wit_CommandsComplete : ((called 0 0x0E 0).mail 0).busy = true ∧ ((called 1 0x0E 0).mail 1).busy = true ∧
    1 = 1 + (0 : RegionId).toNat := by decide
theorem wit_DeviceSetupCommands :
    let load : ArgBlock := args [(0, 0xFF000000), (8, 0), (16, 256)]
    let held := base.setBuffer 0 0 { used := true, gen := 0, iova := 0, len := 4096 }
    let idle := inState .configured
    let ident := args [(0, 7), (2, 15), (3, 31), (4, 31), (5, 16), (6, 32), (7, 32)]
    let full := List.replicate 8 ({ die := 0, col := 0, ok := true } : Retired)
    (takes base .d [(0, 4), (8, 12)] .pf load = true ∧
      base.hrefCheck { fn := .pf, f := 0, r := 0, a := load } (argAt load 16 4) = some eFreed ∧
      held.hrefCheck { fn := .pf, f := 0, r := 0, a := load } (argAt load 16 4) = none ∧
      base.frame.loading = none ∧ base.fuses.pulse = none ∧ ({ base with regions := [] } : State).anyGranted = false ∧
      base.frame.loaded = true) ∧
    (let img : List Byte := leBytes 80 (1 <<< 96)
     0x40 ≤ img.length ∧ min 256 (0x40 + 16 * frameCount img) ≤ img.length ∧ img.length ≠ 256) ∧
    (({ base.frame with loading := some (.pf, true, 256) } : FrameSt).loading = some (.pf, true, 256) ∧
      (List.replicate 256 (0 : Byte)).length = 256 ∧ (List.replicate 255 (0 : Byte)).length ≠ 256) ∧
    (takes base .d [(0, 2)] .pf (args [(0, 128)]) = true ∧ base.columns ≤ argAt (args [(0, 128)]) 0 2) ∧
    (takes idle .d [(0, 2)] .pf (args [(0, 127)]) = true ∧ argAt (args [(0, 127)]) 0 2 < idle.columns ∧
      argAt (args [(0, 127)]) 0 2 ∉ idle.fuses.parked ∧ (∀ e ∈ idle.regions, e.2.st = .unconfigured ∨ e.2.st = .configured) ∧
      idle.fuses.entries.length < 8 ∧ 8 ≤ full.length) ∧
    (takes base .d [(0, 1)] .pf (args [(0, 4)]) = true ∧ 3 < argAt (args [(0, 4)]) 0 1 ∧
      takes base .d [(0, 1)] .pf (args [(0, 3)]) = true ∧ argAt (args [(0, 3)]) 0 1 ≤ 3 ∧ base.fuses.revoked.getLsbD 3 = false ∧
      popCount base.fuses.revoked.toNat 4 ≠ 3 ∧ popCount (7#4).toNat 4 = 3 ∧ (7#4).getLsbD 3 = false) ∧
    (takes idle .d [(0, 8)] .pf ident = true ∧ idle.anyGranted = false ∧ argAt ident 0 2 ≠ 0xFFFF ∧
      argAt ident 2 1 < argAt ident 5 1 ∧ argAt ident 5 1 ≤ 16 ∧ argAt ident 3 1 < argAt ident 6 1 ∧ argAt ident 6 1 ≤ 32 ∧
      argAt ident 4 1 < argAt ident 7 1 ∧ argAt ident 7 1 ≤ 32 ∧ argAt (args [(0, 0xFFFF)]) 0 2 = 0xFFFF) ∧
    (takes base .d [(0, 2)] .pf (args [(0, 4095)]) = true ∧ argAt (args [(0, 4095)]) 0 2 < 4096 ∧
      (∀ p ∈ allPorts, (4095).testBit p.toNat = true → base.portEnabled p = true) ∧ 4096 ≤ argAt (args [(0, 4096)]) 0 2) := by
  decide +kernel
theorem wit_RegionCommands :
    let idle := inState .configured
    let pool := args [(0, 0x5FA01FFC00)]
    (idle.region 0).cfg = some cfg ∧
    (takes idle .p [] .pf 0 = true ∧ idle.frame.loading = none ∧ idle.fuses.pulse = none ∧ (idle.region 0).st = .configured ∧
      idle.hasParked cfg = false) ∧ (base.region 0).st ≠ .configured ∧ (base.region 0).st = .granted ∧
    ((idle.region 0).st ≠ .granted ∧ (idle.region 0).st ≠ .granting) ∧
    (((inState .granting).region 0).st = .granting ∧ (inState .granting).unitsWait 0 = false ∧ (inState .granting).creditsWhole 0 = true ∧
      ((inState .granting).mail 1).busy = false) ∧
    ({ inState .granting with units := [(recordKey 6 0 0, { UnitRec.reset with quarantined := true })] } : State).unitsWait 0 = true ∧
    (((inState .revoking).region 0).st = .revoking ∧ (inState .revoking).creditsWhole 0 = true) ∧
    (takes idle .p [(0, 8)] .pf pool = true ∧ argAt pool 0 8 % 1024 = 0 ∧ cfg.inPool (argAt pool 0 8) = true ∧
      cfg.inPool (argAt (args [(0, 0x5FA0200000)]) 0 8) = false) := by decide +kernel

/-- The nonzero part of a program image of 512 bytes for `cfg`: a rank table at 0x40 and one section of one block at 0x50, the block the
image itself; the image stands in `walking`'s page. -/
def image : List Byte := leBytes 96 (0x50535946 + (1 <<< 32) + (512 <<< 64) + (1 <<< 96) + (2 <<< 112) + (4 <<< 120) + (0x40 <<< 160)
  + (0x50 <<< 192) + ((1 <<< 8) + (1 <<< 24) + (1 <<< 40)) <<< 640)
def programmed : State := { walking with mem := walking.mem.write 0x0F00204200 image }

theorem wit_ProgramLoads :
    let a := args [(0, 0x082838204200), (8, 512)]
    let d (n : Nat) := args [(0, 0x082838204200), (9, 1), (11, 1), (13, n), (16, 63), (17, 2)]
    let u1 := (programmed.readVa 0 0x082838204200 64).2
    (takes programmed .r [(0, 12)] (.vf 0) a = true ∧ (programmed.region 0).cfg = some cfg ∧ (programmed.region 0).loading = none ∧
      (programmed.region 0).fw.restore = none ∧ programmed.loadIdle 0 = true ∧ running.loadIdle 0 = false) ∧
    (argAt a 0 8 % 512 = 0 ∧ argAt a 0 8 < 2 ^ 48 ∧ argAt a 8 4 % 16 = 0 ∧ 64 ≤ argAt a 8 4 ∧ argAt a 8 4 ≤ 0x10000000) ∧
    ((got (programmed.readVa 0 0x082838204200 64).1).map (fun h => leAt h 8 4) = some 512 ∧
      (got (u1.readVa 0 0x082838204200 512).1).map (progCheck cfg) = some none ∧
      progCheck cfg (List.replicate 64 0) = some eBadarg) ∧
    (let l (va : Nat) := onRegion programmed (fun g => { g with loading := some { fn := .pf, va := va, image := image, halted := true } })
     ((l 0).region 0).loading.isSome = true ∧ got ((l 0).readVa 0 0 image.length).1 = none ∧
        got ((l 0).readVa 0 0x082838204200 image.length).1 = some image ∧ ((l 0).region 0).upd.phase ≠ .waitStart ∧
        (programmed.region 0).cfg = some cfg) ∧
    (takes programmed .r [(0, 18)] .pf (d 64) = true ∧ descCheck (programmed.region 0) cfg (d 64) = none ∧ Word.bit (d 64) 137 = true ∧
      descCheck (programmed.region 0) cfg (d 65) = some eRange) := by decide +kernel
theorem wit_HostAndSyncCommands :
    let buf := args [(0, 4096), (8, 2 ^ 40)]
    let set := args [(0, 255), (4, 0x10001)]
    let href := args [(0, 0xFF000000)]
    let held := base.setBuffer 0 0 { used := true, gen := 0, iova := 0, len := 4096 }
    let own := base.setBuffer 1 0 { used := true, gen := 0, iova := 0, len := 8192 }
    let fl (n : Nat) : State := { onRegion (called 0 0x0E set) (fun g => { g with
      flights := [{ due := n, obj := 255, src := .engine, kind := .signal }] }) with wall := 1 }
    (takes base .f [(0, 16)] (.vf 0) buf = true ∧ argAt buf 0 8 % 4096 = 0 ∧ argAt buf 8 8 % 4096 = 0 ∧ 4096 ≤ argAt buf 8 8 ∧
      argAt buf 8 8 ≤ 2 ^ 40 ∧ (base.buffer 1 0).used = false) ∧
    (∀ k, k < 256 → (({ base with hub := { base.hub with bufs := [(0, (List.range 256).map (fun k => (k,
      { used := true, gen := 0, iova := 0, len := 0 })))] } } : State).buffer 0 k).used = true) ∧
    (takes held .f [(0, 4)] .pf href = true ∧ held.handleCheck .pf (argAt href 0 4) = none ∧ held.exportUses .pf 0 = false ∧
      base.handleCheck .pf (argAt href 0 4) = some eFreed ∧
      (onRegion base (fun g => { g with exp := { g.exp with running := true } })).exportUses .pf 0 = true) ∧
    (takes base .r [(0, 2), (4, 4), (8, 6)] .pf set = true ∧ (base.region 0).ownsObj (setObjArg set).toNat = true ∧ argAt set 8 1 = 0 ∧
      (base.region 0).ownsObj (setObjArg (args [(0, 256)])).toNat = false) ∧
    (((called 0 0x0E set).mail 0).busy = true ∧ ((called 0 0x0E set).mail 0).curOp = 0x0E ∧
      ((called 0 0x0E set).mail 0).wall = 0 ∧ (fl 1).objFree 0 255 = true ∧ (fl 0).objFree 0 255 = false ∧
      configRefused 0 255 0x10001 base = false ∧ configRefused 0 255 0x10000 base = true ∧
      ((called 0 0x0E set).mail 0).since + 125000 ≤ ({ called 0 0x0E set with beats := 125000 } : State).beats) ∧
    (takes own .f [(0, 4), (8, 8)] (.vf 0) 0 = true ∧ (own.dumpObjs (.vf 0)).length = 256 ∧
      own.hrefCheck { fn := .vf 0, f := 1, r := 0, a := 0 } 8192 = none ∧
      own.hrefCheck { fn := .vf 0, f := 1, r := 0, a := 0 } 8193 = some eRange) ∧
    ((called 0 0x0F href).mail 0).curOp = 0x0F ∧
    (base.fuses.pulse = none ∧ base.fuses.revokePulse = none ∧ (base.mail 0).busy = false) ∧
    ({ base with fuses := { base.fuses with pulse := some (.pf, 0) } } : State).fuses.pulse.isSome = true := by decide +kernel

/-- `walking` with `l` written at its address, object 0 a barrier, and a 2^40-byte buffer of VF 0 in slot 0. -/
def posted (l : List Byte) : State :=
  let s := walking.setBuffer 1 0 { used := true, gen := 0, iova := 0, len := 2 ^ 40 }
  { s with mem := s.mem.write 0x0F00204200 l, objs := [(0, { SyncObj.reset with bar := true })] }
/-- Table `tid` 5 of one round that only opens it, its barrier object `o`. -/
def table (o : Nat) : List Byte := leBytes 96 (0x52445946 + (1 <<< 32) + (1 <<< 48) + (1 <<< 64) + (5 <<< 96) + (o <<< 112)
  + (0x0F00000000 <<< 128) + (3 <<< 512))
/-- The region after one more shard is armed and its freewheel configured. -/
def trained (s : State) : State := onRegion s (fun g => { g with
  upd := { g.upd with armed := true, blocks := [shard 0], step := 2 },
  fw := { g.fw with conf := true, st := .idle, commitValid := true, commitStep := 0, limit := 125000 } })

theorem wit_TrainingCommands_arm :
    let a := args [(0, 0x082838204200), (8, 1), (0x0A, 1), (0x0C, 1), (0x0E, 255)]
    let s := posted (leBytes 128 (shard 0).toNat)
    takes s .r [(0, 16)] (.vf 0) a = true ∧ (s.region 0).brake.halted = false ∧ (s.region 0).upd.busy = false ∧ (s.region 0).drl.st ≠ .running ∧
    (argAt a 0 8 % 128 = 0 ∧ argAt a 0 8 < 2 ^ 48 ∧ 1 ≤ argAt a 8 2 ∧ argAt a 8 2 ≤ 8192 ∧ argAt a 0x0C 2 ≠ 0) ∧
    (got (s.readVa 0 0x082838204200 128).1).map (cutBlocks 1) = some [shard 0] ∧
    ((s.region 0).ownsObj (argAt a 0x0A 2) = true ∧ (s.region 0).ownsObj (argAt a 0x0E 2) = true ∧
      (s.region 0).lpChans.contains (blkChan (shard 0)) = true ∧ blkLegal (shard 0) = true ∧ blkEnd (shard 0) ≤ 0x60000000 ∧
      anyOverlap [shard 0] = false) := by decide +kernel
theorem wit_TrainingCommands_derail :
    let a := args [(0, 0x082838204200)]
    let s (o : Nat) := posted (table o)
    let ok (o : Nat) : Option (Bool × Nat) := (got ((s o).readVa 0 0x082838204200 64).1).bind (fun h =>
      (got ((s o).readVa 0 (0x082838204200 + 64) 32).1).map (fun b => (drlHeader h, drlCheck (s o) 0 h [BitVec.ofNat 256 (leAt b 0 32)])))
    takes (s 0) .r [(0, 8)] .pf a = true ∧ ((s 0).region 0).brake.halted = false ∧ ((s 0).region 0).upd.busy = false ∧ ((s 0).region 0).drl.st ≠ .running ∧
    argAt a 0 8 % 64 = 0 ∧ argAt a 0 8 < 2 ^ 48 ∧ ok 0 = some (true, eOk) ∧ ok 1 = some (true, eOwner) := by decide +kernel
theorem wit_TrainingCommands_wheel :
    let t := trained (posted [])
    let x := onRegion t (fun g => { g with upd := { g.upd with phase := .running } })
    let n : State := { posted [] with ports := [(0, { linkUp with nbrDev := 3 })] }
    let cf := args [(0, 3), (2, 1), (6, 16), (0x10, 125000)]
    let ex := args [(0x10, 0x100000), (0x18, 1), (0x1C, 16), (0x20, 0x082838204200)]
    (takes base .r [] .pf 0 = true ∧ (base.region 0).upd.armed = false) ∧
    let y (met : Bool) := onRegion t (fun g => { g with upd := { g.upd with phase := .waitStart, startMet := met }, drl := { g.drl with st := .running } })
    (takes t .r [] .pf 0 = true ∧ (t.region 0).upd.armed = true ∧ (t.region 0).brake.halted = false ∧ (t.region 0).upd.busy = false ∧ (t.region 0).drl.st ≠ .running ∧
      (emitAll 0 ((t.region 0).upd.step.toNat % 2) ((t.region 0).upd.step - 1).toNat t).1 = none ∧ (x.region 0).upd.phase = .running) ∧
    (((y true).region 0).upd.phase = .waitStart ∧ ((y true).region 0).drl.st = .running ∧ ((y false).region 0).upd.startMet = false) ∧
    ((onRegion t (fun g => { g with brake := { g.brake with halted := true } })).region 0).brake.halted = true ∧
    (takes n .r [(0, 20)] .pf cf = true ∧ (n.region 0).fw.mirrors = false ∧ (n.region 0).fw.restore = none ∧
      allPorts.filter (fun p => (BitVec.ofNat 16 (argAt cf 2 2)).getLsbD p.toNat) = [0] ∧ n.portEnabled 0 = true ∧
      ((n.region 0).lane 0).isSome = true ∧ (n.port 0).nbrDev.toNat = argAt cf 0 2 ∧ (n.region 0).ownsObj (argAt cf 4 2) = true ∧
      (n.obj (BitVec.ofNat 16 (argAt cf 4 2))).bar = true ∧ argAt cf 6 1 = 16 ∧ (n.region 0).lpChans.contains (argAt cf 7 1) = true ∧
      argAt cf 8 8 % 64 = 0 ∧ argAt cf 8 8 + 32 * (n.region 0).tiles.length ≤ 0x60000000 ∧ argAt cf 0x10 4 = 125000) ∧
    (takes t .r [(0, 4), (8, 8), (0x10, 13), (0x20, 8)] (.vf 0) ex = true ∧ (t.region 0).exp.active = false ∧ (t.region 0).brake.halted = false ∧
      t.hrefCheck { fn := .vf 0, f := 1, r := 0, a := ex } (argAt ex 0x10 8) = none ∧ argAt ex 8 8 % 64 = 0 ∧
      argAt ex 0x10 8 = 0x100000 ∧ argAt ex 0x1C 1 = 16 ∧ (got (t.readVa 0 (argAt ex 0x20 8) 128).1).isSome = true) ∧
    (takes t .r [(0, 9)] .pf 0 = true ∧ (t.region 0).loading = none ∧ (t.region 0).fw.commitValid = true ∧
      BitVec.ofNat 64 (argAt 0 0 8) = (t.region 0).fw.commitStep ∧ (base.region 0).fw.commitValid = false ∧
      (base.region 0).fw.mirrorAcked = false ∧ takes t .r [(0, 8)] .pf 0 = true ∧ (t.region 0).fw.conf = true) := by decide +kernel

theorem wit_ClockPowerAndResetCommands :
    let l (b : BitVec 48) := paced (fun c => { c with locked := true, beat := b })
    let cal (i v : Nat) := args [(0, i), (4, v)]
    (takes base .d [(0, 10)] .pf (args [(0, 64)]) = true ∧ argAt (args [(0, 64)]) 6 2 = 0 ∧ base.frame.source ≠ 1 ∧
      base.cad.locked = false ∧ (l 0).cad.locked = true) ∧
    (takes base .d [(0, 1), (8, 10)] .pf (args [(0, 3), (8, 16)]) = true ∧ argAt (args [(0, 3), (8, 16)]) 0 1 ≤ 3 ∧
      argAt (args [(0, 3), (8, 16)]) 14 2 = 0 ∧ base.power.pend = none ∧ base.cad.eventCheck 16 0 = some eState ∧
      (l 0).cad.eventCheck 16 0 = none ∧ (l 1).cad.eventCheck 16 0 = some eRange) ∧
    (takes base .d [(0, 2)] .pf (args [(0, 1200)]) = true ∧ 1200 ≤ argAt (args [(0, 1200)]) 0 2 ∧ argAt (args [(0, 2400)]) 0 2 ≤ 2400 ∧
      argAt (args [(0, 1199)]) 0 2 < 1200 ∧ 2400 < argAt (args [(0, 2401)]) 0 2) ∧
    (takes base .d [(0, 2), (4, 4)] .pf (cal 5 0) = true ∧ calLimit 5 = none ∧ calLimit 0x14 = some 80 ∧
      (BitVec.ofNat 32 (argAt (cal 0x14 80) 4 4) : Word).toInt.natAbs ≤ 80 ∧
      80 < (BitVec.ofNat 32 (argAt (cal 0x14 0xFFFFFFAF) 4 4) : Word).toInt.natAbs ∧ base.calAccepted 0x14 = true ∧
      calLimit 3 = some 25) ∧
    ((List.range 6).all (fun k => takes base .d [(0, 1)] .pf (withKind 0 k)) = true) ∧
    base.anyGranted = true ∧ (inState .configured).anyGranted = false := by decide +kernel
theorem wit_RegisterRowsAct :
    (base.answers (.vf 1) = false ∧ (0x10D#24).toNat % 4 ≠ 0 ∧ (0x10C#24).toNat % 4 = 0) ∧
    base.opens .pf = true ∧ base.opens (.vf 0) = true ∧ (5 : BitVec 16) ≠ base.hub.evt.seq ∧ Word.bits (15#32) 0 16 < 16 ∧ 16 ≤ Word.bits (16#32) 0 16 ∧
    ((base.region 0).faults.head - (base.region 0).faults.tail).toNat < ((1#32).extractLsb' 0 10 - (base.region 0).faults.tail : BitVec 10).toNat ∧
    ((0#32).extractLsb' 0 10 - (base.region 0).faults.tail : BitVec 10).toNat ≤ ((base.region 0).faults.head - (base.region 0).faults.tail).toNat := by
  decide
theorem wit_RegisterWritesReachTheirRegister :
    (State.reset.answers .pf = true ∧ State.reset.resets.ready = false) ∧ base.opens .pf = true ∧
    (0x10 ≤ (0x4C : BitVec 24).toNat ∧ (0x4C : BitVec 24).toNat < 0x50 ∧ (0x4C : BitVec 24).toNat % 4 = 0) ∧
    Word.bits (1249#32) 0 24 < 1250 ∧ 1250 ≤ Word.bits (1250#32) 0 24 ∧ takes base .f [(0, 64)] .pf (args [(63, 1)]) = true ∧ 0x1E < 0x1F ∧ 0x1F < 256 := by
  decide
theorem wit_BlockResetsClearTheirUnit :
    base.opens .pf = true ∧ State.reset.opens .pf = false ∧ (127#12).toNat < base.columns ∧ base.columns ≤ (128#12).toNat ∧
    (11#12).toNat < 12 ∧ 12 ≤ (12#12).toNat ∧ (255#12).toNat < 256 ∧ 256 ≤ (256#12).toNat ∧ (63#12).toNat < 64 ∧ 64 ≤ (64#12).toNat ∧
    base.ownerRuns (blkMembers 0 0) = true ∧ base.ownerRuns (blkMembers 0 2) = false ∧ base.resets.blk = none ∧
    (let b (idle : Bool) (n : Nat) : State := { inReset (fun x => { x with blk := some (0, 2, idle, 0) }) with beats := n }
     (b true 0).resets.blk = some (0, 2, true, 0) ∧ 0 + 12500 ≤ (b false 12500).beats ∧ (b false 12499).beats < 0 + 12500) := by decide
theorem wit_HubFirmwareLoads :
    let s (n : BitVec 23) (st : BitVec 2) : State := { base with hub := { base.hub with fwLen := n, fwState := st } }
    ({ base with stopped := [parityAt 4 0x2028] } : State).loaderStopped = true ∧ (s 192 3).loaderStopped = false ∧
    ((s 192 3).opens .pf = true ∧ (s 192 3).hub.fwState = 3 ∧ (s 192 3).hub.fwLen.toNat % 16 = 0 ∧ 192 ≤ (s 192 3).hub.fwLen.toNat ∧
      (s 0x400000 0).hub.fwLen.toNat ≤ 0x400000 ∧ (s 192 3).hub.fwAddr.toNat % 4096 = 0) ∧ (s 176 0).hub.fwLen.toNat < 192 ∧
    0x400000 < (s 0x400010 0).hub.fwLen.toNat ∧ (s 192 1).hub.fwState = 1 ∧ base.hub.fwState = 2 := by decide
theorem wit_TheSidePortsAnswer :
    let m (addr : BitVec 7) (code : Byte) (pec : Option Byte) : SmbusCall := { addr := addr, code := code, pec := pec }
    base.resets.ready = true ∧ State.reset.resets.ready = false ∧ ([1, 2] : List Byte).length ≠ 3 ∧
    ((m 0x60 1 none).addr.toNat = 0x60 + base.resets.straps.toNat % 4 ∧ (m 0x63 1 none).addr.toNat ≠ 0x60 + base.resets.straps.toNat % 4 ∧
      pecOf [smbAddrByte (m 0x60 1 none) false, 1, 3, 0x04, 0x01, 0] ≠ 0 ∧ (4 : Byte) ≠ 2) ∧
    (99 < 100 ∧ 100 ≤ 999 ∧ 999 < 1000 ∧ 1000 ≤ 1000) ∧
    (smbReadable 0x100 = true ∧ smbReadable 0x3FF = true ∧ smbReadable 0x2000 = true ∧ smbReadable 0x2FFF = true) ∧
    (smbReadable 0xFF = false ∧ smbReadable 0x400 = false ∧ smbReadable 0x1FFF = false ∧ smbReadable 0x3000 = false) ∧
    base.resets.pwrgood = true ∧ JtagIr.idcode ≠ .extest ∧ ({ base.hub with jtag := .idcode } : Hub).jtag = .idcode := by decide

/-! Rules of the whole machine. -/

/-- The word of slot `l` of the bundle of tile 0 is `w`, the slot may issue, and no slot of its bundle has faulted or is blocked. -/
abbrev Stands (l : Slot) (w : SlotWord) : Prop :=
  (ld running l w).mayIssue 0 l w = some 0 ∧ (((ld running l w).opened 0 0).tile 0).ctl.bundle.map (·.mode) = some .live

theorem wit_WrongWordsFault :
    (∀ q ∈ slotCommands, running.mayIssue 0 q.1 (word 0x01 0) = none ∧
      (opOf (word 0x01 0) ≠ q.2.1 ∨ opOf (word 0x02 0) ≠ q.2.1) ∧ (decodeOp q.1 0x01).isSome = true ∧ (decodeOp q.1 0x02).isSome = true) ∧
    (∀ l ∈ [Slot.s, .m, .v, .x], Stands l (word 0x3F 0) ∧ decodeOp l (opOf (word 0x3F 0)) = none) ∧
    (Stands .s (word 0x01 0x0E) ∧ 0x0E ≤ fnOf (word 0x01 0x0E)) ∧ (Stands .s (word 0x28 0x20001) ∧ Word.bits (word 0x28 0x20001) 17 5 ≠ 0) ∧
    (Stands .m (word 0x01 1) ∧ Word.bits (word 0x01 1) 0 17 ≠ 0) ∧ (Stands .v (word 0x04 1) ∧ Word.bits (word 0x04 1) 0 19 ≠ 0) ∧
    (Stands .x (word 0x06 0x100) ∧ Word.bits (word 0x06 0x100) 8 14 ≠ 0) ∧
    (Stands .x (word 0x22 1) ∧ Word.bits (word 0x22 1) 0 20 ≠ 0) := by decide
/-- The complement of predicate 0 is never true (02 R44). -/
theorem wit_FalseGuardsHaveNoEffect :
    let w (op rest : Nat) : SlotWord := BitVec.ofNat 32 (op * 2 ^ 26 + 2 ^ 22 + rest)
    (Stands .s (w 0x02 5) ∧ Stands .s (w 0x01 0x0D) ∧ Stands .s (w 0x28 0xFFF) ∧ Stands .m (w 0x01 0x20000) ∧ Stands .v (w 0x04 0x80000) ∧
      Stands .x (w 0x06 255) ∧ Stands .x (w 0x22 0x300000)) ∧
    (((ld running .s (w 0x02 5)).opened 0 0).tile 0).ctl.guard (w 0x02 5) = false ∧
    opOf (w 0x02 5) = 0x02 ∧ (opOf (w 0x01 0x0D) = 0x01 ∧ fnOf (w 0x01 0x0D) < 0x0E) ∧
    (opOf (w 0x28 0xFFF) = 0x28 ∧ Word.bits (w 0x28 0xFFF) 17 5 = 0 ∧ Word.bits (w 0x28 0xFFF) 0 12 ≠ 0) ∧
    (opOf (w 0x01 0x20000) = 0x01 ∧ Word.bits (w 0x01 0x20000) 0 17 = 0) ∧ (opOf (w 0x04 0x80000) = 0x04 ∧ Word.bits (w 0x04 0x80000) 0 19 = 0) ∧
    (opOf (w 0x06 255) = 0x06 ∧ Word.bits (w 0x06 255) 8 14 = 0) ∧ (opOf (w 0x22 0x300000) = 0x22 ∧ Word.bits (w 0x22 0x300000) 0 20 = 0) := by
  decide
theorem wit_FaultsAreRecorded :
    let r : FaultRec := { cyc := 0, tile := none, slot := none, order := 0, code := 1, region := 0, pc := 0, lap := 0, tcyc := 0, beat := 0,
                          seq := 0, detail := 0 }
    (base.region 0).halting = false ∧
    ((onRegion base (fun g => { g with brake := { g.brake with haltAt := some 0 }, faults := { g.faults with recs := List.replicate 16 r } })).region 0).halting
      = true := by decide
theorem wit_CommandsKeepTheQueue : exec .vbkupLoss { base with pending := [.vrAlert] } =
    .next { base with pending := [.vrAlert], resets := { base.resets with backupOk := false } } := rfl
theorem wit_StepsKeepTheFusesWithin :
    let s : State := { base with
      fuses := { base.fuses with entries := List.replicate 7 { die := 0, col := 0, ok := true }, pulse := some (.pf, 0), revoked := 3,
                                 revokePulse := some (.pf, 2) } }
    FusesWithin s ∧ step s = .next (after (step s)) := by
  refine ⟨⟨by decide, by decide, ?_⟩, rfl⟩
  intro fn k h
  cases h
  decide
theorem wit_NansConvertToTheCanonicalNan : decode .fp64 0xFFFFFFFFFFFFFFFF = .nan ∧ decode .fp32 0x7F800001 = .nan ∧
    decode .bf16 0xFFC1 = .nan ∧ decode .fp16 0x7C01 = .nan ∧ decode .e4m3 0xFF = .nan ∧ decode .e5m2 0x7D = .nan := by decide
theorem wit_ElementsConvertToThemselves :
    (0x7F7FFFFF < 2 ^ Format.fp32.width ∧ ∃ n m e, decode .fp32 0x7F7FFFFF = .fin n m e ∧ m ≠ 0) ∧
    (∃ n m e, decode .fp32 0x007FFFFF = .fin n m e ∧ m ≠ 0 ∧ 0x007FFFFF / 2 ^ 23 % 2 ^ 8 = 0) ∧
    (∃ n m e, decode .fp64 0x8000000000000001 = .fin n m e ∧ m ≠ 0) ∧ (∃ n e, decode .e4m3 0x80 = .fin n 0 e) ∧
    (∃ n m e, decode .t2 3 = .fin n m e ∧ ¬ (Format.t2 = .t2 ∧ 3 = 2)) := by
  exact ⟨⟨by decide, ⟨_, _, _, rfl, by decide⟩⟩, ⟨_, _, _, rfl, by decide, by decide⟩, ⟨_, _, _, rfl, by decide⟩, ⟨_, _, rfl⟩,
    ⟨_, _, _, rfl, by decide⟩⟩

end Sys2Proof.Tests
end

namespace Sys2Proof.Machine
open Sys2Proof

/-! ### S-slot operations with one register result (02 R49, R52, R53) -/

/-- A register write leaves the record of the open bundle. -/
@[simp] theorem Ctl.setReg_bundle (c : Ctl) (n : Nat) (v : Word) (now ready : Nat) :
    (c.setReg n v now ready).bundle = c.bundle := rfl

@[simp] theorem State.core_tile_ctl (a : State) (t : TileId) (f : Ctl → Ctl) :
    ((a.core t f).tile t).ctl = f (a.tile t).ctl := by
  simp [State.core]

@[simp] theorem State.core_region (a : State) (t : TileId) (f : Ctl → Ctl) (r : RegionId) :
    (a.core t f).region r = a.region r := rfl

/-- A word that carries an operation's code spells that operation. -/
theorem fits_opOf (slot : Slot) (w : SlotWord) : fits slot (opOf w) w = true := by
  simp [fits]

/-- A legal encoding raises no fault. -/
theorem encoding_of_ok {op : Nat} {w : SlotWord} {ok : Bool} (ho : opOf w = op) (hk : ok = true) :
    encoding op w ok = none :=
  if_pos ⟨ho, hk⟩

/-- An S-slot operation whose whole effect is one register result: the core is written, and issue goes on in sequence. -/
theorem slotOp_putReg {s : State} {t : TileId} {w : SlotWord} {r : RegionId} (op rd : Nat) (v : Word) (lat : Nat)
    (enc : Site → State → Option (Nat × Nat)) (act : Site → State → Act) (h : Issues s .s t w r) (ho : opOf w = op)
    (he : enc ((s.opened r t).site r .s t w) (s.opened r t) = none)
    (ha : act ((s.opened r t).site r .s t w) (s.opened r t) =
      putReg ((s.opened r t).site r .s t w) rd v lat (s.opened r t)) :
    slotOp .s op t w enc act s =
      ((s.opened r t).core t (fun c =>
        c.setReg rd v ((s.opened r t).region r).cycle (((s.opened r t).region r).cycle + lat))).issued r t .s .seq :=
  slotOp_done .s op t w enc act s _ r .seq (ho ▸ fits_opOf .s w) h he ha (by simp) (by simp)

/-! ### ALU -/

/-- The codes from 0x0E on are reserved (R53). -/
theorem aluOp_of_reserved (fn : Nat) (a b : Word) (h : 0x0E ≤ fn) : aluOp fn a b = none := by
  obtain ⟨k, rfl⟩ := Nat.exists_eq_add_of_le' h
  rfl

/-- The FN codes that have a function are those below 0x0E. -/
theorem aluOp_isSome_iff (fn : Nat) (a b : Word) : (aluOp fn a b).isSome = true ↔ fn < 0x0E := by
  constructor
  · intro h
    refine Nat.lt_of_not_le (fun hn => ?_)
    rw [aluOp_of_reserved fn a b hn] at h
    cases h
  · intro h
    unfold aluOp
    split
    case h_15 =>
      simp only [imp_false] at *
      omega
    all_goals rfl

/-- An ALU word with a code of R53 writes its function of the two operands, readable after the latency of its FN. -/
theorem exec_alu_done {s : State} {t : TileId} {w : SlotWord} {r : RegionId} {v : Word} (h : Issues s .s t w r)
    (ho : opOf w = 0x01)
    (hv : aluOp (fnOf w) (((s.opened r t).tile t).ctl.reg (raOf w)) (((s.opened r t).tile t).ctl.reg (rbOf w)) = some v) :
    exec (.alu t w) s = .next (((s.opened r t).core t (fun c =>
      c.setReg (rdOf w) v ((s.opened r t).region r).cycle
        (((s.opened r t).region r).cycle + aluLatency (fnOf w)))).issued r t .s .seq) := by
  have hfn : fnOf w < 0x0E := (aluOp_isSome_iff _ _ _).1 (Option.isSome_of_eq_some hv)
  rw [exec_alu, execAlu]
  refine congrArg _ (slotOp_putReg 0x01 (rdOf w) v (aluLatency (fnOf w)) _ _ h ho ?_ ?_)
  · exact encoding_of_ok ho ((aluOp_isSome_iff _ _ _).2 hfn)
  · simp [hv]

/-! ### SHI -/

/-- A SHI word with IMM[11:10] below 3 and IMM[9:5] zero writes the shifted operand, readable a cycle later. -/
theorem exec_shi_done {s : State} {t : TileId} {w : SlotWord} {r : RegionId} (h : Issues s .s t w r)
    (ho : opOf w = 0x06) (hz : Word.bits w 5 5 = 0) (hk : Word.bits w 10 2 ≠ 3) :
    exec (.shi t w) s = .next (((s.opened r t).core t (fun c =>
      c.setReg (rdOf w) (shiOp (Word.bits w 10 2) (Word.bits w 0 5) (((s.opened r t).tile t).ctl.reg (raOf w)))
        ((s.opened r t).region r).cycle (((s.opened r t).region r).cycle + 1))).issued r t .s .seq) := by
  rw [exec_shi, execShi]
  refine congrArg _ (slotOp_putReg 0x06 (rdOf w) _ 1 _ _ h ho ?_ rfl)
  exact encoding_of_ok ho (by simp [zeroAt, hz, hk])

/-- ALU and SHI have no effect beside their register and the core's going on (R52, R53). -/
theorem aluAndShiftWriteRd : Rules.AluAndShiftWriteRd := by
  intro s t w r h
  refine ⟨fun v ho hv => exec_alu_done h ho hv, fun ho hz => ⟨fun hk => ?_, fun hk => ?_, fun hk => ?_⟩⟩
  all_goals
    rw [exec_shi_done h ho hz (by omega), hk]
    rfl

/-! ### The ALU functions in integers (R53) -/

theorem word_add_eq_ofNat (a b : Word) : a + b = BitVec.ofNat 32 (a.toNat + b.toNat) := by
  simp [BitVec.ofNat_add]

theorem word_sub_eq_ofInt (a b : Word) : a - b = BitVec.ofInt 32 ((a.toNat : Int) - b.toNat) := by
  apply BitVec.eq_of_toNat_eq
  rw [BitVec.toNat_sub, BitVec.toNat_ofInt]
  omega

/-- A left shift is a product with a power of two. -/
theorem word_shiftLeft_eq_ofNat (a : Word) (n : Nat) : a <<< n = BitVec.ofNat 32 (a.toNat * 2 ^ n) := by
  apply BitVec.eq_of_toNat_eq
  simp [Nat.shiftLeft_eq]

/-- A logical right shift is the floor of a quotient. -/
theorem word_ushiftRight_eq_ofNat (a : Word) (n : Nat) : a >>> n = BitVec.ofNat 32 (a.toNat / 2 ^ n) := by
  rw [← Nat.shiftRight_eq_div_pow, ← BitVec.toNat_ushiftRight, BitVec.ofNat_toNat, BitVec.setWidth_eq]

/-- An arithmetic right shift is the floor of the signed quotient. -/
theorem word_sshiftRight_eq_ofInt (a : Word) (n : Nat) : a.sshiftRight n = BitVec.ofInt 32 (a.toInt / 2 ^ n) := by
  rw [← BitVec.ofInt_toInt (x := a.sshiftRight n), BitVec.toInt_sshiftRight, Int.shiftRight_eq_div_pow]
  rfl

theorem word_mul_eq_ofNat (a b : Word) : a * b = BitVec.ofNat 32 (a.toNat * b.toNat % 2 ^ 32) := by
  apply BitVec.eq_of_toNat_eq
  simp

/-- MIN chooses by the signed order. -/
theorem ite_slt_eq_min (a b : Word) : (if a.slt b then a else b) = BitVec.ofInt 32 (min a.toInt b.toInt) := by
  have choice : min a.toInt b.toInt = if a.toInt < b.toInt then a.toInt else b.toInt := by split <;> omega
  simp only [choice, apply_ite (BitVec.ofInt 32), BitVec.ofInt_toInt, BitVec.slt_iff_toInt_lt]

/-- MAX chooses by the signed order. -/
theorem ite_slt_eq_max (a b : Word) : (if a.slt b then b else a) = BitVec.ofInt 32 (max a.toInt b.toInt) := by
  have choice : max a.toInt b.toInt = if a.toInt < b.toInt then b.toInt else a.toInt := by split <;> omega
  simp only [choice, apply_ite (BitVec.ofInt 32), BitVec.ofInt_toInt, BitVec.slt_iff_toInt_lt]

/-- MINU chooses by the unsigned order. -/
theorem ite_ult_eq_min (a b : Word) : (if a.ult b then a else b) = BitVec.ofNat 32 (min a.toNat b.toNat) := by
  have choice : min a.toNat b.toNat = if a.toNat < b.toNat then a.toNat else b.toNat := by split <;> omega
  simp only [choice, apply_ite (BitVec.ofNat 32), BitVec.ofNat_toNat, BitVec.setWidth_eq, BitVec.ult_iff_lt, BitVec.lt_def]

/-- MAXU chooses by the unsigned order. -/
theorem ite_ult_eq_max (a b : Word) : (if a.ult b then b else a) = BitVec.ofNat 32 (max a.toNat b.toNat) := by
  have choice : max a.toNat b.toNat = if a.toNat < b.toNat then b.toNat else a.toNat := by split <;> omega
  simp only [choice, apply_ite (BitVec.ofNat 32), BitVec.ofNat_toNat, BitVec.setWidth_eq, BitVec.ult_iff_lt, BitVec.lt_def]

/-- Each FN code of R53 as a function of integers, wrapping modulo 2^32. -/
theorem aluFunctionsInIntegers : Rules.AluFunctionsInIntegers := by
  intro a b
  refine ⟨congrArg some (word_add_eq_ofNat a b), congrArg some (word_sub_eq_ofInt a b), fun n => ?bitwise,
    congrArg some (word_shiftLeft_eq_ofNat a _), congrArg some (word_ushiftRight_eq_ofNat a _),
    congrArg some (word_sshiftRight_eq_ofInt a _), congrArg some (word_mul_eq_ofNat a b), rfl,
    congrArg some (ite_slt_eq_min a b), congrArg some (ite_slt_eq_max a b), congrArg some (ite_ult_eq_min a b),
    congrArg some (ite_ult_eq_max a b), fun fn => aluOp_of_reserved fn a b⟩
  case bitwise =>
    exact ⟨a ^^^ b, a &&& b, a ||| b, rfl, rfl, rfl, BitVec.getLsbD_and, BitVec.getLsbD_or, BitVec.getLsbD_xor⟩

/-- Settles O4: the effect by the rule for operations with one register result, the functions one by one. -/
theorem aluOperationsCompute : Obligations.AluOperationsCompute :=
  ⟨aluAndShiftWriteRd, aluFunctionsInIntegers⟩

end Sys2Proof.Machine

namespace Sys2Proof.Machine

/-! ### Conversions of an element to its own format, and of a NaN (04 R111, R124, R128 to R130) -/

/-! #### The fields of a code -/

namespace Format

/-- The mantissa field of a code (R111). -/
def manField (f : Format) (x : Nat) : Nat := x % 2 ^ f.mbits

/-- The exponent field of a code (R111). -/
def expField (f : Format) (x : Nat) : Nat := x / 2 ^ f.mbits % 2 ^ f.ebits

/-- The sign field of a code (R111). -/
def negField (f : Format) (x : Nat) : Bool := x / 2 ^ (f.mbits + f.ebits) % 2 == 1

/-- The code stands for an infinity or a NaN (R111). -/
def Special (f : Format) (x : Nat) : Prop :=
  match f with
  | .e2m1 | .t2 => False
  | .e4m3 => f.expField x = 15 ∧ f.manField x = 7
  | f => f.expField x = 2 ^ f.ebits - 1

/-- The number the fields of a code spell: subnormal under a zero exponent field, normal under any other (R111, R113). -/
def ofFields (f : Format) (x : Nat) : Num :=
  if f.expField x = 0 then .fin (f.negField x) (f.manField x) f.qmin
  else .fin (f.negField x) (2 ^ f.mbits + f.manField x) (((f.expField x - 1 : Nat) : Int) + f.qmin)

/-- The tensor path flushes the subnormals of these formats (R129). -/
abbrev Flushes (f : Format) : Prop := f = .fp32 ∨ f = .fp64

theorem manField_lt (f : Format) (x : Nat) : f.manField x < 2 ^ f.mbits := Nat.mod_lt _ (Nat.two_pow_pos _)

theorem expField_lt (f : Format) (x : Nat) : f.expField x < 2 ^ f.ebits := Nat.mod_lt _ (Nat.two_pow_pos _)

theorem width_eq {f : Format} (hf : f ≠ .t2) : f.width = f.mbits + f.ebits + 1 := by
  cases f with
  | t2 => contradiction
  | _ => rfl

/-- The sign field weighs what `signBit` gives its sign. -/
theorem signBit_negField {f : Format} {x : Nat} (hf : f ≠ .t2) (hx : x < 2 ^ f.width) :
    signBit f (f.negField x) = x / 2 ^ (f.mbits + f.ebits) * 2 ^ (f.mbits + f.ebits) := by
  have hbit : x / 2 ^ (f.mbits + f.ebits) < 2 := by
    rwa [Nat.div_lt_iff_lt_mul (Nat.two_pow_pos _), ← Nat.pow_succ', Nat.succ_eq_add_one, ← width_eq hf]
  rw [signBit, negField, width_eq hf, Nat.add_sub_cancel]
  obtain h0 | h1 : x / 2 ^ (f.mbits + f.ebits) = 0 ∨ x / 2 ^ (f.mbits + f.ebits) = 1 :=
    Nat.le_one_iff_eq_zero_or_eq_one.1 (Nat.le_of_lt_succ hbit)
  · simp [h0]
  · simp [h1]

/-- Outside T2 a code is the sum of its sign, exponent and mantissa fields. -/
theorem sum_fields {f : Format} {x : Nat} (hf : f ≠ .t2) (hx : x < 2 ^ f.width) :
    signBit f (f.negField x) + f.expField x * 2 ^ f.mbits + f.manField x = x := by
  calc signBit f (f.negField x) + f.expField x * 2 ^ f.mbits + f.manField x
      = (x / 2 ^ f.mbits / 2 ^ f.ebits * 2 ^ f.ebits + x / 2 ^ f.mbits % 2 ^ f.ebits) * 2 ^ f.mbits + x % 2 ^ f.mbits := by
        rw [signBit_negField hf hx, expField, manField, Nat.div_div_eq_div_mul, ← Nat.pow_add, Nat.add_mul, Nat.mul_assoc, ← Nat.pow_add,
          Nat.add_comm f.ebits]
    _ = x := by rw [Nat.div_add_mod', Nat.div_add_mod']

end Format

open Format

/-! #### Decoding by the fields -/

theorem decode_ne_fin_of_special {f : Format} {x : Nat} (hs : f.Special x) (neg : Bool) (m : Nat) (e : Int) :
    decode f x ≠ .fin neg m e := by
  have hinf := Decidable.em (f.manField x = 0)
  cases f with
  | e2m1 | t2 => exact hs.elim
  | e4m3 =>
    simp only [Special, expField, manField] at hs
    simp [decode, Nat.shiftRight_eq_div_pow, hs]
  | _ =>
    simp only [Special, expField, manField] at hs hinf
    obtain hman | hman := hinf <;> simp [decode, Nat.shiftRight_eq_div_pow, hs, hman]

theorem decode_eq_ofFields {f : Format} {x : Nat} (hf : f ≠ .t2) (hs : ¬ f.Special x) : decode f x = f.ofFields x := by
  cases f with
  | t2 => contradiction
  | _ =>
    simp only [Special, expField, manField] at hs
    simp only [decode, Nat.shiftRight_eq_div_pow, hs, if_false]
    rfl

/-- The nonzero codes of T2 are 1 and 3 (R114). -/
theorem decode_t2_eq_fin {x : Nat} {neg : Bool} {m : Nat} {e : Int} (h : decode .t2 x = .fin neg m e) (hm : m ≠ 0) :
    m = 1 ∧ e = 0 ∧ x % 4 = if neg then 3 else 1 := by
  rw [decode] at h
  split at h
  case isTrue h1 =>
    obtain ⟨rfl, rfl, rfl⟩ := Num.fin.inj h
    exact ⟨rfl, rfl, h1⟩
  case isFalse =>
    split at h
    case isTrue h3 =>
      obtain ⟨rfl, rfl, rfl⟩ := Num.fin.inj h
      exact ⟨rfl, rfl, h3⟩
    case isFalse => exact absurd (Num.fin.inj h).2.1.symm hm

/-- What a finite code outside T2 says of its fields: it is not special, its exponent field is zero where the number is
subnormal, and not zero where it is normal. -/
theorem fields_of_decode_fin {f : Format} {x : Nat} {neg : Bool} {m : Nat} {e : Int} (hf : f ≠ .t2)
    (h : decode f x = .fin neg m e) :
    ¬ f.Special x ∧ f.negField x = neg ∧
      (f.expField x = 0 ∧ m = f.manField x ∧ e = f.qmin ∨
        0 < f.expField x ∧ m = 2 ^ f.mbits + f.manField x ∧ e = ((f.expField x - 1 : Nat) : Int) + f.qmin) := by
  have hs : ¬ f.Special x := fun hs => decode_ne_fin_of_special hs neg m e h
  rw [decode_eq_ofFields hf hs, ofFields] at h
  split at h
  case isTrue hex =>
    obtain ⟨rfl, rfl, rfl⟩ := Num.fin.inj h
    exact ⟨hs, rfl, .inl ⟨hex, rfl, rfl⟩⟩
  case isFalse hex =>
    obtain ⟨rfl, rfl, rfl⟩ := Num.fin.inj h
    exact ⟨hs, rfl, .inr ⟨Nat.pos_of_ne_zero hex, rfl, rfl⟩⟩

/-! #### A finite element lies on the grid of its format -/

theorem bitLen_le {m k : Nat} (h : m < 2 ^ k) : bitLen m ≤ k := by
  unfold bitLen
  split
  · exact Nat.zero_le k
  · exact (Nat.log2_lt ‹_›).2 h

theorem bitLen_two_pow_add {k r : Nat} (h : r < 2 ^ k) : bitLen (2 ^ k + r) = k + 1 := by
  have hpos : 2 ^ k + r ≠ 0 := Nat.ne_of_gt (Nat.add_pos_left (Nat.two_pow_pos k) r)
  rw [bitLen, if_neg hpos, (Nat.log2_eq_iff hpos).2 ⟨Nat.le_add_right _ _, by rw [Nat.pow_succ]; omega⟩]

/-- A magnitude of full precision stands at its own spacing: it rounds to itself in every direction (R125, R126). -/
theorem roundMag_of_full {p : Nat} {q : Option Int} {m : Nat} {e : Int} (dir : Dir) (hm : bitLen m = p)
    (hq : ∀ k ∈ q, k ≤ e) : roundMag p q dir m e = (m, e, false) := by
  cases q with
  | none => simp [roundMag, hm]
  | some k =>
    have hk : ¬ e < k := by simpa using hq
    simp [roundMag, hm, hk]

/-- A magnitude short of full precision that stands at the finest spacing rounds to itself in every direction. -/
theorem roundMag_of_finest {p m : Nat} {e : Int} (dir : Dir) (hm : bitLen m < p) :
    roundMag p (some e) dir m e = (m, e, false) := by
  have hk : e + bitLen m - p < e := by omega
  simp [roundMag, hk]

theorem magLe_of_le_mul_two_pow {m m' k : Nat} {e e' : Int} (he : e + k ≤ e') (hm : m ≤ m' * 2 ^ k) :
    magLe m e m' e' = true := by
  rw [magLe, if_pos (by omega), decide_eq_true_eq, Nat.shiftLeft_eq]
  exact Nat.le_trans hm (Nat.mul_le_mul_left _ (Nat.pow_le_pow_right (by decide) (by omega)))

/-- No finite element is larger than the largest finite magnitude of its format (R111). -/
theorem magLe_maxfin_of_decode_fin {f : Format} {x : Nat} {neg : Bool} {m : Nat} {e : Int}
    (h : decode f x = .fin neg m e) (hm : m ≠ 0) : magLe m e f.maxfin.1 f.maxfin.2 = true := by
  by_cases hf : f = .t2
  · subst hf
    obtain ⟨rfl, rfl, -⟩ := decode_t2_eq_fin h hm
    rfl
  obtain ⟨hs, -, hfield⟩ := fields_of_decode_fin hf h
  have hman := f.manField_lt x
  have hex := f.expField_lt x
  cases f with
  | t2 => contradiction
  | e4m3 =>
    have hs : ¬ (e4m3.expField x = 15 ∧ e4m3.manField x = 7) := hs
    simp only [mbits, ebits, qmin, eminN, bias] at hman hex hfield
    obtain h14 | h15 : m ≤ 14 ∨ m = 15 := by omega
    · exact magLe_of_le_mul_two_pow (k := 1) (by simp only [maxfin]; omega) (by simpa [maxfin] using h14)
    · exact magLe_of_le_mul_two_pow (k := 2) (by simp only [maxfin]; omega) (by simp [maxfin, h15])
  | _ =>
    simp only [Special, mbits, ebits, qmin, eminN, bias] at hs hman hex hfield
    exact magLe_of_le_mul_two_pow (k := 0) (by simp only [maxfin]; omega) (by simp only [maxfin]; omega)

/-! #### Encoding -/

theorem encFin_subnormal {f : Format} (hf : f ≠ .t2) (neg : Bool) {m : Nat} (hm : m ≠ 0) (hlt : m < 2 ^ f.mbits) :
    encFin f neg m f.qmin = signBit f neg + m := by
  have hex : f.qmin + (bitLen m : Int) - 1 < f.eminN := by
    have := bitLen_le hlt
    rw [qmin]; omega
  cases f with
  | t2 => contradiction
  | _ => simp [encFin, hm, hex]

theorem encFin_normal {f : Format} (hf : f ≠ .t2) (neg : Bool) {ex man : Nat} (hex : 0 < ex) (hman : man < 2 ^ f.mbits) :
    encFin f neg (2 ^ f.mbits + man) (((ex - 1 : Nat) : Int) + f.qmin) = signBit f neg + ex * 2 ^ f.mbits + man := by
  have hlen := bitLen_two_pow_add hman
  have hnorm : ¬ ((ex - 1 : Nat) : Int) + f.qmin + (f.mbits + 1 : Nat) - 1 < f.eminN := by
    rw [qmin]; omega
  have hbias : (((ex - 1 : Nat) : Int) + f.qmin + (f.mbits + 1 : Nat) - 1 + f.bias).toNat = ex := by
    rw [qmin, eminN]; omega
  have hne : 2 ^ f.mbits + man ≠ 0 := Nat.ne_of_gt (Nat.add_pos_left (Nat.two_pow_pos _) man)
  cases f with
  | t2 => contradiction
  | _ =>
    simp only [encFin, if_neg hne, hlen, if_neg hnorm, hbias, Nat.le_refl, if_true, Nat.sub_self,
      Nat.shiftLeft_eq, Nat.pow_zero, Nat.mul_one, Nat.add_sub_cancel_left]

/-- A finite nonzero element is encoded by the code it was decoded from. -/
theorem encFin_of_decode_fin {f : Format} {x : Nat} {neg : Bool} {m : Nat} {e : Int} (hx : x < 2 ^ f.width)
    (h : decode f x = .fin neg m e) (hm : m ≠ 0) : encFin f neg m e = x := by
  by_cases hf : f = .t2
  · subst hf
    obtain ⟨rfl, rfl, hcode⟩ := decode_t2_eq_fin h hm
    rw [Nat.mod_eq_of_lt (show x < 4 from hx)] at hcode
    rw [hcode]
    rfl
  obtain ⟨-, rfl, hsub | hnorm⟩ := fields_of_decode_fin hf h
  · obtain ⟨hex, rfl, rfl⟩ := hsub
    rw [encFin_subnormal hf _ hm (f.manField_lt x)]
    simpa [hex] using sum_fields hf hx
  · obtain ⟨hex, rfl, rfl⟩ := hnorm
    rw [encFin_normal hf _ hex (f.manField_lt x), sum_fields hf hx]

/-! #### The conversion procedure (R124) -/

/-- An unscaled zero gives +0 and counts nothing (R130). -/
theorem cvt_zero (src d : Format) (neg : Bool) (e : Int) (ovf : Ovf) (dir : Dir) :
    cvt src (.fin neg 0 e) d ovf dir .none_ = (0, .none_) := by
  have hsub : isSub src (.fin neg 0 e) = false := by cases src <;> rfl
  simp [cvt, hsub]

/-- A subnormal of FP32 or FP64 gives +0 and counts one subflush (R129). -/
theorem cvt_of_isSub {src : Format} {neg : Bool} {m : Nat} {e : Int} (d : Format) (ovf : Ovf) (dir : Dir)
    (h : isSub src (.fin neg m e) = true) : cvt src (.fin neg m e) d ovf dir .none_ = (0, .sub1) := by
  simp [cvt, h]

/-- FP32 and FP64 magnitudes below the smallest normal one are flushed, and no other (R129). -/
theorem isSub_iff (f : Format) (neg : Bool) (m : Nat) (e : Int) :
    isSub f (.fin neg m e) = true ↔ f.Flushes ∧ m ≠ 0 ∧ e + (bitLen m : Int) - 1 < f.eminN := by
  cases f <;> simp [isSub, Flushes]

/-- A finite element is flushed exactly where its format flushes subnormals and its exponent field is zero. -/
theorem isSub_iff_of_decode_fin {f : Format} {x : Nat} {neg : Bool} {m : Nat} {e : Int} (h : decode f x = .fin neg m e)
    (hm : m ≠ 0) : isSub f (.fin neg m e) = true ↔ f.Flushes ∧ f.expField x = 0 := by
  rw [isSub_iff, and_congr_right_iff]
  intro hflush
  have hf : f ≠ .t2 := by rintro rfl; simp [Flushes] at hflush
  obtain ⟨-, -, ⟨hex, rfl, rfl⟩ | ⟨hex, rfl, rfl⟩⟩ := fields_of_decode_fin hf h
  · have hlen := bitLen_le (f.manField_lt x)
    simp only [hex, hm, ne_eq, not_false_eq_true, true_and, iff_true, qmin]
    omega
  · have hlen := bitLen_two_pow_add (f.manField_lt x)
    simp only [hlen, Nat.ne_of_gt hex, iff_false, qmin]
    omega

/-- A finite element that is not flushed rounds to itself in its own format, in every direction. -/
theorem roundMag_of_decode_fin {f : Format} {x : Nat} {neg : Bool} {m : Nat} {e : Int} (dir : Dir)
    (h : decode f x = .fin neg m e) (hm : m ≠ 0) (hsub : ¬ isSub f (.fin neg m e) = true) :
    roundMag (f.mbits + 1) (if f.Flushes then none else some f.qmin) dir m e = (m, e, false) := by
  by_cases hf : f = .t2
  · subst hf
    obtain ⟨rfl, rfl, -⟩ := decode_t2_eq_fin h hm
    exact roundMag_of_full dir rfl (by decide)
  rw [isSub_iff_of_decode_fin h hm] at hsub
  obtain ⟨-, -, ⟨hex, rfl, rfl⟩ | ⟨hex, rfl, rfl⟩⟩ := fields_of_decode_fin hf h
  · have hkeep : ¬ f.Flushes := fun hflush => hsub ⟨hflush, hex⟩
    rw [if_neg hkeep]
    exact roundMag_of_finest dir (Nat.lt_succ_of_le (bitLen_le (f.manField_lt x)))
  · refine roundMag_of_full dir (bitLen_two_pow_add (f.manField_lt x)) fun k hk => ?_
    split at hk
    · simp at hk
    · rw [← Option.mem_some.1 hk]; omega

/-- An unscaled magnitude that is not flushed, rounds to itself and is in range is encoded as it is and counts nothing. -/
theorem cvt_of_exact {f : Format} {neg : Bool} {m : Nat} {e : Int} (ovf : Ovf) (dir : Dir) (hm : m ≠ 0)
    (hsub : ¬ isSub f (.fin neg m e) = true)
    (hround : roundMag (f.mbits + 1) (if f.Flushes then none else some f.qmin) dir m e = (m, e, false))
    (hmax : magLe m e f.maxfin.1 f.maxfin.2 = true) :
    cvt f (.fin neg m e) f ovf dir .none_ = (encFin f neg m e, .none_) := by
  have hwide : ¬ ((f = .fp32 ∨ f = .fp64) ∧ m ≠ 0 ∧ e + (bitLen m : Int) - 1 < f.eminN) := by rwa [← isSub_iff f neg]
  simp only [cvt, hsub, hm, hround, hmax, hwide, if_false, Bool.not_true, Bool.false_eq_true]

/-- A NaN gives the canonical NaN of the destination and counts one NaN, under every scale (R128). -/
theorem cvt_nan (src d : Format) (ovf : Ovf) (dir : Dir) (s : Scale) : cvt src .nan d ovf dir s = (encNan d, .nan1) := by
  cases s <;> rfl

/-- A NaN stays a NaN under every scale (R119, R120). -/
@[simp] theorem Scale.apply_nan (s : Scale) : s.apply .nan = .nan := by cases s <;> rfl

/-! #### The statements of 04 -/

theorem nansConvertToTheCanonicalNan : Rules.NansConvertToTheCanonicalNan := by
  intro src d code ovf dir ss sd hnan
  rw [hnan, Scale.apply_nan, cvt_nan]
  cases d <;> rfl

/-- The statement's flushed codes, by their fields. -/
theorem subnormal_code_iff (f : Format) (x : Nat) :
    (f = .fp32 ∧ x / 2 ^ 23 % 2 ^ 8 = 0) ∨ (f = .fp64 ∧ x / 2 ^ 52 % 2 ^ 11 = 0) ↔ f.Flushes ∧ f.expField x = 0 := by
  cases f <;> simp [Flushes, expField, mbits, ebits]

theorem elementsConvertToThemselves : Rules.ElementsConvertToThemselves := by
  intro f code neg m e ovf dir hcode h _
  rw [h]
  by_cases hm : m = 0
  · subst hm
    exact cvt_zero f f neg e ovf dir
  have hflushed := (isSub_iff_of_decode_fin h hm).trans (subnormal_code_iff f code).symm
  rw [if_neg hm]
  split
  case isTrue hcond => exact cvt_of_isSub f ovf dir (hflushed.2 hcond)
  case isFalse hcond =>
    have hsub := mt hflushed.1 hcond
    rw [cvt_of_exact ovf dir hm hsub (roundMag_of_decode_fin dir h hm hsub) (magLe_maxfin_of_decode_fin h hm),
      encFin_of_decode_fin hcode h hm]
    rfl

/-- Settles O60: a NaN by the first case of the procedure; an element because it lies on the grid of its own format, so it
rounds to itself and its code is rebuilt from its fields. -/
theorem conversionsKeepValuesAndNans : Obligations.ConversionsKeepValuesAndNans :=
  ⟨nansConvertToTheCanonicalNan, elementsConvertToThemselves⟩

end Sys2Proof.Machine

namespace Sys2Proof.Machine

/-! ### One operation arriving at its object, and what a read returns (10 R254, R256) -/

/-! #### A flight that is alone in its region -/

/-- The one flight of a region that moves, once due, is processed at its object and leaves the list. -/
theorem exec_syncOpArrival_alone {s : State} {r : RegionId} {f : SyncFlight} (hrun : (s.region r).frozen = false)
    (hf : (s.region r).flights = [f]) (hdue : f.due ≤ (s.region r).cycle) :
    exec (.syncOpArrival r f.obj) s =
      .next (processObject r f.obj [f] (s.setRegion r { s.region r with flights := [] })) := by
  have hfirst : firstDue [f] f.obj (s.region r).cycle = some f.due := by simp [firstDue, hdue]
  simp [execSyncOpArrival, hrun, hf, hfirst]

/-- One flight at a block in service goes through the steps of R254 in turn. -/
theorem processObject_singleton {r : RegionId} {o : BitVec 16} {f : SyncFlight} {s u : State}
    (hs : s.stale 2 (o.toNat / 256) = false) (hu : waitFlight r f (applyFlight r f (touch r o s)) = u) :
    processObject r o [f] s =
      answerFlight r (!(s.region r).touched.any (fun q => q.1 == o.toNat)) f
        (serve r o (u.setObj o ((u.obj o).sortWaits (s.obj o).waiters.length))) := by
  subst hu
  simp [processObject, hs, insertFlight]

/-! #### An object nothing waits at -/

theorem SyncObj.sortWaits_of_waiters_nil {x : SyncObj} (h : x.waiters = []) (n : Nat) : x.sortWaits n = x := by
  obtain ⟨⟩ := x
  cases h
  simp [SyncObj.sortWaits]

theorem serve_of_waiters_nil {r : RegionId} {o : BitVec 16} {s : State} (h : (s.obj o).waiters = []) :
    serve r o s = s := by
  simp [serve, serveWaits, h]

@[simp] theorem State.obj_setRegion (s : State) (r : RegionId) (g : Region) (o : BitVec 16) :
    (s.setRegion r g).obj o = s.obj o := rfl

@[simp] theorem State.stale_setRegion (s : State) (r : RegionId) (g : Region) (cls idx : Nat) :
    (s.setRegion r g).stale cls idx = s.stale cls idx := rfl

@[simp] theorem obj_touch (r : RegionId) (o q : BitVec 16) (s : State) : (touch r o s).obj q = s.obj q := rfl

/-! #### A read -/

/-- Only step 3 of R254 concerns a read: the steps before it leave the state. -/
theorem applyFlight_sread {r : RegionId} {f : SyncFlight} {rd : BitVec 5} (hk : f.kind = .sread rd) (s : State) :
    applyFlight r f s = s := by
  simp [applyFlight, hk]

theorem waitFlight_sread {r : RegionId} {f : SyncFlight} {rd : BitVec 5} (hk : f.kind = .sread rd) (s : State) :
    waitFlight r f s = s := by
  simp [waitFlight, hk]

theorem answerFlight_sread {r : RegionId} {alone : Bool} {f : SyncFlight} {t : TileId} {pc : BitVec 11} {rd : BitVec 5}
    (hsrc : f.src = .op t pc) (hk : f.kind = .sread rd) (s : State) :
    answerFlight r alone f s =
      s.core t (fun c => c.setReg rd.toNat (s.obj f.obj).read (f.due - 10) (f.due + 10)) := by
  simp only [answerFlight, hk, hsrc]
  rfl

/-- A read of an object nothing waits at: the arrival is noted, and what the object reads as goes into the register. -/
theorem processObject_sread {r : RegionId} {f : SyncFlight} {t : TileId} {pc : BitVec 11} {rd : BitVec 5} {s : State}
    (hsrc : f.src = .op t pc) (hk : f.kind = .sread rd) (hs : s.stale 2 (f.obj.toNat / 256) = false)
    (hw : (s.obj f.obj).waiters = []) :
    processObject r f.obj [f] s = ((touch r f.obj s).setObj f.obj (s.obj f.obj)).core t
      (fun c => c.setReg rd.toNat (s.obj f.obj).read (f.due - 10) (f.due + 10)) := by
  have hsteps : waitFlight r f (applyFlight r f (touch r f.obj s)) = touch r f.obj s := by
    rw [applyFlight_sread hk, waitFlight_sread hk]
  rw [processObject_singleton hs hsteps, obj_touch, SyncObj.sortWaits_of_waiters_nil hw,
    serve_of_waiters_nil (by simpa using hw), answerFlight_sread hsrc hk, State.obj_setObj, if_pos rfl]

/-! #### The word a read returns (R256) -/

theorem SyncObj.toNat_read_counter {x : SyncObj} (h : x.bar = false) : x.read.toNat = x.value.toNat := by
  have hv := x.value.isLt
  simp only [SyncObj.read, h, Bool.false_eq_true, if_false, BitVec.toNat_setWidth]
  omega

/-- For a barrier SENSE stands as one binary digit above the remaining arrivals. -/
theorem SyncObj.toNat_read_barrier {x : SyncObj} (h : x.bar = true) :
    x.read.toNat = 2 ^ 16 * x.sense.toNat + x.value.toNat := by
  have hv := x.value.isLt
  have hmod : x.value.toNat % 2 ^ 32 = x.value.toNat := by omega
  rw [Nat.two_pow_add_eq_or_of_lt hv, Nat.or_comm]
  cases hsense : x.sense <;>
    simp only [SyncObj.read, h, hsense, if_true, Bool.false_eq_true, if_false, BitVec.toNat_or, BitVec.toNat_setWidth, hmod] <;>
    rfl

/-- The fields of the word a barrier reads as. -/
theorem SyncObj.read_barrier_fields {x : SyncObj} (h : x.bar = true) :
    x.read.toNat % 2 ^ 16 = x.value.toNat ∧ x.read.getLsbD 16 = x.sense ∧ x.read.toNat / 2 ^ 17 = 0 := by
  have hv := x.value.isLt
  have hsense := x.sense.toNat_le
  have hread := SyncObj.toNat_read_barrier h
  refine ⟨by omega, ?_, by omega⟩
  have hdigit : x.read.toNat / 2 ^ 16 = x.sense.toNat := by omega
  rw [BitVec.getLsbD, Nat.testBit_eq_decide_div_mod_eq, hdigit]
  cases x.sense <;> rfl

/-- Settles O23: the read passes the other steps of its region cycle unchanged, and the word is read off digit by digit. -/
theorem sreadReturnsTheCounterOrTheBarrier : Obligations.SreadReturnsTheCounterOrTheBarrier := by
  intro s r f t pc rd hrun hf hdue hsrc hk hstale x hw
  refine ⟨x.read, ?_, SyncObj.toNat_read_counter, SyncObj.read_barrier_fields⟩
  rw [exec_syncOpArrival_alone hrun hf hdue, processObject_sread hsrc hk, State.obj_setRegion]
  · rwa [State.stale_setRegion]
  · rwa [State.obj_setRegion]

end Sys2Proof.Machine

namespace Sys2Proof.Machine
open Sys2Proof

/-- What the units of the part leave alone: the queue of waiting commands, the count of wall cycles, and the fuses. -/
def State.held (s : State) : List Instr × Nat × Fuses := (s.pending, s.wall, s.fuses)

@[simp] theorem State.held_mk (pending wall beats beatAt free order tiles undo hw scrubPass tilesAt objs regions ports fuses
    frame units hub ident cad power resets mem parity stopped) :
    State.held ⟨pending, wall, beats, beatAt, free, order, tiles, undo, hw, scrubPass, tilesAt, objs, regions, ports, fuses,
      frame, units, hub, ident, cad, power, resets, mem, parity, stopped⟩ = (pending, wall, fuses) := by
  simp only [State.held]

@[simp] theorem State.held_mk_eta (s : State) : (s.pending, s.wall, s.fuses) = s.held := by
  simp only [State.held]

/-- A fold whose steps leave a reading alone leaves it alone. -/

theorem foldl_inv {σ α β : Type} {P : σ → β} {f : σ → α → σ} (h : ∀ a x, P (f a x) = P a) (l : List α) (a : σ) :
    P (l.foldl f a) = P a := by
  induction l generalizing a with
  | nil => rfl
  | cons x l ih => rw [List.foldl_cons, ih, h]

@[simp] theorem foldl_held {α : Type} {f : State → α → State} (h : ∀ u x, (f u x).held = u.held) (l : List α) (s : State) :
    (l.foldl f s).held = s.held := foldl_inv h l s

@[simp] theorem foldl_snd_held {α β : Type} {f : β × State → α → β × State} (h : ∀ a x, (f a x).2.held = a.2.held)
    (l : List α) (a : β × State) : (l.foldl f a).2.held = a.2.held := foldl_inv (P := fun a => a.2.held) h l a

@[simp] theorem ite_held {c : Prop} [Decidable c] (a b : State) :
    (if c then a else b).held = if c then a.held else b.held := apply_ite _ _ _ _

/-- What stands after an outcome that is a next state. -/
def heldAfter : Host.Outcome State Fault Refusal → Option (List Instr × Nat × Fuses)
  | .next u => some u.held
  | _ => none

@[simp] theorem heldAfter_next (u : State) : heldAfter (.next u) = some u.held := rfl

@[simp] theorem heldAfter_ite {c : Prop} [Decidable c] (a b : Host.Outcome State Fault Refusal) :
    heldAfter (if c then a else b) = if c then heldAfter a else heldAfter b := apply_ite _ _ _ _

/-- The state that an operation hands on has what `s` had. -/
def Act.Keeps (s : State) : Act → Prop
  | .done u _ => u.held = s.held
  | .fault u _ _ => u.held = s.held
  | .block _ => True

@[simp] theorem Act.keeps_done (s u : State) (f) : (Act.done u f).Keeps s ↔ u.held = s.held := Iff.rfl

@[simp] theorem Act.keeps_fault (s u : State) (c d) : (Act.fault u c d).Keeps s ↔ u.held = s.held := Iff.rfl

@[simp] theorem Act.keeps_block (s : State) (n) : (Act.block n).Keeps s := trivial

@[simp] theorem Act.keeps_ok (s u : State) : (Act.ok u).Keeps s ↔ u.held = s.held := Iff.rfl

@[simp] theorem Act.keeps_ite {c : Prop} [Decidable c] (s : State) (a b : Act) :
    (if c then a else b).Keeps s ↔ if c then a.Keeps s else b.Keeps s := by split <;> rfl

/-- The state of a result that has a name. -/

theorem held_of_eq {α : Type} {p : α × State} {a : α} {u s : State} (h : p = (a, u)) (hp : p.2.held = s.held) :
    u.held = s.held := by
  rw [h] at hp; exact hp

theorem held_of_eq₃ {α β : Type} {p : α × β × State} {a : α} {b : β} {u s : State} (h : p = (a, b, u))
    (hp : p.2.2.held = s.held) : u.held = s.held := by
  rw [h] at hp; exact hp

@[simp] theorem State.setRegion_held (s : State) (r : RegionId) (x : Region) : (s.setRegion r x).held = s.held := by
  rw [← State.held_mk_eta]; simp

@[simp] theorem State.modRegion_held (s : State) (r : RegionId) (f : Region → Region) : (s.modRegion r f).held = s.held := by
  rw [← State.held_mk_eta]; simp

@[simp] theorem State.setTile_held (s : State) (t : TileId) (x : Tile) : (s.setTile t x).held = s.held := by
  rw [← State.held_mk_eta]; simp

@[simp] theorem State.modTile_held (s : State) (t : TileId) (f : Tile → Tile) : (s.modTile t f).held = s.held := by
  rw [← State.held_mk_eta]; simp

@[simp] theorem State.modHw_held (s : State) (t : TileId) (f : TileHw → TileHw) : (s.modHw t f).held = s.held := by
  rw [← State.held_mk_eta]; simp

@[simp] theorem State.setObj_held (s : State) (o : BitVec 16) (x : SyncObj) : (s.setObj o x).held = s.held := by
  rw [← State.held_mk_eta]; simp

@[simp] theorem State.setPort_held (s : State) (p : PortId) (x : Port) : (s.setPort p x).held = s.held := by
  rw [← State.held_mk_eta]; simp

@[simp] theorem State.modPort_held (s : State) (p : PortId) (f : Port → Port) : (s.modPort p f).held = s.held := by
  rw [← State.held_mk_eta]; simp

@[simp] theorem State.msixSend_held (s : State) (a b : Nat) : (s.msixSend a b).held = s.held := by
  rw [← State.held_mk_eta]; simp

@[simp] theorem State.hubEvent_held (s : State) (b : Nat) : (s.hubEvent b).held = s.held := by
  rw [← State.held_mk_eta]; simp

@[simp] theorem State.cadEvent_held (s : State) (b : Nat) : (s.cadEvent b).held = s.held := by
  rw [← State.held_mk_eta]; simp

@[simp] theorem State.portEvent_held (s : State) (p : PortId) (b : Nat) : (s.portEvent p b).held = s.held := by
  rw [← State.held_mk_eta]; simp

@[simp] theorem State.regionEvent_held (s : State) (r : RegionId) (b : Nat) : (s.regionEvent r b).held = s.held := by
  rw [← State.held_mk_eta]; simp

@[simp] theorem State.mbxDoneVf_held (s : State) (r : RegionId) : (s.mbxDoneVf r).held = s.held := by
  rw [← State.held_mk_eta]; simp

@[simp] theorem State.fwEvent_held (s : State) (r : RegionId) (b : Nat) : (s.fwEvent r b).held = s.held := by
  rw [← State.held_mk_eta]; simp

@[simp] theorem State.beginHalt_held (s : State) (r : RegionId) : (s.beginHalt r).held = s.held := by
  rw [← State.held_mk_eta]; simp

@[simp] theorem State.raise_held (s : State) (r : RegionId) (t : Option TileId) (x : Option (Slot × BitVec 11)) (c d : Nat) :
    (s.raise r t x c d).held = s.held := by
  rw [← State.held_mk_eta]; simp

@[simp] theorem State.hazard_held (s : State) (r : RegionId) (t : TileId) (x : Option (Slot × BitVec 11)) (c d : Nat) :
    (s.hazard r t x c d).held = s.held := by
  rw [← State.held_mk_eta]; simp

@[simp] theorem State.readEcc_held (s : State) (t : TileId) (row : Nat) : (s.readEcc t row).held = s.held := by
  rw [← State.held_mk_eta]; simp

@[simp] theorem State.useBank_held (s : State) (r : RegionId) (t : TileId) (row : Nat) (w : Bool)
    (x : Option (Slot × BitVec 11)) : (s.useBank r t row w x).2.held = s.held := by
  rw [← State.held_mk_eta]; simp

@[simp] theorem State.noteLead_held (s : State) (r : RegionId) (t : TileId) (row : Nat) (x : Option (Slot × BitVec 11)) :
    (s.noteLead r t row x).2.held = s.held := by
  rw [← State.held_mk_eta]; simp

@[simp] theorem State.takeRow_held (s : State) (t : TileId) (row : Nat) (b : Bool) : (s.takeRow t row b).2.2.held = s.held := by
  rw [← State.held_mk_eta]; simp

@[simp] theorem State.readSched_held (s : State) (r : RegionId) (t : TileId) (row : Nat) (x : Option (Slot × BitVec 11)) :
    (s.readSched r t row x).2.2.held = s.held := by
  rw [← State.held_mk_eta]; simp

@[simp] theorem State.readRow_held (s : State) (r : RegionId) (t : TileId) (row n : Nat) (x : Option (Slot × BitVec 11)) :
    (s.readRow r t row n x).2.2.held = s.held := by
  rw [← State.held_mk_eta]; simp

@[simp] theorem State.writeRow_held (s : State) (r : RegionId) (t : TileId) (row : Nat) (v : Row)
    (x : Option (Slot × BitVec 11)) : (s.writeRow r t row v x).held = s.held := by
  rw [← State.held_mk_eta]; simp

@[simp] theorem State.readFree_held (s : State) (r : RegionId) (t : TileId) (row : Nat) (x : Option (Slot × BitVec 11)) :
    (s.readFree r t row x).2.2.held = s.held := by
  rw [← State.held_mk_eta]; simp

@[simp] theorem State.noteClear_held (s : State) (r : RegionId) (t : TileId) : (s.noteClear r t).held = s.held := by
  rw [← State.held_mk_eta]; simp

@[simp] theorem State.undoBundle_held (s : State) (r : RegionId) (t : TileId) : (s.undoBundle r t).held = s.held := by
  rw [← State.held_mk_eta]; simp

@[simp] theorem State.draw_held (w) (s : State) : (State.draw s w).2.held = s.held := by
  simp [State.draw]

@[simp] theorem State.parityClean_held (p) (s : State) : (State.parityClean s p).held = s.held := by
  simp [State.parityClean]

@[simp]
theorem State.regionClean_held (r space place) (s : State) : (State.regionClean s r space place).held = s.held := by
  simp [State.regionClean]

@[simp] theorem State.flushHazards_held (r) (s : State) : (State.flushHazards s r).held = s.held := by
  simp [State.flushHazards]

@[simp] theorem State.writeFree_held (t row v) (s : State) : (State.writeFree s t row v).held = s.held := by
  simp [State.writeFree]

@[simp] theorem Site.tile_held (i f) (s : State) : (Site.tile i s f).held = s.held := by
  simp [Site.tile]

@[simp] theorem Site.ctl_held (i f) (s : State) : (Site.ctl i s f).held = s.held := by
  simp [Site.ctl]

@[simp] theorem State.beginBundle_held (r t) (s : State) : (State.beginBundle s r t).held = s.held := by
  unfold State.beginBundle
  grind [State.held, foldl_held, foldl_snd_held, State.raise_held, State.modHw_held, State.setTile_held]

theorem settleSlot_held {i mode a} {s : State} (h : a.Keeps s) : (settleSlot i mode a s).held = s.held := by
  unfold settleSlot; dsimp only; split <;> simp_all

@[simp] theorem closeBundle_held (i flow) (s : State) : (closeBundle i flow s).held = s.held := by
  simp [closeBundle]

@[simp] theorem State.opened_held (r t) (s : State) : (State.opened s r t).held = s.held := by
  unfold State.opened
  split <;> simp

theorem slotOp_held {slot op t w} {enc : Site → State → Option (Nat × Nat)} {act : Site → State → Act}
    (h : ∀ i u, (act i u).Keeps u) (s : State) : (slotOp slot op t w enc act s).held = s.held := by
  have ha : ∀ i u, (slotAct enc act i u).Keeps u := fun i u => by
    unfold slotAct; split
    · simp
    · split <;> simp [h]
  unfold slotOp; dsimp only; repeat' split
  all_goals simp [settleSlot_held (ha _ _)]

@[simp] theorem rowCheck_keeps {i rows} {s u : State} {k : Unit → Act} (h : (k ()).Keeps s) (hu : u.held = s.held) :
    (rowCheck i u rows k).Keeps s := by
  unfold rowCheck; dsimp only; repeat' split
  all_goals simp [h, hu]

@[simp] theorem entryCheck_keeps {i n row} {s u : State} {k : Unit → Act} (h : (k ()).Keeps s) (hu : u.held = s.held) :
    (entryCheck i u n row k).Keeps s := by
  unfold entryCheck; repeat' split
  all_goals simp [h, hu]

@[simp] theorem putReg_keeps (i rd v lat) (s : State) : (putReg i rd v lat s).Keeps s := by
  simp [putReg]

@[simp] theorem immOp_held (t w op f) (s : State) : (immOp t w op f s).held = s.held := by
  unfold immOp; exact slotOp_held (fun i u => by simp) s

@[simp] theorem execNop_held (t slot w) (s : State) : heldAfter (execNop t slot w s) = some s.held := by
  refine congrArg some (slotOp_held (fun i u => ?_) s)
  simp

@[simp] theorem execAlu_held (t w) (s : State) : heldAfter (execAlu t w s) = some s.held := by
  refine congrArg some (slotOp_held (fun i u => ?_) s)
  simp

@[simp] theorem execAddi_held (t w) (s : State) : heldAfter (execAddi t w s) = some s.held := by
  simp [execAddi]

@[simp] theorem execAndi_held (t w) (s : State) : heldAfter (execAndi t w s) = some s.held := by
  simp [execAndi]

@[simp] theorem execOri_held (t w) (s : State) : heldAfter (execOri t w s) = some s.held := by
  simp [execOri]

@[simp] theorem execXori_held (t w) (s : State) : heldAfter (execXori t w s) = some s.held := by
  simp [execXori]

@[simp] theorem execShi_held (t w) (s : State) : heldAfter (execShi t w s) = some s.held := by
  refine congrArg some (slotOp_held (fun i u => ?_) s)
  simp

@[simp] theorem execLui_held (t w) (s : State) : heldAfter (execLui t w s) = some s.held := by
  refine congrArg some (slotOp_held (fun i u => ?_) s)
  simp

@[simp] theorem execSetp_held (t w) (s : State) : heldAfter (execSetp t w s) = some s.held := by
  refine congrArg some (slotOp_held (fun i u => ?_) s)
  simp

@[simp] theorem execPlog_held (t w) (s : State) : heldAfter (execPlog t w s) = some s.held := by
  refine congrArg some (slotOp_held (fun i u => ?_) s)
  simp

@[simp] theorem execBr_held (t w) (s : State) : heldAfter (execBr t w s) = some s.held := by
  refine congrArg some (slotOp_held (fun i u => ?_) s)
  simp

@[simp] theorem execCall_held (t w) (s : State) : heldAfter (execCall t w s) = some s.held := by
  refine congrArg some (slotOp_held (fun i u => ?_) s)
  simp

@[simp] theorem execJr_held (t w) (s : State) : heldAfter (execJr t w s) = some s.held := by
  refine congrArg some (slotOp_held (fun i u => ?_) s)
  simp

@[simp] theorem loopStart_keeps (i n) (s : State) : (loopStart i n s).Keeps s := by
  unfold loopStart; dsimp only; split <;> simp

@[simp] theorem execLoopi_held (t w) (s : State) : heldAfter (execLoopi t w s) = some s.held := by
  refine congrArg some (slotOp_held (fun i u => ?_) s)
  simp

@[simp] theorem execLoopr_held (t w) (s : State) : heldAfter (execLoopr t w s) = some s.held := by
  refine congrArg some (slotOp_held (fun i u => ?_) s)
  simp

@[simp] theorem putFlags_held (i fl lat) (s : State) : (putFlags i fl lat s).held = s.held := by
  simp [putFlags]

@[simp] theorem execFop_held (t w) (s : State) : heldAfter (execFop t w s) = some s.held := by
  refine congrArg some (slotOp_held (fun i u => ?_) s)
  dsimp only; split <;> simp [putReg]

@[simp] theorem execDop_held (t w) (s : State) : heldAfter (execDop t w s) = some s.held := by
  refine congrArg some (slotOp_held (fun i u => ?_) s)
  dsimp only; split <;> simp [putReg]

@[simp] theorem execFsetp_held (t w) (s : State) : heldAfter (execFsetp t w s) = some s.held := by
  refine congrArg some (slotOp_held (fun i u => ?_) s)
  simp

@[simp] theorem execMfc_held (t w) (s : State) : heldAfter (execMfc t w s) = some s.held := by
  refine congrArg some (slotOp_held (fun i u => ?_) s)
  dsimp only; split
  · simp
  · simp [putReg]

@[simp] theorem execMtc_held (t w) (s : State) : heldAfter (execMtc t w s) = some s.held := by
  refine congrArg some (slotOp_held (fun i u => ?_) s)
  simp

@[simp] theorem execRowld_held (t w) (s : State) : heldAfter (execRowld t w s) = some s.held := by
  refine congrArg some (slotOp_held (fun i u => ?_) s)
  dsimp only; split
  · simp
  · refine rowCheck_keeps ?_ rfl
    split
    · next h => simpa using held_of_eq₃ h (State.readRow_held ..)
    · next h => simpa using held_of_eq₃ h (State.readRow_held ..)

@[simp] theorem execRowst_held (t w) (s : State) : heldAfter (execRowst t w s) = some s.held := by
  refine congrArg some (slotOp_held (fun i u => ?_) s)
  dsimp only
  repeat' split
  all_goals simp

@[simp] theorem execLdw_held (t w) (s : State) : heldAfter (execLdw t w s) = some s.held := by
  refine congrArg some (slotOp_held (fun i u => ?_) s)
  simp

@[simp] theorem execStw_held (t w) (s : State) : heldAfter (execStw t w s) = some s.held := by
  refine congrArg some (slotOp_held (fun i u => ?_) s)
  simp

@[simp] theorem channelPhase_keeps {i} {s u : State} {k : Unit → Act} (h : (k ()).Keeps s) (hu : u.held = s.held) :
    (channelPhase i u k).Keeps s := by
  unfold channelPhase; split <;> simp [h, hu]

@[simp] theorem creditBack_held (src ch) (s : State) : (creditBack src ch s).held = s.held := by
  simp [creditBack]

@[simp] theorem returnCredit_held (r t x) (s : State) : (returnCredit r t x s).held = s.held := by
  unfold returnCredit
  split <;> simp

@[simp] theorem flushCredits_held (r) (s : State) : (flushCredits r s).held = s.held := by
  simp [flushCredits]

theorem popPort_held {r t q} {s : State} {x} (h : popPort r t q s = some x) : x.2.held = s.held := by
  unfold popPort at h; dsimp only at h; split at h
  · cases h
  · cases h; simp

@[simp] theorem execCqrd_held (t w) (s : State) : heldAfter (execCqrd t w s) = some s.held := by
  refine congrArg some (slotOp_held (fun i u => channelPhase_keeps ?_ rfl) s)
  dsimp only; split
  · simp
  · split
    · simp
    · next h => simpa using popPort_held h

@[simp] theorem noteComplete_held (r) (s : State) : (noteComplete r s).held = s.held := by
  simp [noteComplete]

@[simp] theorem execEndOp_held (t w) (s : State) : heldAfter (execEndOp t w s) = some s.held := by
  refine congrArg some (slotOp_held (fun i u => ?_) s)
  simp

@[simp] theorem State.modLane_held (p v f) (s : State) : (State.modLane s p v f).held = s.held := by
  simp [State.modLane]

@[simp] theorem State.queueTxn_held (p v k x) (s : State) : (State.queueTxn s p v k x).held = s.held := by
  simp [State.queueTxn]

@[simp] theorem State.sendTxn_held (r p k code flags ddev args data) (s : State) :
    (State.sendTxn s r p k code flags ddev args data).held = s.held := by
  unfold State.sendTxn
  split <;> simp

@[simp] theorem chargeSync_held (r src code detail) (s : State) : (chargeSync r src code detail s).held = s.held := by
  unfold chargeSync
  split <;> simp

@[simp] theorem misuse_held (r o src) (s : State) : (misuse r o src s).held = s.held := by
  simp [misuse]

@[simp] theorem touch_held (r o) (s : State) : (touch r o s).held = s.held := by
  simp [touch]

theorem reach_held (r o src) {k : State → State} (hk : ∀ u, (k u).held = u.held) (s : State) :
    (reach r o src k s).held = s.held := by
  unfold reach; split <;> simp [hk]

@[simp] theorem addSignal_held (r o src n) (s : State) : (addSignal r o src n s).held = s.held := by
  simp [addSignal]

@[simp] theorem wakeWaiter_held (r w) (s : State) : (wakeWaiter r w s).held = s.held := by
  unfold wakeWaiter
  split <;> simp

@[simp] theorem serveWaits_held (r o n) (s : State) : (serveWaits r o n s).held = s.held := by
  induction n generalizing s with
  | zero => rfl
  | succ n ih => unfold serveWaits; dsimp only; repeat' split
                 all_goals simp [ih]

@[simp] theorem serve_held (r o) (s : State) : (serve r o s).held = s.held := by
  simp [serve]

@[simp] theorem appendWait_held (r o src who n) (s : State) : (appendWait r o src who n s).held = s.held := by
  simp [appendWait]

@[simp] theorem releaseChildren_held (r o) (s : State) : (releaseChildren r o s).held = s.held := by
  simp [releaseChildren]

@[simp] theorem releaseExchange_held (r o l) (s : State) : (releaseExchange r o l s).held = s.held := by
  unfold releaseExchange
  grind [State.held, foldl_held, foldl_snd_held, State.modRegion_held, State.raise_held]

@[simp] theorem fwCommit_held (r o) (s : State) : (fwCommit r o s).held = s.held := by
  simp [fwCommit]

@[simp] theorem releaseBarrier_held (r o l) (s : State) : (releaseBarrier r o l s).held = s.held := by
  simp [releaseBarrier]

@[simp] theorem arrive_held (r o src wait name) (s : State) : (arrive r o src wait name s).held = s.held := by
  unfold arrive
  grind [State.held, foldl_held, foldl_snd_held, misuse_held, State.setObj_held, State.modRegion_held,
    State.sendTxn_held, releaseBarrier_held]

@[simp] theorem anySignal_held (r o src) (s : State) : (anySignal r o src s).held = s.held := by
  simp [anySignal]

@[simp] theorem takeSense_held (t o) (s : State) : (takeSense t o s).held = s.held := by
  simp [takeSense]

@[simp] theorem splitWait_held (r o src t) (s : State) : (splitWait r o src t s).held = s.held := by
  simp [splitWait]

@[simp] theorem applyFlight_held (r f) (s : State) : (applyFlight r f s).held = s.held := by
  unfold applyFlight
  split <;> simp

@[simp] theorem waitFlight_held (r f) (s : State) : (waitFlight r f s).held = s.held := by
  unfold waitFlight
  split <;> simp

@[simp] theorem answerFlight_held (r alone f) (s : State) : (answerFlight r alone f s).held = s.held := by
  unfold answerFlight
  split <;> simp

@[simp] theorem processObject_held (r o fs) (s : State) : (processObject r o fs s).held = s.held := by
  simp [processObject]

@[simp] theorem landSignal_held (r o src) (s : State) : (landSignal r o src s).held = s.held :=
  reach_held _ _ _ (fun u => by simp) s

@[simp] theorem landArrival_held (r o) (s : State) : (landArrival r o s).held = s.held :=
  reach_held _ _ _ (fun u => by simp) s

@[simp] theorem meetMark_held (m) (s : State) : (meetMark m s).held = s.held := by
  unfold meetMark
  split <;> simp

@[simp] theorem meetMarks_held (r l) (s : State) : (meetMarks r l s).2.held = s.held := by
  induction l generalizing s with
  | nil => rfl
  | cons m l ih => unfold meetMarks; split <;> simp [ih]

@[simp] theorem brakeLook_held (r) (s : State) : (brakeLook r s).held = s.held := by
  simp [brakeLook]

@[simp] theorem relimit_held (r) (s : State) : (relimit r s).held = s.held := by
  simp [relimit]

@[simp] theorem relimitAll_held (s : State) : (relimitAll s).held = s.held := by
  simp [relimitAll]

@[simp] theorem overLimit_held (r) (s : State) : (overLimit r s).held = s.held := by
  simp [overLimit]

@[simp] theorem markBeat_held (s : State) : (markBeat s).held = s.held := by
  simp [markBeat]

@[simp] theorem loadBeats_held (beat lap) (s : State) : (loadBeats beat lap s).held = s.held := by
  simp [loadBeats]

@[simp] theorem Decl.scales_held (d r t) (s : State) : (Decl.scales d r t s).2.2.held = s.held := by
  unfold Decl.scales
  repeat' split
  all_goals simp

@[simp] theorem writeLate_held (r t d k data) (s : State) : (writeLate r t d k data s).held = s.held := by
  unfold writeLate
  grind [State.held, foldl_held, foldl_snd_held, Decl.scales_held, State.raise_held, State.draw_held,
    State.writeFree_held, State.modTile_held]

@[simp] theorem State.modMail_held (f g) (s : State) : (State.modMail s f g).held = s.held := by
  simp [State.modMail]

@[simp] theorem State.complete_held (f code res0) (s : State) : (State.complete s f code res0).held = s.held := by
  simp [State.complete]

@[simp] theorem State.done_held (f code) (s : State) : (State.done s f code).held = s.held := by
  simp [State.done]

@[simp] theorem State.finish_held (f op code) (s : State) : (State.finish s f op code).held = s.held := by
  simp [State.finish]

@[simp] theorem State.setBuffer_held (f slot b) (s : State) : (State.setBuffer s f slot b).held = s.held := by
  simp [State.setBuffer]

theorem mailCommand_held (op scope named href fn rg tag a) {body : Call → State → State} (hb : ∀ c u, (body c u).held = u.held)
    (s : State) : (mailCommand op scope named href fn rg tag a body s).held = s.held := by
  unfold mailCommand; dsimp only; repeat' split
  all_goals simp [hb]

@[simp] theorem State.doneAll_held (fs code) (s : State) : (State.doneAll s fs code).held = s.held := by
  simp [State.doneAll]

@[simp] theorem State.hostWrite_held (at_ b) (s : State) : (State.hostWrite s at_ b).held = s.held := by
  simp [State.hostWrite]

@[simp] theorem State.freeHandles_held (f) (s : State) : (State.freeHandles s f).held = s.held := by
  simp [State.freeHandles]

@[simp] theorem execBufReg_held (fn rg tag a) (s : State) : heldAfter (execBufReg fn rg tag a s) = some s.held := by
  refine congrArg some (mailCommand_held _ _ _ _ _ _ _ _ (fun c u => ?_) s)
  dsimp only
  repeat' split
  all_goals simp

@[simp] theorem execBufFree_held (fn rg tag a) (s : State) : heldAfter (execBufFree fn rg tag a s) = some s.held := by
  refine congrArg some (mailCommand_held _ _ _ _ _ _ _ _ (fun c u => ?_) s)
  dsimp only
  repeat' split
  all_goals simp

@[simp] theorem endExport_held (r) (s : State) : (endExport r s).held = s.held := by
  simp [endExport]

@[simp] theorem functionReset_held (fn) (s : State) : (functionReset fn s).held = s.held := by
  simp [functionReset]

@[simp] theorem State.veil_held (lo hi) (s : State) : (State.veil s lo hi).held = s.held := by
  simp [State.veil]

@[simp] theorem State.accumulate_held (r bf16 pa b) (s : State) : (State.accumulate s r bf16 pa b).2.held = s.held := by
  unfold State.accumulate
  split <;> simp

@[simp] theorem State.translate_held (r va kind) (s : State) : (State.translate s r va kind).2.held = s.held := by
  unfold State.translate
  grind [State.held, foldl_held, foldl_snd_held, State.modRegion_held]

@[simp] theorem State.latchWalk_held (r va code) (s : State) : (State.latchWalk s r va code).held = s.held := by
  simp [State.latchWalk]

@[simp] theorem State.engineWalk_held (r va kind) (s : State) : (State.engineWalk s r va kind).2.held = s.held := by
  unfold State.engineWalk
  grind [State.held, foldl_held, foldl_snd_held, State.translate_held, State.raise_held, State.latchWalk_held]

@[simp] theorem translateAll_held (r kind l) (s : State) : (translateAll r kind l s).2.held = s.held := by
  induction l generalizing s with
  | nil => rfl
  | cons va l ih => unfold translateAll; grind [State.translate_held]

@[simp] theorem State.modDma_held (t id f) (s : State) : (State.modDma s t id f).held = s.held := by
  simp [State.modDma]

@[simp] theorem execPageWalk_held (req) (s : State) : heldAfter (execPageWalk req s) = some s.held := by
  unfold execPageWalk; split
  · split <;> simp
  · split
    · split
      · simp
      · split
        · next h => simpa using held_of_eq h (translateAll_held ..)
        · next h => simpa using held_of_eq h (translateAll_held ..)
    · simp

@[simp] theorem countCe_held (addr) (s : State) : (countCe addr s).held = s.held := by
  unfold countCe
  split <;> simp

@[simp] theorem execMemReadRetry_held (addr ok t found) (s : State) :
    heldAfter (execMemReadRetry addr ok t s found) = some s.held := by
  unfold execMemReadRetry
  dsimp only
  repeat' split
  all_goals simp

@[simp]
theorem execPatrolScrub_held (addr found) (s : State) : heldAfter (execPatrolScrub addr found s) = some s.held := by
  unfold execPatrolScrub
  repeat' split
  all_goals simp

@[simp] theorem execZeroSweep_held (page) (s : State) : heldAfter (execZeroSweep page s) = some s.held := by
  simp [execZeroSweep]

@[simp] theorem execMemTempOver_held (u) (s : State) : heldAfter (execMemTempOver u s) = some s.held := by
  simp [execMemTempOver]

@[simp] theorem execMemTempRecover_held (u) (s : State) : heldAfter (execMemTempRecover u s) = some s.held := by
  simp [execMemTempRecover]

@[simp] theorem compareUnit_held (cls idx r) (s : State) : (compareUnit cls idx r s).held = s.held := by
  simp [compareUnit]

@[simp] theorem bringRecord_held (k owner epoch) (s : State) : (bringRecord k owner epoch s).held = s.held := by
  simp [bringRecord]

@[simp] theorem parkUnit_held (k) (s : State) : (parkUnit k s).held = s.held := by
  simp [parkUnit]

@[simp] theorem execUnitReturn_held (cls idx owner epoch) (s : State) :
    heldAfter (execUnitReturn cls idx s owner epoch) = some s.held := by
  unfold execUnitReturn
  dsimp only
  repeat' split
  all_goals simp

@[simp] theorem reloadUnit_held (cls idx r) (s : State) : (reloadUnit cls idx r s).held = s.held := by
  simp [reloadUnit]

@[simp] theorem execUnitReload_held (cls idx) (s : State) : heldAfter (execUnitReload cls idx s) = some s.held := by
  simp [execUnitReload]

@[simp] theorem recordUnits_held (r) (s : State) : (recordUnits r s).held = s.held := by
  unfold recordUnits
  grind [State.held, foldl_held, foldl_snd_held]

@[simp] theorem enterUp_held (p) (s : State) : (enterUp p s).held = s.held := by
  simp [enterUp]

@[simp] theorem enterHold_held (p) (s : State) : (enterHold p s).held = s.held := by
  simp [enterHold]

@[simp] theorem enterChecked_held (p) (s : State) : (enterChecked p s).held = s.held := by
  simp [enterChecked]

@[simp] theorem startTraining_held (p) (s : State) : (startTraining p s).held = s.held := by
  simp [startTraining]

@[simp] theorem failPort_held (p) (s : State) : (failPort p s).held = s.held := by
  simp [failPort]

@[simp] theorem badLane_held (p lane) (s : State) : (badLane p lane s).held = s.held := by
  simp [badLane]

@[simp] theorem freeUnits_held (p v n) (s : State) : (freeUnits p v n s).held = s.held := by
  simp [freeUnits]

@[simp] theorem dropTxn_held (p v t) (s : State) : (dropTxn p v t s).held = s.held := by
  simp [dropTxn]

@[simp] theorem landTxn_held (p v t) (s : State) : (landTxn p v t s).held = s.held := by
  simp [landTxn]

@[simp] theorem rxParse_held (p v n) (s : State) : (rxParse p v n s).held = s.held := by
  induction n generalizing s with
  | zero => rfl
  | succ n ih => unfold rxParse; dsimp only; repeat' split
                 all_goals simp [ih]

@[simp] theorem rxContent_held (p f) (s : State) : (rxContent p f s).held = s.held := by
  simp [rxContent]

theorem nextTxn_held {p v} {s : State} {q} (h : nextTxn p v s = some q) : q.2.2.held = s.held := by
  unfold nextTxn at h; grind [State.modLane_held, State.modRegion_held, Option.map_eq_some_iff]

theorem startTxn_held {p v} {s u : State} (h : startTxn p v s = some u) : u.held = s.held := by
  unfold startTxn at h; dsimp only at h; split at h
  · cases h
  · next hn => split at h
               · cases h; simpa using nextTxn_held hn
               · cases h

@[simp] theorem fillLane_held (p v n acc) (s : State) : (fillLane p v n acc s).2.held = s.held := by
  induction n generalizing acc s with
  | zero => rfl
  | succ n ih => unfold fillLane; grind [startTxn_held, State.modLane_held]

@[simp] theorem emit_held (p f) (s : State) : (emit p f s).held = s.held := by
  simp [emit]

@[simp] theorem emitSeq_held (p type vl payload) (s : State) : (emitSeq p type vl payload s).held = s.held := by
  simp [emitSeq]

@[simp] theorem echoOf_held (x frac) (s : State) : (echoOf x frac s).2.held = s.held := by
  unfold echoOf
  split <;> simp

@[simp] theorem sendCtrl_held (p frac) (s : State) : (sendCtrl p frac s).held = s.held := by
  simp [sendCtrl]

@[simp] theorem sendLane_held (p v) (s : State) : (sendLane p v s).held = s.held := by
  unfold sendLane
  split <;> simp

@[simp] theorem sendSlot_held (p frac) (s : State) : (sendSlot p frac s).held = s.held := by
  unfold sendSlot
  grind [State.held, foldl_held, foldl_snd_held, State.modPort_held, sendCtrl_held, emit_held, sendLane_held,
    emitSeq_held]

@[simp] theorem takeHello_held (p f now) (s : State) : (takeHello p f now s).held = s.held := by
  simp [takeHello]

@[simp] theorem phaseOf_held (err) (s : State) : (phaseOf err s).2.held = s.held := by
  unfold phaseOf
  split <;> simp

@[simp] theorem takeCadence_held (p f now) (s : State) : (takeCadence p f now s).held = s.held := by
  obtain ⟨diff, hdiff⟩ : ∃ diff, diff = @stampDiff := ⟨_, rfl⟩
  obtain ⟨g, hg⟩ : ∃ g, g = @takeCadence := ⟨_, rfl⟩
  rw [← hg]
  delta takeCadence at hg
  rw [← hdiff] at hg
  subst hg; dsimp only
  simp only [ite_held, loadBeats_held, State.held_mk, State.held_mk_eta, phaseOf_held, ite_self]

@[simp] theorem execSyncSet_held (fn rg tag a) (s : State) : heldAfter (execSyncSet fn rg tag a s) = some s.held := by
  refine congrArg some (mailCommand_held _ _ _ _ _ _ _ _ (fun c u => ?_) s)
  simp

@[simp] theorem execSyncSetApply_held (fn) (s : State) : heldAfter (execSyncSetApply fn s) = some s.held := by
  simp [execSyncSetApply]

@[simp] theorem execSyncSetTimeout_held (fn) (s : State) : heldAfter (execSyncSetTimeout fn s) = some s.held := by
  simp [execSyncSetTimeout]

@[simp] theorem execSyncVsel_held (fn rg v) (s : State) : heldAfter (execSyncVsel fn rg v s) = some s.held := by
  simp [execSyncVsel]

@[simp] theorem execSyncDump_held (fn rg tag a) (s : State) : heldAfter (execSyncDump fn rg tag a s) = some s.held := by
  refine congrArg some (mailCommand_held _ _ _ _ _ _ _ _ (fun c u => ?_) s)
  simp

@[simp] theorem execSyncDumpComplete_held (fn) (s : State) : heldAfter (execSyncDumpComplete fn s) = some s.held := by
  simp [execSyncDumpComplete]

@[simp]
theorem execCadenceSet_held (fn rg tag a) (s : State) : heldAfter (execCadenceSet fn rg tag a s) = some s.held := by
  refine congrArg some (mailCommand_held _ _ _ _ _ _ _ _ (fun c u => ?_) s)
  simp

@[simp] theorem execCadenceLoadBeat_held (s : State) : heldAfter (execCadenceLoadBeat s) = some s.held := by
  unfold execCadenceLoadBeat
  split <;> simp

@[simp] theorem execCadenceLoss_held (s : State) : heldAfter (execCadenceLoss s) = some s.held := by
  simp [execCadenceLoss]

@[simp] theorem execCadenceRecover_held (err) (s : State) : heldAfter (execCadenceRecover err s) = some s.held := by
  simp [execCadenceRecover]

@[simp] theorem resetCadence_held (s : State) : (resetCadence s).held = s.held := by
  simp [resetCadence]

@[simp] theorem execBeatBoundary_held (s : State) : heldAfter (execBeatBoundary s) = some s.held := by
  simp [execBeatBoundary]

@[simp] theorem State.modChan_held (t ch f) (s : State) : (State.modChan s t ch f).held = s.held := by
  simp [State.modChan]

@[simp] theorem State.modRx_held (t q f) (s : State) : (State.modRx s t q f).held = s.held := by
  simp [State.modRx]

@[simp] theorem openChan_held (t ch d port pc) (s : State) : (openChan t ch d port pc s).held = s.held := by
  simp [openChan]

@[simp] theorem sendMsg_held (t ch m) (s : State) : (sendMsg t ch m s).held = s.held := by
  simp [sendMsg]

@[simp] theorem retryGate_held (r t) (s : State) : (retryGate r t s).held = s.held := by
  unfold retryGate
  grind [State.held, foldl_held, foldl_snd_held, State.modTile_held, sendMsg_held, openChan_held]

@[simp] theorem execChopen_held (t w) (s : State) : heldAfter (execChopen t w s) = some s.held := by
  refine congrArg some (slotOp_held (fun i u => ?_) s)
  dsimp only
  repeat' split
  all_goals simp

@[simp] theorem execChsend_held (t w) (s : State) : heldAfter (execChsend t w s) = some s.held := by
  refine congrArg some (slotOp_held (fun i u => ?_) s)
  dsimp only
  repeat' split
  all_goals simp

@[simp] theorem execChclose_held (t w) (s : State) : heldAfter (execChclose t w s) = some s.held := by
  refine congrArg some (slotOp_held (fun i u => ?_) s)
  dsimp only
  repeat' split
  all_goals simp

@[simp] theorem feedPort_held (r t q n) (s : State) : (feedPort r t q n s).held = s.held := by
  induction n generalizing s with
  | zero => rfl
  | succ n ih =>
    unfold feedPort; dsimp only; repeat' split
    all_goals simp [ih]
    all_goals exact popPort_held ‹_›

@[simp] theorem execCqrow_held (t w) (s : State) : heldAfter (execCqrow t w s) = some s.held := by
  refine congrArg some (slotOp_held (fun i u => ?_) s)
  dsimp only
  repeat' split
  all_goals simp

@[simp] theorem execChanOpenRequest_held (t ch) (s : State) : heldAfter (execChanOpenRequest t ch s) = some s.held := by
  unfold execChanOpenRequest
  split <;> simp

@[simp]
theorem execChanMessageDelivery_held (t ch) (s : State) : heldAfter (execChanMessageDelivery t ch s) = some s.held := by
  unfold execChanMessageDelivery
  dsimp only
  repeat' split
  all_goals simp

@[simp]
theorem execChanCreditReturn_held (t ch) (s : State) : heldAfter (execChanCreditReturn t ch s) = some s.held := by
  unfold execChanCreditReturn
  split <;> simp

@[simp]
theorem execChanCloseMarker_held (t port) (s : State) : heldAfter (execChanCloseMarker t port s) = some s.held := by
  unfold execChanCloseMarker
  dsimp only
  repeat' split
  all_goals simp

@[simp] theorem sendSync_held (i o k) (s : State) : (sendSync i o k s).held = s.held := by
  simp [sendSync]

@[simp] theorem ownCheck_keeps {i o} {s u : State} {k : Unit → Act} (h : (k ()).Keeps s) (hu : u.held = s.held) :
    (ownCheck i u o k).Keeps s := by
  unfold ownCheck; repeat' split
  all_goals simp [h, hu]

@[simp] theorem waitAs_held (i run) (s : State) : (waitAs i run s).held = s.held := by
  simp [waitAs]

@[simp] theorem execSsig_held (t w) (s : State) : heldAfter (execSsig t w s) = some s.held := by
  refine congrArg some (slotOp_held (fun i u => ?_) s)
  simp

@[simp] theorem execSsigr_held (t w) (s : State) : heldAfter (execSsigr t w s) = some s.held := by
  refine congrArg some (slotOp_held (fun i u => ?_) s)
  simp

@[simp] theorem execSwait_held (t w) (s : State) : heldAfter (execSwait t w s) = some s.held := by
  refine congrArg some (slotOp_held (fun i u => ?_) s)
  simp

@[simp] theorem execSread_held (t w) (s : State) : heldAfter (execSread t w s) = some s.held := by
  refine congrArg some (slotOp_held (fun i u => ?_) s)
  simp

@[simp] theorem noSplit_keeps {i o} {s u : State} {k : Unit → Act} (h : (k ()).Keeps s) (hu : u.held = s.held) :
    (noSplit i u o k).Keeps s := by
  unfold noSplit; split <;> simp [h, hu]

@[simp] theorem execSbar_held (t w) (s : State) : heldAfter (execSbar t w s) = some s.held := by
  refine congrArg some (slotOp_held (fun i u => ?_) s)
  simp

@[simp] theorem execSarr_held (t w) (s : State) : heldAfter (execSarr t w s) = some s.held := by
  refine congrArg some (slotOp_held (fun i u => ?_) s)
  simp

@[simp] theorem execSbwait_held (t w) (s : State) : heldAfter (execSbwait t w s) = some s.held := by
  refine congrArg some (slotOp_held (fun i u => ?_) s)
  split <;> simp

@[simp] theorem execScfg_held (t w) (s : State) : heldAfter (execScfg t w s) = some s.held := by
  refine congrArg some (slotOp_held (fun i u => ?_) s)
  simp

@[simp] theorem execSyncOpArrival_held (r obj) (s : State) : heldAfter (execSyncOpArrival r obj s) = some s.held := by
  unfold execSyncOpArrival
  dsimp only
  repeat' split
  all_goals simp

@[simp] theorem execReleaseWake_held (r obj) (s : State) : heldAfter (execReleaseWake r obj s) = some s.held := by
  simp [execReleaseWake]

@[simp] theorem execWaiterWake_held (t) (s : State) : heldAfter (execWaiterWake t s) = some s.held := by
  unfold execWaiterWake
  dsimp only
  repeat' split
  all_goals simp

@[simp] theorem execXrld_held (t w) (s : State) : heldAfter (execXrld t w s) = some s.held := by
  refine congrArg some (slotOp_held (fun i u => ?_) s)
  simp

@[simp] theorem execXvld_held (t w) (s : State) : heldAfter (execXvld t w s) = some s.held := by
  refine congrArg some (slotOp_held (fun i u => ?_) s)
  simp

@[simp] theorem exchangePhase_keeps {i row} {s u : State} {k : Unit → Act} (h : (k ()).Keeps s) (hu : u.held = s.held) :
    (exchangePhase i u row k).Keeps s := by
  unfold exchangePhase; split <;> simp [h, hu]

@[simp] theorem portBusy_held (i) (s : State) : (portBusy i s).2.held = s.held := by
  unfold portBusy
  split <;> simp

@[simp] theorem sendOn_keeps (i x n row) (s : State) : (sendOn i x n row s).Keeps s := by
  unfold sendOn; dsimp only; repeat' split
  all_goals simp

@[simp] theorem sendOff_keeps (i x n row) (s : State) : (sendOff i x n row s).Keeps s := by
  unfold sendOff; dsimp only; repeat' split
  all_goals simp

@[simp] theorem execXsend_held (t w) (s : State) : heldAfter (execXsend t w s) = some s.held := by
  refine congrArg some (slotOp_held (fun i u => ?_) s)
  dsimp only
  repeat' split
  all_goals simp

@[simp] theorem armReceive_keeps (i x n row) (s : State) : (armReceive i x n row s).Keeps s := by
  unfold armReceive; dsimp only; split <;> simp

@[simp] theorem declare_keeps {i x item id n row dma} {s u : State} (hu : u.held = s.held) :
    (declare i x item id n row dma u).Keeps s := by
  unfold declare; dsimp only; split <;> simp [hu]

@[simp] theorem execXrecv_held (t w) (s : State) : heldAfter (execXrecv t w s) = some s.held := by
  refine congrArg some (slotOp_held (fun i u => ?_) s)
  dsimp only
  repeat' split
  all_goals simp

@[simp] theorem placeMark_held (i kind item) (s : State) : (placeMark i kind item s).held = s.held := by
  simp [placeMark]

@[simp] theorem execXdue_held (t w) (s : State) : heldAfter (execXdue t w s) = some s.held := by
  refine congrArg some (slotOp_held (fun i u => ?_) s)
  dsimp only
  repeat' split
  all_goals simp

@[simp] theorem execXsel_held (t w) (s : State) : heldAfter (execXsel t w s) = some s.held := by
  refine congrArg some (slotOp_held (fun i u => ?_) s)
  simp

@[simp] theorem execClreq_held (t w) (s : State) : heldAfter (execClreq t w s) = some s.held := by
  refine congrArg some (slotOp_held (fun i u => ?_) s)
  simp

@[simp] theorem execXmov_held (t w) (s : State) : heldAfter (execXmov t w s) = some s.held := by
  refine congrArg some (slotOp_held (fun i u => ?_) s)
  dsimp only
  repeat' split
  all_goals simp

@[simp] theorem execExchangeWindowOpen_held (r) (s : State) : heldAfter (execExchangeWindowOpen r s) = some s.held := by
  unfold execExchangeWindowOpen
  dsimp only
  repeat' split
  all_goals simp

@[simp] theorem expireReceives_held (r t) (s : State) : (expireReceives r t s).held = s.held := by
  simp [expireReceives]

@[simp] theorem execExchangeWindowEnd_held (r) (s : State) : heldAfter (execExchangeWindowEnd r s) = some s.held := by
  simp [execExchangeWindowEnd]

@[simp] theorem acceptRow_held (r t c p) (s : State) : (acceptRow r t c p s).held = s.held := by
  unfold acceptRow
  grind [State.held, foldl_held, foldl_snd_held, State.raise_held, State.modTile_held, State.modRegion_held]

@[simp] theorem execCompiledRowArrival_held (t) (s : State) : heldAfter (execCompiledRowArrival t s) = some s.held := by
  unfold execCompiledRowArrival
  split <;> simp

@[simp] theorem execArmedReceiveMissed_held (t) (s : State) : heldAfter (execArmedReceiveMissed t s) = some s.held := by
  unfold execArmedReceiveMissed
  split <;> simp

@[simp] theorem itemSignal_held (r t q) (s : State) : (itemSignal r t q s).held = s.held := by
  unfold itemSignal
  split <;> simp

@[simp] theorem freeInRow_held (r q) (s : State) : (freeInRow r q s).held = s.held := by
  unfold freeInRow
  grind [State.held, foldl_held, foldl_snd_held, State.modRegion_held, State.modLane_held]

@[simp] theorem takeInRow_held (r t q) (s : State) : (takeInRow r t q s).held = s.held := by
  simp [takeInRow]

@[simp] theorem noteInRow_held (r t d q) (s : State) : (noteInRow r t d q s).held = s.held := by
  simp [noteInRow]

@[simp]
theorem execLateItemRowWrite_held (t item) (s : State) : heldAfter (execLateItemRowWrite t item s) = some s.held := by
  unfold execLateItemRowWrite
  dsimp only
  repeat' split
  all_goals simp

@[simp] theorem execBrakeFreeze_held (r) (s : State) : heldAfter (execBrakeFreeze r s) = some s.held := by
  simp [execBrakeFreeze]

@[simp] theorem execBrakeThaw_held (r) (s : State) : heldAfter (execBrakeThaw r s) = some s.held := by
  simp [execBrakeThaw]

@[simp] theorem execBrakeTimeout_held (r) (s : State) : heldAfter (execBrakeTimeout r s) = some s.held := by
  unfold execBrakeTimeout
  dsimp only
  repeat' split
  all_goals simp

@[simp] theorem execDmld_held (t w) (s : State) : heldAfter (execDmld t w s) = some s.held := by
  refine congrArg some (slotOp_held (fun i u => ?_) s)
  simp

@[simp] theorem startDma_held (i op x n row) (s : State) : (startDma i op x n row s).held = s.held := by
  simp [startDma]

@[simp] theorem dmaIssue_keeps (i op n row) (s : State) : (dmaIssue i op n row s).Keeps s := by
  unfold dmaIssue; dsimp only; repeat' split
  all_goals simp
  all_goals grind [declare_keeps, startDma_held, Act.Keeps]

@[simp] theorem execDmard_held (t w) (s : State) : heldAfter (execDmard t w s) = some s.held := by
  refine congrArg some (slotOp_held (fun i u => ?_) s)
  simp

@[simp] theorem execDmawr_held (t w) (s : State) : heldAfter (execDmawr t w s) = some s.held := by
  refine congrArg some (slotOp_held (fun i u => ?_) s)
  simp

@[simp] theorem execDmaacc_held (t w) (s : State) : heldAfter (execDmaacc t w s) = some s.held := by
  refine congrArg some (slotOp_held (fun i u => ?_) s)
  simp

@[simp] theorem execDmazf_held (t w) (s : State) : heldAfter (execDmazf t w s) = some s.held := by
  refine congrArg some (slotOp_held (fun i u => ?_) s)
  simp

@[simp] theorem execDmaxr_held (t w) (s : State) : heldAfter (execDmaxr t w s) = some s.held := by
  refine congrArg some (slotOp_held (fun i u => ?_) s)
  simp

@[simp] theorem dmaSignal_held (r t d) (s : State) : (dmaSignal r t d s).held = s.held := by
  simp [dmaSignal]

@[simp] theorem accRows_held (r bf16 l) (s : State) : (accRows r bf16 l s).2.held = s.held := by
  induction l generalizing s with
  | nil => rfl
  | cons q l ih => unfold accRows; grind [State.accumulate_held]

@[simp] theorem performDma_held (r t d pas) (s : State) : (performDma r t d pas s).held = s.held := by
  unfold performDma
  grind [State.held, foldl_held, foldl_snd_held, State.modDma_held, State.raise_held, dmaSignal_held,
    State.modRegion_held, accRows_held, State.noteClear_held]

@[simp] theorem execDmaComplete_held (t id) (s : State) : heldAfter (execDmaComplete t id s) = some s.held := by
  unfold execDmaComplete
  repeat' split
  all_goals simp

@[simp] theorem clearOp_held (r t op) (s : State) : (clearOp r t op s).held = s.held := by
  simp [clearOp]

@[simp] theorem captureRows_held (r t site l) (s : State) : (captureRows r t site l s).2.held = s.held := by
  induction l generalizing s with
  | nil => rfl
  | cons q l ih => unfold captureRows; grind [State.readFree_held]

@[simp] theorem dropOp_held (t op) (s : State) : (dropOp t op s).held = s.held := by
  simp [dropOp]

@[simp] theorem execScoreboardClear_held (t e) (s : State) : heldAfter (execScoreboardClear t e s) = some s.held := by
  unfold execScoreboardClear; split
  · dsimp only; split
    · rfl
    · split
      · split
        · simp
        · simp
        · simp
        · split
          · simp
          · split
            · next h => have := held_of_eq h (captureRows_held ..); simp_all
            · next h => have := held_of_eq h (captureRows_held ..); simp_all
      · split <;> simp
      · simp
  · rfl

@[simp] theorem execStallResume_held (t) (s : State) : heldAfter (execStallResume t s) = some s.held := by
  unfold execStallResume
  dsimp only
  repeat' split
  all_goals simp

@[simp] theorem rewriteRow_held (t) (s : State) : (rewriteRow t s).held = s.held := by
  unfold rewriteRow
  split <;> simp

@[simp] theorem scrubBank_held (t b) (s : State) : (scrubBank t b s).held = s.held := by
  unfold scrubBank
  grind [State.held, foldl_held, foldl_snd_held, State.modHw_held, rewriteRow_held, State.readEcc_held]

@[simp] theorem endWindow_held (t) (s : State) : (endWindow t s).held = s.held := by
  unfold endWindow
  grind [State.held, foldl_held, foldl_snd_held, State.modHw_held, State.hazard_held]

@[simp] theorem execScrubWindow_held (t tm pm) (s : State) : heldAfter (execScrubWindow t tm pm s) = some s.held := by
  simp [execScrubWindow]

@[simp] theorem execScrubPassStart_held (s : State) : heldAfter (execScrubPassStart s) = some s.held := by
  simp [execScrubPassStart]

@[simp] theorem endDesc_held (r slot d) (s : State) : (endDesc r slot d s).held = s.held := by
  simp [endDesc]

@[simp] theorem startDesc_held (r slot) (s : State) : (startDesc r slot s).held = s.held := by
  unfold startDesc
  grind [State.held, foldl_held, foldl_snd_held, State.setRegion_held, endDesc_held, State.modRegion_held]

@[simp] theorem execCodeLoadBlock_held (r slot t) (s : State) : heldAfter (execCodeLoadBlock r slot t s) = some s.held := by
  unfold execCodeLoadBlock
  split
  · rfl
  · split
    · rfl
    · split
      · next h => simpa using held_of_eq h (State.engineWalk_held ..)
      · next h =>
        have hw := held_of_eq h (State.engineWalk_held ..)
        repeat' split
        all_goals simp [hw]

@[simp] theorem execEntryHoldRelease_held (r) (s : State) : heldAfter (execEntryHoldRelease r s) = some s.held := by
  simp [execEntryHoldRelease]

@[simp] theorem readPieces_held (r l) (s : State) : (readPieces r l s).2.held = s.held := by
  induction l generalizing s with
  | nil => rfl
  | cons p l ih => unfold readPieces; grind [State.translate_held]

@[simp] theorem State.readVa_held (r va n) (s : State) : (State.readVa s r va n).2.held = s.held := by
  simp [State.readVa]

@[simp] theorem writePieces_held (r l b) (s : State) : (writePieces r l b s).2.held = s.held := by
  induction l generalizing b s with
  | nil => rfl
  | cons p l ih => unfold writePieces; grind [State.translate_held, State.held_mk, State.held]

@[simp] theorem State.writeVa_held (r va b) (s : State) : (State.writeVa s r va b).2.held = s.held := by
  simp [State.writeVa]

@[simp] theorem engineFault_held (r e) (s : State) : (engineFault r e s).held = s.held := by
  simp [engineFault]

@[simp] theorem veilBank_held (r bank) (s : State) : (veilBank r bank s).held = s.held := by
  simp [veilBank]

@[simp] theorem emitShard_held (r b idx s ws) (st : State) : (emitShard r b idx s ws st).2.held = st.held := by
  unfold emitShard
  grind [State.held, foldl_held, foldl_snd_held, State.modRegion_held, State.writeVa_held]

@[simp] theorem writeArrays_held (b bank as) (s : State) : (writeArrays b bank as s).held = s.held := by
  simp [writeArrays]

@[simp] theorem gradLeft_held (a b) (s : State) : (gradLeft a b s).2.held = s.held := by
  unfold gradLeft; rw [foldl_inv (P := fun a : List Byte × State => a.2.held)]
  intro a x; split <;> simp

@[simp] theorem updShard_held (r n idx b) (s : State) : (updShard r n idx b s).2.held = s.held := by
  unfold updShard
  grind [State.held, foldl_held, foldl_snd_held, State.readVa_held, writeArrays_held, State.modRegion_held,
    emitShard_held, gradLeft_held, State.writeVa_held]

theorem overBlocks_held {act : Nat → BitVec 1024 → State → Option Trouble × State}
    (h : ∀ i b u, (act i b u).2.held = u.held) (l) (s : State) : (overBlocks act l s).2.held = s.held := by
  induction l generalizing s with
  | nil => rfl
  | cons p l ih => unfold overBlocks; grind

@[simp] theorem State.veilVa_held (r va n) (s : State) : (State.veilVa s r va n).held = s.held := by
  unfold State.veilVa
  grind [State.held, foldl_held, foldl_snd_held, State.translate_held, State.veil_held]

@[simp] theorem veilWeights_held (r b) (s : State) : (veilWeights r s b).held = s.held := by
  simp [veilWeights]

@[simp] theorem emitAll_held (r bank n) (s : State) : (emitAll r bank n s).2.held = s.held := by
  unfold emitAll; exact overBlocks_held (fun i b u => by split <;> simp) _ s

@[simp] theorem dropUpdWait_held (r o) (s : State) : (dropUpdWait r o s).held = s.held := by
  simp [dropUpdWait]

@[simp] theorem updStep1_held (r) (s : State) : (updStep1 r s).held = s.held := by
  unfold updStep1; dsimp only; split
  · simp
  · rw [reach_held _ _ _ (fun u => by simp)]; simp

@[simp] theorem writeContext_held (r n bank) (s : State) : (writeContext r n bank s).held = s.held := by
  simp [writeContext]

@[simp] theorem updTrouble_held (r n e) (s : State) : (updTrouble r n e s).held = s.held := by
  simp [updTrouble]

@[simp] theorem readHyper_held (r idx b) (s : State) : (readHyper r idx b s).2.held = s.held := by
  unfold readHyper
  grind [State.held, foldl_held, foldl_snd_held, State.readVa_held, State.modRegion_held]

@[simp] theorem updStart_held (r) (s : State) : (updStart r s).held = s.held := by
  unfold updStart
  grind [updTrouble_held, overBlocks_held, readHyper_held, State.modRegion_held, foldl_held, veilWeights_held, writeContext_held]

@[simp] theorem updEnd_held (r) (s : State) : (updEnd r s).held = s.held := by
  unfold updEnd
  grind [updTrouble_held, overBlocks_held, updShard_held, State.modRegion_held, updStep1_held, landSignal_held]

@[simp] theorem State.mapObjs_held (r f) (s : State) : (State.mapObjs s r f).held = s.held := by
  simp [State.mapObjs]

@[simp] theorem State.mapTiles_held (r f) (s : State) : (State.mapTiles s r f).held = s.held := by
  simp [State.mapTiles]

@[simp] theorem emptyInbound_held (r p) (s : State) : (emptyInbound r p s).held = s.held := by
  unfold emptyInbound
  grind [State.held, foldl_held, foldl_snd_held, State.modLane_held]

@[simp] theorem emptyGates_held (r) (s : State) : (emptyGates r s).held = s.held := by
  simp [emptyGates]

@[simp] theorem restartRegion_held (r roll) (s : State) : (restartRegion r roll s).held = s.held := by
  simp [restartRegion]

@[simp] theorem haltNow_held (r) (s : State) : (haltNow r s).held = s.held := by
  simp [haltNow]

@[simp] theorem endHalt_held (r) (s : State) : (endHalt r s).held = s.held := by
  simp [endHalt]

@[simp] theorem sendMove_held (r p flags args data) (s : State) : (sendMove r p flags args data s).held = s.held := by
  simp [sendMove]

/-- The addresses of the mirror are sums with large literals, which the kernel must not evaluate: the definition is opened as a
function, with the read at those addresses a variable. -/

@[simp] theorem sendRange_held (r flags chan quarter bank step n k) (s : State) :
    (sendRange r flags chan quarter bank step n k s).2.held = s.held := by
  obtain ⟨read, hread⟩ : ∃ read, read = @State.readPa := ⟨_, rfl⟩
  obtain ⟨f, hf⟩ : ∃ f, f = @sendRange := ⟨_, rfl⟩
  rw [← hf]
  delta sendRange at hf
  rw [← hread] at hf
  subst hf; dsimp only
  split
  · split <;> rfl
  · simp

@[simp] theorem dropMoves_held (r gone) (s : State) : (dropMoves r gone s).held = s.held := by
  unfold dropMoves
  grind [State.held, foldl_held, foldl_snd_held, State.modLane_held]

@[simp] theorem fwAbandon_held (r all) (s : State) : (fwAbandon r all s).held = s.held := by
  simp [fwAbandon]

@[simp] theorem fwForget_held (r) (s : State) : (fwForget r s).held = s.held := by
  simp [fwForget]

@[simp] theorem fwAcked_held (r) (s : State) : (fwAcked r s).held = s.held := by
  simp [fwAcked]

@[simp] theorem sendMirror_held (r bank step l k) (s : State) : (sendMirror r bank step l k s).2.held = s.held := by
  obtain ⟨f, hf⟩ : ∃ f, f = @sendMirror := ⟨_, rfl⟩
  obtain ⟨g, hg⟩ : ∃ g, g = @sendMirror._f := ⟨_, rfl⟩
  obtain ⟨send, hs⟩ : ∃ send, send = @sendRange := ⟨_, rfl⟩
  have hsend : ∀ r flags chan quarter bank step n k u, (send r flags chan quarter bank step n k u).2.held = u.held := by
    rw [hs]; exact sendRange_held
  rw [← hf]
  delta sendMirror at hf
  rw [← hg] at hf
  delta sendMirror._f at hg
  rw [← hs] at hg
  subst hf
  induction l generalizing k s with
  | nil => subst hg; rfl
  | cons c l ih =>
    have hr := hsend r 2 c bank bank step (Tab.get 0 (s.region r).fw.mirrorEnd c) k s
    show (g r bank step (c :: l) (List.brecOn.go l (g r bank step)) k s).2.held = s.held
    change ∀ k s, ((List.brecOn.go l (g r bank step)).1 k s).2.held = s.held at ih
    generalize List.brecOn.go l (g r bank step) = rest at ih ⊢
    rw [hg]; dsimp only; split
    · next h => rw [h] at hr; exact hr
    · next h => rw [h] at hr; exact (ih _ _).trans (by simpa using hr)

@[simp] theorem fwMirror_held (r re) (s : State) : (fwMirror r re s).held = s.held := by
  obtain ⟨send, hs⟩ : ∃ send, send = @sendMirror := ⟨_, rfl⟩
  have hsend : ∀ r bank step l k u, (send r bank step l k u).2.held = u.held := by
    rw [hs]; exact sendMirror_held
  obtain ⟨f, hf⟩ : ∃ f, f = @fwMirror := ⟨_, rfl⟩
  rw [← hf]
  delta fwMirror at hf
  rw [← hs] at hf
  subst hf; dsimp only
  split
  · next h => have := congrArg (fun a => a.2.held) h; simpa [hsend] using this.symm
  · next h => have := congrArg (fun a => a.2.held) h; split <;> simpa [hsend] using this.symm

@[simp] theorem drlEnd_held (r code) (s : State) : (drlEnd r code s).held = s.held := by
  unfold drlEnd
  grind [State.held, foldl_held, foldl_snd_held, State.modRegion_held, veilBank_held, State.finish_held]

@[simp] theorem fwFinish_held (r code) (s : State) : (fwFinish r code s).held = s.held := by
  unfold fwFinish
  split <;> simp

@[simp] theorem markBuffer_held (r l) (s : State) : (markBuffer r l s).2.held = s.held := by
  induction l generalizing s with
  | nil => rfl
  | cons q l ih => unfold markBuffer; grind [State.translate_held, State.held]

@[simp] theorem markGrads_held (r x1 b) (s : State) : (markGrads r x1 b s).2.held = s.held := by
  unfold markGrads
  grind [State.held, foldl_held, foldl_snd_held, markBuffer_held]

@[simp] theorem restoreContext_held (r b) (s : State) : (restoreContext r b s).held = s.held := by
  simp [restoreContext]

@[simp] theorem restoreFinish_held (r) (s : State) : (restoreFinish r s).held = s.held := by
  obtain ⟨read, hread⟩ : ∃ read, read = @State.readPa := ⟨_, rfl⟩
  obtain ⟨f, hf⟩ : ∃ f, f = @restoreFinish := ⟨_, rfl⟩
  rw [← hf]
  delta restoreFinish at hf
  rw [← hread] at hf
  subst hf; dsimp only
  split
  · rfl
  · split
    · next h => have := congrArg (fun a => a.2.held) h; simpa [overBlocks_held] using this.symm
    · next h =>
      have hm := congrArg (fun a => a.2.held) h
      rw [overBlocks_held (fun i b u => by simp)] at hm
      split
      · simpa using hm.symm
      · split
        · next h => have := congrArg (fun a => a.2.held) h; simpa [← hm] using this.symm
        · next h => have := congrArg (fun a => a.2.held) h; simp at this hm; split <;> simp [← this, ← hm]

@[simp] theorem restoreStart_held (r fn target remirror adopt) (s : State) :
    (restoreStart r fn target remirror adopt s).held = s.held := by
  unfold restoreStart
  grind [State.held, foldl_held, foldl_snd_held, dropMoves_held, drlEnd_held, endExport_held, fwAbandon_held,
    haltNow_held, State.modRegion_held, restoreFinish_held, fwFinish_held, sendMove_held]

@[simp] theorem fwDrop_held (r) (s : State) : (fwDrop r s).held = s.held := by
  simp [fwDrop]

@[simp] theorem writeMove_held (t quarter) (s : State) : (writeMove t quarter s).held = s.held := by
  simp [writeMove]

@[simp] theorem restoreMove_held (r t done) (s : State) : (restoreMove r t done s).held = s.held := by
  unfold restoreMove
  split <;> simp

@[simp] theorem answerRequest_held (r p t) (s : State) : (answerRequest r p t s).held = s.held := by
  obtain ⟨send, hs⟩ : ∃ send, send = @sendRange := ⟨_, rfl⟩
  have hsend : ∀ r flags chan quarter bank step n k u, (send r flags chan quarter bank step n k u).2.held = u.held := by
    rw [hs]; exact sendRange_held
  obtain ⟨f, hf⟩ : ∃ f, f = @answerRequest := ⟨_, rfl⟩
  rw [← hf]
  delta answerRequest at hf
  rw [← hs] at hf
  subst hf; dsimp only
  split
  · simp
  · split
    · simp
    · split
      · simp
      · next h => simpa [h] using hsend r 0x0A t.chan (2 + t.bank) t.bank t.step16 (leAt t.data 0 4 * 64) 0 s

@[simp] theorem mirrorDone_held (r p t) (s : State) : (mirrorDone r p t s).held = s.held := by
  simp [mirrorDone]

@[simp] theorem mirrorAck_held (r t) (s : State) : (mirrorAck r t s).held = s.held := by
  simp [mirrorAck]

@[simp] theorem execSetClock_held (fn rg tag a) (s : State) : heldAfter (execSetClock fn rg tag a s) = some s.held := by
  refine congrArg some (mailCommand_held _ _ _ _ _ _ _ _ (fun c u => ?_) s)
  dsimp only
  repeat' split
  all_goals simp

@[simp] theorem execClockCeilEvent_held (s : State) : heldAfter (execClockCeilEvent s) = some s.held := by
  unfold execClockCeilEvent
  split <;> simp

@[simp] theorem setRegulators_held (s : State) : (setRegulators s).held = s.held := by
  simp [setRegulators]

@[simp] theorem execClockStepChange_held (s : State) : heldAfter (execClockStepChange s) = some s.held := by
  unfold execClockStepChange
  split <;> simp

@[simp] theorem execSetCal_held (fn rg tag a) (s : State) : heldAfter (execSetCal fn rg tag a s) = some s.held := by
  refine congrArg some (mailCommand_held _ _ _ _ _ _ _ _ (fun c u => ?_) s)
  dsimp only
  repeat' split
  all_goals simp

@[simp]
theorem execSetPowerCap_held (fn rg tag a) (s : State) : heldAfter (execSetPowerCap fn rg tag a s) = some s.held := by
  refine congrArg some (mailCommand_held _ _ _ _ _ _ _ _ (fun c u => ?_) s)
  simp

@[simp] theorem takeSample_held (p) (s : State) : (takeSample p s).held = s.held := by
  simp [takeSample]

@[simp] theorem modDuty_held (who f) (s : State) : (modDuty who f s).held = s.held := by
  simp [modDuty]

@[simp] theorem stepTo_held (k) (s : State) : (stepTo k s).held = s.held := by
  simp [stepTo]

@[simp] theorem powerDecide_held (s : State) : (powerDecide s).held = s.held := by
  simp [powerDecide]

@[simp] theorem skewBoundary_held (b) (s : State) : (skewBoundary s b).held = s.held := by
  simp [skewBoundary]

@[simp] theorem windowSettings_held (s : State) : (windowSettings s).held = s.held := by
  simp [windowSettings]

@[simp] theorem windowBrakes_held (s : State) : (windowBrakes s).held = s.held := by
  simp [windowBrakes]

@[simp] theorem windowEvents_held (s : State) : (windowEvents s).held = s.held := by
  simp [windowEvents]

@[simp] theorem execPowerWindow_held (sample) (s : State) : heldAfter (execPowerWindow sample s) = some s.held := by
  simp [execPowerWindow]

@[simp] theorem execLimitBrakeEnd_held (r) (s : State) : heldAfter (execLimitBrakeEnd r s) = some s.held := by
  simp [execLimitBrakeEnd]

@[simp] theorem limitRegions_held (p) (s : State) : (limitRegions p s).held = s.held := by
  simp [limitRegions]

@[simp] theorem execVrFault_held (reg) (s : State) : heldAfter (execVrFault reg s) = some s.held := by
  simp [execVrFault]

@[simp] theorem execVrFaultClear_held (reg) (s : State) : heldAfter (execVrFaultClear reg s) = some s.held := by
  simp [execVrFaultClear]

@[simp] theorem execVrAlert_held (s : State) : heldAfter (execVrAlert s) = some s.held := by
  simp [execVrAlert]

@[simp] theorem execVrAlertRelease_held (s : State) : heldAfter (execVrAlertRelease s) = some s.held := by
  simp [execVrAlertRelease]

@[simp] theorem execHaltEngage_held (r) (s : State) : heldAfter (execHaltEngage r s) = some s.held := by
  unfold execHaltEngage
  dsimp only
  repeat' split
  all_goals simp

@[simp] theorem cancelCommand_held (f) (s : State) : (cancelCommand f s).held = s.held := by
  unfold cancelCommand
  grind [State.held, foldl_held, foldl_snd_held, State.modRegion_held, drlEnd_held, fwFinish_held, State.done_held]

@[simp] theorem flr_held (fn) (s : State) : (flr fn s).held = s.held := by
  simp [flr]

@[simp] theorem execFlr_held (fn) (s : State) : heldAfter (execFlr fn s) = some s.held := by
  simp [execFlr]

@[simp] theorem flushLane_held (r p) (s : State) : (flushLane r p s).held = s.held := by
  unfold flushLane
  grind [State.held, foldl_held, foldl_snd_held, emptyInbound_held, State.modLane_held]

@[simp] theorem clearUnits_held (r) (s : State) : (clearUnits r s).held = s.held := by
  simp [clearUnits]

@[simp] theorem markMemory_held (r) (s : State) : (markMemory r s).held = s.held := by
  unfold markMemory
  split <;> simp

@[simp]
theorem execRegionGrant_held (fn rg tag a) (s : State) : heldAfter (execRegionGrant fn rg tag a s) = some s.held := by
  refine congrArg some (mailCommand_held _ _ _ _ _ _ _ _ (fun c u => ?_) s)
  dsimp only
  repeat' split
  all_goals simp

@[simp] theorem resetWindow_held (r) (s : State) : (resetWindow r s).held = s.held := by
  simp [resetWindow]

@[simp] theorem execGrantComplete_held (r) (s : State) : heldAfter (execGrantComplete r s) = some s.held := by
  simp [execGrantComplete]

@[simp] theorem stopRegion_held (r) (s : State) : (stopRegion r s).held = s.held := by
  simp [stopRegion]

@[simp]
theorem execRegionRevoke_held (fn rg tag a) (s : State) : heldAfter (execRegionRevoke fn rg tag a s) = some s.held := by
  refine congrArg some (mailCommand_held _ _ _ _ _ _ _ _ (fun c u => ?_) s)
  simp

@[simp] theorem execRevokeComplete_held (r) (s : State) : heldAfter (execRevokeComplete r s) = some s.held := by
  simp [execRevokeComplete]

@[simp] theorem execMmuRoot_held (fn rg tag a) (s : State) : heldAfter (execMmuRoot fn rg tag a s) = some s.held := by
  refine congrArg some (mailCommand_held _ _ _ _ _ _ _ _ (fun c u => ?_) s)
  dsimp only
  repeat' split
  all_goals simp

@[simp] theorem execMmuInval_held (fn rg tag a) (s : State) : heldAfter (execMmuInval fn rg tag a s) = some s.held := by
  refine congrArg some (mailCommand_held _ _ _ _ _ _ _ _ (fun c u => ?_) s)
  simp

@[simp]
theorem execLoadProgram_held (fn rg tag a) (s : State) : heldAfter (execLoadProgram fn rg tag a s) = some s.held := by
  refine congrArg some (mailCommand_held _ _ _ _ _ _ _ _ (fun c u => ?_) s)
  grind [State.held, Act.Keeps, foldl_held, foldl_snd_held, mailCommand_held, State.done_held, State.readVa_held,
    engineFault_held, State.modRegion_held]

@[simp] theorem resumeHalted_held (r) (s : State) : (resumeHalted r s).held = s.held := by
  simp [resumeHalted]

@[simp] theorem applyProgram_held (r c img) (s : State) : (applyProgram r c img s).held = s.held := by
  simp [applyProgram]

@[simp] theorem execProgramLoadComplete_held (r) (s : State) : heldAfter (execProgramLoadComplete r s) = some s.held := by
  unfold execProgramLoadComplete; split
  · split
    · next h => simpa using held_of_eq h (State.readVa_held ..)
    · next h => have hr := held_of_eq h (State.readVa_held ..); dsimp only; split <;> simp [hr]
  · rfl

@[simp] theorem execLoadDesc_held (fn rg tag a) (s : State) : heldAfter (execLoadDesc fn rg tag a s) = some s.held := by
  refine congrArg some (mailCommand_held _ _ _ _ _ _ _ _ (fun c u => ?_) s)
  dsimp only
  repeat' split
  all_goals simp

@[simp] theorem configureRegion_held (c r) (s : State) : (configureRegion c r s).held = s.held := by
  simp [configureRegion]

@[simp] theorem unconfigureRegion_held (r) (s : State) : (unconfigureRegion r s).held = s.held := by
  simp [unconfigureRegion]

@[simp] theorem enablePort_held (on p) (s : State) : (enablePort on p s).held = s.held := by
  simp [enablePort]

@[simp] theorem applyWhole_held (img) (s : State) : (applyWhole img s).held = s.held := by
  unfold applyWhole
  grind [State.held, foldl_held, foldl_snd_held, configureRegion_held, unconfigureRegion_held, enablePort_held]

@[simp] theorem applyRegion_held (img) (s : State) : (applyRegion img s).held = s.held := by
  simp [applyRegion]

@[simp] theorem loadFrame_held (op whole fn rg tag a) (s : State) : (loadFrame op whole fn rg tag a s).held = s.held := by
  unfold loadFrame
  refine mailCommand_held _ _ _ _ _ _ _ _ (fun c u => ?_) s
  dsimp only; repeat' split
  all_goals simp

@[simp]
theorem execLoadFrame_held (fn rg tag a) (s : State) : heldAfter (execLoadFrame fn rg tag a s) = some s.held := by
  simp [execLoadFrame]

@[simp] theorem execLoadRegionFrame_held (fn rg tag a) (s : State) :
    heldAfter (execLoadRegionFrame fn rg tag a s) = some s.held := by
  simp [execLoadRegionFrame]

@[simp]
theorem execFrameLoadComplete_held (image) (s : State) : heldAfter (execFrameLoadComplete image s) = some s.held := by
  unfold execFrameLoadComplete
  dsimp only
  repeat' split
  all_goals simp

@[simp]
theorem execSetIdentity_held (fn rg tag a) (s : State) : heldAfter (execSetIdentity fn rg tag a s) = some s.held := by
  refine congrArg some (mailCommand_held _ _ _ _ _ _ _ _ (fun c u => ?_) s)
  simp

@[simp]
theorem execLinkRetrain_held (fn rg tag a) (s : State) : heldAfter (execLinkRetrain fn rg tag a s) = some s.held := by
  refine congrArg some (mailCommand_held _ _ _ _ _ _ _ _ (fun c u => ?_) s)
  simp

@[simp] theorem execFrameSlotSend_held (p frac) (s : State) : heldAfter (execFrameSlotSend p frac s) = some s.held := by
  simp [execFrameSlotSend]

theorem receiveFlit_held (p errs) {act : Bool → Port → State → State} (h : ∀ b x u, (act b x u).held = u.held) (s : State) :
    (receiveFlit p errs act s).held = s.held := by
  unfold receiveFlit; split <;> simp [h]

@[simp] theorem takeSequenced_held (p type f errs) (s : State) : (takeSequenced p type f errs s).held = s.held := by
  unfold takeSequenced
  exact receiveFlit_held _ _ (fun b x u => by dsimp only; split <;> simp) s

@[simp] theorem execDataFlit_held (p f errs) (s : State) : heldAfter (execDataFlit p f errs s) = some s.held := by
  simp [execDataFlit]

@[simp] theorem execIdleFlit_held (p f errs) (s : State) : heldAfter (execIdleFlit p f errs s) = some s.held := by
  simp [execIdleFlit]

@[simp] theorem execHoldFlit_held (p f errs) (s : State) : heldAfter (execHoldFlit p f errs s) = some s.held := by
  refine congrArg some (receiveFlit_held _ _  (fun r t u => ?_) s)
  simp

@[simp]
theorem execCtrlFlit_held (p f errs frac) (s : State) : heldAfter (execCtrlFlit p f errs frac s) = some s.held := by
  refine congrArg some (receiveFlit_held _ _  (fun r t u => ?_) s)
  simp

@[simp] theorem execReplayTimeout_held (p) (s : State) : heldAfter (execReplayTimeout p s) = some s.held := by
  simp [execReplayTimeout]

@[simp]
theorem execLaneSignalLoss_held (p lane) (s : State) : heldAfter (execLaneSignalLoss p lane s) = some s.held := by
  simp [execLaneSignalLoss]

@[simp]
theorem execLaneUeThreshold_held (p lane) (s : State) : heldAfter (execLaneUeThreshold p lane s) = some s.held := by
  simp [execLaneUeThreshold]

@[simp]
theorem execLinkTrainingDone_held (p bad) (s : State) : heldAfter (execLinkTrainingDone p bad s) = some s.held := by
  simp [execLinkTrainingDone]

@[simp] theorem execTrainingTimeout_held (p) (s : State) : heldAfter (execTrainingTimeout p s) = some s.held := by
  simp [execTrainingTimeout]

@[simp] theorem execHelloTimeout_held (p) (s : State) : heldAfter (execHelloTimeout p s) = some s.held := by
  simp [execHelloTimeout]

@[simp] theorem popTxn_held (p v) (s : State) : (popTxn p v s).held = s.held := by
  simp [popTxn]

theorem perform_held (p v want) {act : RegionId → Txn → State → State} (h : ∀ r t u, (act r t u).held = u.held) (s : State) :
    (perform p v want act s).held = s.held := by
  unfold perform; dsimp only; repeat' split
  all_goals simp [h]

@[simp] theorem execRowWr_held (p v) (s : State) : heldAfter (execRowWr p v s) = some s.held := by
  unfold execRowWr
  dsimp only
  repeat' split
  all_goals simp

@[simp] theorem rejectMem_held (r p dev va kind code detail) (s : State) :
    (rejectMem r p dev va kind code detail s).held = s.held := by
  simp [rejectMem]

@[simp] theorem translatePieces_held (r p dev kind l) (s : State) : (translatePieces r p dev kind l s).2.held = s.held := by
  induction l generalizing s with
  | nil => rfl
  | cons q l ih => unfold translatePieces; grind [State.translate_held, rejectMem_held, State.raise_held, State.latchWalk_held]

@[simp] theorem performPieces_held (r acc l b) (s : State) : (performPieces r acc l b s).held = s.held := by
  induction l generalizing b s with
  | nil => rfl
  | cons q l ih => unfold performPieces; grind [State.accumulate_held, State.raise_held, State.held]

@[simp] theorem remoteMem_held (p acc r t) (s : State) : (remoteMem p acc r t s).held = s.held := by
  unfold remoteMem
  grind [State.held, foldl_held, foldl_snd_held, translatePieces_held, performPieces_held]

@[simp] theorem execMemWr_held (p v) (s : State) : heldAfter (execMemWr p v s) = some s.held := by
  refine congrArg some (perform_held _ _ _  (fun r t u => ?_) s)
  simp

@[simp] theorem execMemAcc_held (p v) (s : State) : heldAfter (execMemAcc p v s) = some s.held := by
  refine congrArg some (perform_held _ _ _  (fun r t u => ?_) s)
  simp

@[simp] theorem execSig_held (p v) (s : State) : heldAfter (execSig p v s) = some s.held := by
  refine congrArg some (perform_held _ _ _  (fun r t u => ?_) s)
  simp

@[simp] theorem sendAborts_held (r o) (s : State) : (sendAborts r o s).held = s.held := by
  simp [sendAborts]

@[simp] theorem tagFault_held (r o tag) (s : State) : (tagFault r o tag s).held = s.held := by
  simp [tagFault]

theorem barrierMessage_held (p) {act : BitVec 16 → SigSrc → State → State} (h : ∀ o k u, (act o k u).held = u.held) (r t)
    (s : State) : (barrierMessage p act r t s).held = s.held := by
  unfold barrierMessage; dsimp only; repeat' split
  · simp
  · simp
  · exact reach_held _ _ _ (h _ _) _

@[simp] theorem execBarArr_held (p v) (s : State) : heldAfter (execBarArr p v s) = some s.held := by
  refine congrArg some (perform_held _ _ _  (fun r t u => ?_) s)
  grind [State.held, Act.Keeps, foldl_held, foldl_snd_held, perform_held, barrierMessage_held, misuse_held,
    arrive_held, State.setObj_held]

@[simp] theorem execBarRel_held (p v) (s : State) : heldAfter (execBarRel p v s) = some s.held := by
  refine congrArg some (perform_held _ _ _  (fun r t u => ?_) s)
  grind [State.held, Act.Keeps, foldl_held, foldl_snd_held, perform_held, barrierMessage_held, misuse_held,
    releaseBarrier_held, State.setObj_held]

@[simp] theorem execBarAbort_held (p v) (s : State) : heldAfter (execBarAbort p v s) = some s.held := by
  refine congrArg some (perform_held _ _ _  (fun r t u => ?_) s)
  simp

@[simp] theorem execMemRej_held (p v) (s : State) : heldAfter (execMemRej p v s) = some s.held := by
  refine congrArg some (perform_held _ _ _  (fun r t u => ?_) s)
  simp

@[simp] theorem State.readArg_held (r va n) (s : State) : (State.readArg s r va n).2.held = s.held := by
  unfold State.readArg
  grind [State.held, foldl_held, foldl_snd_held, State.readVa_held]

@[simp] theorem armList_held (r va startObj startCount doneObj blocks) (s : State) :
    (armList r va startObj startCount doneObj blocks s).held = s.held := by
  simp [armList]

@[simp] theorem execUpdList_held (fn rg tag a) (s : State) : heldAfter (execUpdList fn rg tag a s) = some s.held := by
  refine congrArg some (mailCommand_held _ _ _ _ _ _ _ _ (fun c u => ?_) s)
  grind [State.held, Act.Keeps, foldl_held, foldl_snd_held, mailCommand_held, State.done_held, State.readArg_held,
    State.regionClean_held, armList_held]

@[simp]
theorem execUpdSetStep_held (fn rg tag a) (s : State) : heldAfter (execUpdSetStep fn rg tag a s) = some s.held := by
  refine congrArg some (mailCommand_held _ _ _ _ _ _ _ _ (fun c u => ?_) s)
  simp

@[simp]
theorem execUpdDisarm_held (fn rg tag a) (s : State) : heldAfter (execUpdDisarm fn rg tag a s) = some s.held := by
  refine congrArg some (mailCommand_held _ _ _ _ _ _ _ _ (fun c u => ?_) s)
  simp

@[simp] theorem execUpdEmit_held (fn rg tag a) (s : State) : heldAfter (execUpdEmit fn rg tag a s) = some s.held := by
  refine congrArg some (mailCommand_held _ _ _ _ _ _ _ _ (fun c u => ?_) s)
  grind [State.held, Act.Keeps, foldl_held, foldl_snd_held, mailCommand_held, State.done_held, emitAll_held,
    engineFault_held, landSignal_held]

@[simp] theorem execUpdStepStart_held (r) (s : State) : heldAfter (execUpdStepStart r s) = some s.held := by
  simp [execUpdStepStart]

@[simp] theorem execUpdStepEnd_held (r) (s : State) : heldAfter (execUpdStepEnd r s) = some s.held := by
  simp [execUpdStepEnd]

@[simp] theorem drlSend_held (r e) (s : State) : (drlSend r e s).2.held = s.held := by
  unfold drlSend
  split <;> simp

@[simp] theorem drlCopy_held (e) (s : State) : (drlCopy e s).2.held = s.held := by
  unfold drlCopy
  split <;> simp

theorem overEntries_held {act : BitVec 256 → State → Option Trouble × State}
    (h : ∀ e u, (act e u).2.held = u.held) (l) (s : State) : (overEntries act l s).2.held = s.held := by
  induction l generalizing s with
  | nil => rfl
  | cons p l ih => unfold overEntries; grind

@[simp] theorem drlProgress_held (r) (s : State) : (drlProgress r s).held = s.held := by
  unfold drlProgress; grind [overEntries_held, drlCopy_held, engineFault_held, landArrival_held, State.modRegion_held]

@[simp] theorem drlRound_held (r) (s : State) : (drlRound r s).held = s.held := by
  unfold drlRound; grind [overEntries_held, drlSend_held, engineFault_held, drlProgress_held, foldl_held, State.sendTxn_held]

@[simp] theorem drlNext_held (r) (s : State) : (drlNext r s).held = s.held := by
  simp [drlNext]

@[simp] theorem execDrlRun_held (fn rg tag a) (s : State) : heldAfter (execDrlRun fn rg tag a s) = some s.held := by
  refine congrArg some (mailCommand_held _ _ _ _ _ _ _ _ (fun c u => ?_) s)
  grind [State.held, Act.Keeps, foldl_held, foldl_snd_held, mailCommand_held, State.done_held, State.readArg_held,
    fwForget_held, fwAbandon_held, drlRound_held, State.modRegion_held]

@[simp] theorem drlDrop_held (r code) (s : State) : (drlDrop r code s).held = s.held := by
  simp [drlDrop]

@[simp] theorem execDrlMove_held (p v) (s : State) : heldAfter (execDrlMove p v s) = some s.held := by
  refine congrArg some (perform_held _ _ _  (fun r t u => ?_) s)
  simp

@[simp] theorem execDrlMoveDone_held (p v) (s : State) : heldAfter (execDrlMoveDone p v s) = some s.held := by
  refine congrArg some (perform_held _ _ _  (fun r t u => ?_) s)
  simp

@[simp] theorem execDrlRoundTimeout_held (r) (s : State) : heldAfter (execDrlRoundTimeout r s) = some s.held := by
  simp [execDrlRoundTimeout]

@[simp] theorem execFwConfig_held (fn rg tag a) (s : State) : heldAfter (execFwConfig fn rg tag a s) = some s.held := by
  refine congrArg some (mailCommand_held _ _ _ _ _ _ _ _ (fun c u => ?_) s)
  simp

@[simp] theorem execFwMirrorStart_held (r) (s : State) : heldAfter (execFwMirrorStart r s) = some s.held := by
  simp [execFwMirrorStart]

@[simp] theorem execFwRemirrorStart_held (r) (s : State) : heldAfter (execFwRemirrorStart r s) = some s.held := by
  simp [execFwRemirrorStart]

@[simp] theorem execFwStall_held (r) (s : State) : heldAfter (execFwStall r s) = some s.held := by
  unfold execFwStall
  dsimp only
  repeat' split
  all_goals simp

theorem takeMove_held (k p v) {act : RegionId → Txn → State → State} (h : ∀ r t u, (act r t u).held = u.held) (s : State) :
    (takeMove k p v act s).held = s.held := by
  unfold takeMove; exact perform_held _ _ _ (fun r t u => by split <;> simp [h]) s

@[simp] theorem execFwMirrorData_held (p v) (s : State) : heldAfter (execFwMirrorData p v s) = some s.held := by
  refine congrArg some (takeMove_held _ _ _  (fun r t u => ?_) s)
  simp

@[simp] theorem execFwMirrorDone_held (p v) (s : State) : heldAfter (execFwMirrorDone p v s) = some s.held := by
  refine congrArg some (takeMove_held _ _ _  (fun r t u => ?_) s)
  simp

@[simp] theorem execFwMirrorAck_held (p v) (s : State) : heldAfter (execFwMirrorAck p v s) = some s.held := by
  refine congrArg some (takeMove_held _ _ _  (fun r t u => ?_) s)
  simp

@[simp] theorem execFwRestoreRequest_held (p v) (s : State) : heldAfter (execFwRestoreRequest p v s) = some s.held := by
  refine congrArg some (takeMove_held _ _ _  (fun r t u => ?_) s)
  simp

@[simp] theorem execFwRestoreData_held (p v) (s : State) : heldAfter (execFwRestoreData p v s) = some s.held := by
  refine congrArg some (takeMove_held _ _ _  (fun r t u => ?_) s)
  simp

@[simp] theorem execFwRestoreDone_held (p v) (s : State) : heldAfter (execFwRestoreDone p v s) = some s.held := by
  refine congrArg some (takeMove_held _ _ _  (fun r t u => ?_) s)
  simp

@[simp] theorem execFwRestoreRefuse_held (p v) (s : State) : heldAfter (execFwRestoreRefuse p v s) = some s.held := by
  refine congrArg some (takeMove_held _ _ _  (fun r t u => ?_) s)
  simp

@[simp] theorem execRestoreTimeout_held (r) (s : State) : heldAfter (execRestoreTimeout r s) = some s.held := by
  unfold execRestoreTimeout
  split <;> simp

@[simp] theorem execRollback_held (fn rg tag a) (s : State) : heldAfter (execRollback fn rg tag a s) = some s.held := by
  refine congrArg some (mailCommand_held _ _ _ _ _ _ _ _ (fun c u => ?_) s)
  simp

@[simp] theorem execAdopt_held (fn rg tag a) (s : State) : heldAfter (execAdopt fn rg tag a s) = some s.held := by
  refine congrArg some (mailCommand_held _ _ _ _ _ _ _ _ (fun c u => ?_) s)
  simp

@[simp] theorem execFwExport_held (fn rg tag a) (s : State) : heldAfter (execFwExport fn rg tag a s) = some s.held := by
  refine congrArg some (mailCommand_held _ _ _ _ _ _ _ _ (fun c u => ?_) s)
  grind [State.held, Act.Keeps, foldl_held, foldl_snd_held, mailCommand_held, State.done_held, State.readArg_held,
    State.modRegion_held]

@[simp] theorem execExportStart_held (r) (s : State) : heldAfter (execExportStart r s) = some s.held := by
  unfold execExportStart; dsimp only; split
  · rfl
  · split
    · rfl
    · split
      · simp
      · split
        · next h => simpa using held_of_eq h (State.readVa_held ..)
        · next h => have hr := held_of_eq h (State.readVa_held ..); split <;> simp [hr]

@[simp] theorem ringWrite_held (base size off b) (s : State) : (ringWrite base size off b s).held = s.held := by
  simp [ringWrite]

@[simp] theorem execExportRecord_held (r) (s : State) : heldAfter (execExportRecord r s) = some s.held := by
  obtain ⟨read, hread⟩ : ∃ read, read = @State.readPa := ⟨_, rfl⟩
  obtain ⟨f, hf⟩ : ∃ f, f = @execExportRecord := ⟨_, rfl⟩
  rw [← hf]
  delta execExportRecord at hf
  rw [← hread] at hf
  subst hf; dsimp only; repeat' split
  all_goals simp

@[simp] theorem execExportComplete_held (r) (s : State) : heldAfter (execExportComplete r s) = some s.held := by
  simp [execExportComplete]

@[simp] theorem junkResults_held (w l) (s : State) : (junkResults w l s).2.held = s.held := by
  induction l generalizing s with
  | nil => rfl
  | cons q l ih => unfold junkResults; simp [ih]

@[simp] theorem evalGroup_held (q bank vcq j) (s : State) : (evalGroup q bank vcq j s).2.held = s.held := by
  unfold evalGroup
  split <;> simp

@[simp] theorem writeData_held (j row kind old) (s : State) : (writeData j row kind old s).2.2.held = s.held := by
  unfold writeData
  split <;> simp

@[simp] theorem jobRead_held (r slot key row j) (s : State) : (jobRead r slot key row j s).2.held = s.held := by
  unfold jobRead
  grind [State.held, foldl_held, foldl_snd_held, State.raise_held, State.readRow_held]

@[simp] theorem jobWrite_held (r slot row kind j) (s : State) : (jobWrite r slot row kind j s).2.held = s.held := by
  unfold jobWrite
  split <;> simp

@[simp] theorem jobCycle_held (r slot lag c bank j) (s : State) : (jobCycle r slot lag c bank j s).2.held = s.held := by
  simp [jobCycle]

@[simp] theorem junkCell_held (k b) (s : State) : (junkCell k b s).2.held = s.held := by
  simp [junkCell]

@[simp] theorem junkAudit_held (i b) (s : State) : (junkAudit i b s).2.held = s.held := by
  simp [junkAudit]

@[simp] theorem Pass.junkStep_held (p rows c b) (s : State) : (Pass.junkStep p rows c b s).2.held = s.held := by
  simp [Pass.junkStep]

@[simp] theorem junkBank_held (r t bank) (s : State) : (junkBank r t bank s).held = s.held := by
  simp [junkBank]

@[simp] theorem junkBanks_held (r t bank both) (s : State) : (junkBanks r t bank both s).held = s.held := by
  simp [junkBanks]

@[simp] theorem startPass_held (i d bank init) (s : State) : (startPass i d bank init s).held = s.held := by
  simp [startPass]

@[simp] theorem execMpass_held (t w) (s : State) : heldAfter (execMpass t w s) = some s.held := by
  refine congrArg some (slotOp_held (fun i u => ?_) s)
  simp

@[simp] theorem execMdld_held (t w) (s : State) : heldAfter (execMdld t w s) = some s.held := by
  refine congrArg some (slotOp_held (fun i u => ?_) s)
  simp

@[simp] theorem startDrain_held (i u bank mode) (s : State) : (startDrain i u bank mode s).held = s.held := by
  simp [startDrain]

@[simp] theorem execMdrain_held (t w) (s : State) : heldAfter (execMdrain t w s) = some s.held := by
  refine congrArg some (slotOp_held (fun i u => ?_) s)
  simp

@[simp] theorem passCycle_held (r t c p) (s : State) : (passCycle r t c p s).2.held = s.held := by
  unfold passCycle; rw [foldl_snd_held]
  intro a q; grind [State.readRow_held, State.raise_held]

@[simp] theorem drainTake_held (t c d) (s : State) : (drainTake t c d s).2.held = s.held := by
  unfold drainTake
  grind [State.held, foldl_held, foldl_snd_held, State.draw_held, State.modTile_held]

@[simp] theorem drainCycle_held (r t c d) (s : State) : (drainCycle r t c d s).2.held = s.held := by
  unfold drainCycle
  grind [State.held, foldl_held, foldl_snd_held, drainTake_held, jobCycle_held, State.modTile_held]

@[simp] theorem passUpdate_held (r t c p) (s : State) : (passUpdate r t c s p).held = s.held := by
  simp [passUpdate]

@[simp] theorem matrixCycle_held (r t c) (s : State) : (matrixCycle r t c s).held = s.held := by
  simp [matrixCycle]

@[simp] theorem execMatrixPassComplete_held (t) (s : State) : heldAfter (execMatrixPassComplete t s) = some s.held := by
  unfold execMatrixPassComplete
  split <;> simp

@[simp] theorem execDrainComplete_held (t) (s : State) : heldAfter (execDrainComplete t s) = some s.held := by
  unfold execDrainComplete
  split <;> simp

@[simp] theorem recordReset_held (k) (s : State) : (recordReset k s).held = s.held := by
  simp [recordReset]

@[simp] theorem beginOrder_held (k plan) (s : State) : (beginOrder k plan s).held = s.held := by
  simp [beginOrder]

@[simp] theorem thermCheck_held (s : State) : (thermCheck s).held = s.held := by
  simp [thermCheck]

@[simp] theorem sourceMarks_held (k) (s : State) : (sourceMarks k s).held = s.held := by
  unfold sourceMarks
  split <;> simp

@[simp] theorem dropRegion_held (r) (s : State) : (dropRegion r s).held = s.held := by
  simp [dropRegion]

@[simp] theorem doWarm_held (k) (s : State) : (doWarm k s).held = s.held := by
  simp [doWarm]

@[simp] theorem hubRestart_held (s : State) : (hubRestart s).held = s.held := by
  simp [hubRestart]

@[simp] theorem endpointReset_held (s : State) : (endpointReset s).held = s.held := by
  simp [endpointReset]

@[simp] theorem pulseTaken_held (ns) (s : State) : (pulseTaken ns s).2.held = s.held := by
  unfold pulseTaken
  repeat' split
  all_goals simp

@[simp] theorem execThermHoldRelease_held (s : State) : heldAfter (execThermHoldRelease s) = some s.held := by
  simp [execThermHoldRelease]

@[simp] theorem unpowered_held (s : State) : (unpowered s).held = s.held := by
  simp [unpowered]

@[simp] theorem execVbkupLoss_held (s : State) : heldAfter (execVbkupLoss s) = some s.held := by
  simp [execVbkupLoss]

@[simp] theorem resetKind_held (kind c) (s : State) : (resetKind kind c s).held = s.held := by
  unfold resetKind
  split <;> simp

@[simp] theorem resetCommand_held (fn rg tag a) (s : State) : (resetCommand fn rg tag a s).held = s.held := by
  unfold resetCommand; exact mailCommand_held _ _ _ _ _ _ _ _ (fun c u => by simp) s

@[simp]
theorem execResetWarm_held (fn rg tag a) (s : State) : heldAfter (execResetWarm fn rg tag a s) = some s.held := by
  simp [execResetWarm]

@[simp]
theorem execResetCold_held (fn rg tag a) (s : State) : heldAfter (execResetCold fn rg tag a s) = some s.held := by
  simp [execResetCold]

@[simp]
theorem execResetHubCpu_held (fn rg tag a) (s : State) : heldAfter (execResetHubCpu fn rg tag a s) = some s.held := by
  simp [execResetHubCpu]

@[simp]
theorem execResetPcieEp_held (fn rg tag a) (s : State) : heldAfter (execResetPcieEp fn rg tag a s) = some s.held := by
  simp [execResetPcieEp]

@[simp]
theorem execResetFuseCtl_held (fn rg tag a) (s : State) : heldAfter (execResetFuseCtl fn rg tag a s) = some s.held := by
  simp [execResetFuseCtl]

@[simp]
theorem execResetCadence_held (fn rg tag a) (s : State) : heldAfter (execResetCadence fn rg tag a s) = some s.held := by
  simp [execResetCadence]

@[simp] theorem clearUpdate_held (idx) (s : State) : (clearUpdate idx s).held = s.held := by
  simp [clearUpdate]

@[simp] theorem clearUnit_held (cls idx) (s : State) : (clearUnit cls idx s).held = s.held := by
  unfold clearUnit
  split <;> simp

@[simp] theorem quarantine_held (m) (s : State) : (quarantine m s).held = s.held := by
  unfold quarantine
  split <;> simp

@[simp] theorem blkResult_held (n) (s : State) : (blkResult n s).held = s.held := by
  simp [blkResult]

@[simp] theorem blockReset_held (cls idx idle) (s : State) : (blockReset cls idx idle s).held = s.held := by
  unfold blockReset
  repeat' split
  all_goals simp

@[simp] theorem blockCycle_held (s : State) : (blockCycle s).held = s.held := by
  unfold blockCycle
  split <;> simp

@[simp] theorem execBlkRstTileColumn_held (idx idle) (s : State) :
    heldAfter (execBlkRstTileColumn idx idle s) = some s.held := by
  simp [execBlkRstTileColumn]

@[simp]
theorem execBlkRstLinkPort_held (idx idle) (s : State) : heldAfter (execBlkRstLinkPort idx idle s) = some s.held := by
  simp [execBlkRstLinkPort]

@[simp] theorem execBlkRstHbmChannel_held (idx idle) (s : State) :
    heldAfter (execBlkRstHbmChannel idx idle s) = some s.held := by
  simp [execBlkRstHbmChannel]

@[simp] theorem execBlkRstLpddrChannel_held (idx idle) (s : State) :
    heldAfter (execBlkRstLpddrChannel idx idle s) = some s.held := by
  simp [execBlkRstLpddrChannel]

@[simp] theorem execBlkRstUpdateUnit_held (idx idle) (s : State) :
    heldAfter (execBlkRstUpdateUnit idx idle s) = some s.held := by
  simp [execBlkRstUpdateUnit]

@[simp] theorem fwGo_held (s : State) : (fwGo s).held = s.held := by
  simp [fwGo]

@[simp] theorem execHubFwGo_held (s : State) : heldAfter (execHubFwGo s) = some s.held := by
  simp [execHubFwGo]

@[simp] theorem execHubFwLoadDone_held (image) (s : State) : heldAfter (execHubFwLoadDone image s) = some s.held := by
  unfold execHubFwLoadDone
  repeat' split
  all_goals simp

theorem State.drawn_held {α : Type} (s : State) (d : Draw α) {put : α → State → State} (h : ∀ a u, (put a u).held = u.held) :
    (s.drawn d put).held = s.held := by
  unfold State.drawn; simp [h]

@[simp] theorem scrambleTile_held (s : State) (t) : (scrambleTile s t).held = s.held := by
  unfold scrambleTile; dsimp only
  rw [State.drawn_held _ _ (fun a u => by simp), State.drawn_held _ _ (fun a u => by simp)]

@[simp] theorem scrambleObjs_held (d) (s : State) : (scrambleObjs d s).held = s.held := by
  unfold scrambleObjs; exact State.drawn_held _ _ (fun a u => by simp)

@[simp] theorem scrambleDie_held (d) (s : State) : (scrambleDie d s).held = s.held := by
  simp [scrambleDie]

@[simp] theorem scrambleMemory_held (s : State) (t) : (scrambleMemory s t).held = s.held := by
  unfold scrambleMemory; exact State.drawn_held _ _ (fun a u => by simp)

@[simp] theorem scrambleHub_held (s : State) : (scrambleHub s).held = s.held := by
  unfold scrambleHub; dsimp only
  rw [foldl_held (fun u r => State.drawn_held _ _ (fun a u => by simp))]
  repeat rw [State.drawn_held _ _ (fun a u => by simp)]

@[simp] theorem execRailOutOfTolerance_held (rail) (s : State) : heldAfter (execRailOutOfTolerance rail s) = some s.held := by
  unfold execRailOutOfTolerance; split
  · rfl
  · split
    case h_8 => exact congrArg some (State.drawn_held _ _ (fun q u => by simp))
    all_goals simp

@[simp] theorem endPending_held (fn v) (s : State) : (endPending fn v s).held = s.held := by
  unfold endPending
  split <;> simp

@[simp] theorem takeLatch_held (fn who off) (s : State) : (takeLatch fn who off s).held = s.held := by
  simp [takeLatch]

@[simp] theorem noteUr_held (ur) (s : State) : (noteUr ur s).held = s.held := by
  simp [noteUr]

theorem accessed_held {fn off} {act : State → Host.Outcome State Fault Refusal} (h : ∀ u, heldAfter (act u) = some u.held)
    (s : State) : heldAfter (accessed fn off act s) = some s.held := by
  unfold accessed; split <;> simp [h]

@[simp] theorem execLatchingRead_held (fn off) (s : State) : heldAfter (execLatchingRead fn off s) = some s.held := by
  refine accessed_held (fun u => ?_) s
  split <;> simp

@[simp] theorem ackWrite_held (fn off seq) (s : State) : (ackWrite fn off seq s).held = s.held := by
  unfold ackWrite
  repeat' split
  all_goals simp

@[simp] theorem execEventAck_held (fn off seq) (s : State) : heldAfter (execEventAck fn off seq s) = some s.held :=
  accessed_held (fun u => by simp only [heldAfter_next]; split <;> simp) s

@[simp] theorem xwinWrite_held (r win v) (s : State) : (xwinWrite r win v s).held = s.held := by
  simp [xwinWrite]

@[simp]
theorem execXwinWrite_held (fn rg win v) (s : State) : heldAfter (execXwinWrite fn rg win v s) = some s.held := by
  simp [execXwinWrite]

@[simp] theorem tailWrite_held (r v) (s : State) : (tailWrite r v s).held = s.held := by
  simp [tailWrite]

@[simp] theorem execExpTailWrite_held (fn rg v) (s : State) : heldAfter (execExpTailWrite fn rg v s) = some s.held := by
  simp [execExpTailWrite]

@[simp] theorem hazWrite_held (r v) (s : State) : (hazWrite r v s).held = s.held := by
  simp [hazWrite]

@[simp] theorem execHazTailWrite_held (fn rg v) (s : State) : heldAfter (execHazTailWrite fn rg v s) = some s.held := by
  simp [execHazTailWrite]

@[simp] theorem limitWrite_held (r v) (s : State) : (limitWrite r v s).held = s.held := by
  simp [limitWrite]

@[simp] theorem badCommand_held (op fn tag a) (s : State) : (badCommand op fn tag a s).held = s.held := by
  unfold badCommand; exact mailCommand_held _ _ _ _ _ _ _ _ (fun c u => by simp) s

@[simp] theorem argWrite_held (f off v) (s : State) : (argWrite f off v s).held = s.held := by
  simp [argWrite]

@[simp] theorem winWrite_held (fn r full off v) (s : State) : heldAfter (winWrite fn r full off v s) = some s.held := by
  simp [winWrite]

@[simp] theorem provWrite_held (off v) (s : State) : (provWrite off v s).held = s.held := by
  simp [provWrite]

@[simp] theorem parityHit_held (h) (s : State) : (parityHit h s).held = s.held := by
  unfold parityHit
  repeat' split
  all_goals simp

@[simp] theorem execParitySweep_held (hits) (s : State) : heldAfter (execParitySweep hits s) = some s.held := by
  simp [execParitySweep]

@[simp] theorem smbNack_held (s : State) : (smbNack s).held = s.held := by
  simp [smbNack]

@[simp] theorem smbAnswer_held (m sent out) (s : State) : (smbAnswer m sent out s).held = s.held := by
  simp [smbAnswer]

@[simp]
theorem execSmbusSetPointer_held (bytes m) (s : State) : heldAfter (execSmbusSetPointer bytes s m) = some s.held := by
  simp [execSmbusSetPointer]

@[simp] theorem execSmbusBlockRead_held (m) (s : State) : heldAfter (execSmbusBlockRead s m) = some s.held := by
  simp [execSmbusBlockRead]

@[simp] theorem execSmbusVersionRead_held (m) (s : State) : heldAfter (execSmbusVersionRead s m) = some s.held := by
  simp [execSmbusVersionRead]

@[simp]
theorem execJtagInstruction_held (ir trst) (s : State) : heldAfter (execJtagInstruction ir s trst) = some s.held := by
  simp [execJtagInstruction]

@[simp] theorem execVdld_held (t w) (s : State) : heldAfter (execVdld t w s) = some s.held := by
  refine congrArg some (slotOp_held (fun i u => ?_) s)
  simp

@[simp] theorem execVjld_held (t w) (s : State) : heldAfter (execVjld t w s) = some s.held := by
  refine congrArg some (slotOp_held (fun i u => ?_) s)
  simp

@[simp] theorem execVpld_held (t w) (s : State) : heldAfter (execVpld t w s) = some s.held := by
  refine congrArg some (slotOp_held (fun i u => ?_) s)
  dsimp only; split
  · simp
  · refine rowCheck_keeps ?_ rfl
    split
    · next h => simpa using held_of_eq₃ h (State.readRow_held ..)
    · next h => simpa using held_of_eq₃ h (State.readRow_held ..)

@[simp] theorem startJob_held (i u) (s : State) : (startJob i u s).held = s.held := by
  simp [startJob]

@[simp] theorem execVrun_held (t w) (s : State) : heldAfter (execVrun t w s) = some s.held := by
  refine congrArg some (slotOp_held (fun i u => ?_) s)
  simp

@[simp] theorem execVruna_held (t w) (s : State) : heldAfter (execVruna t w s) = some s.held := by
  refine congrArg some (slotOp_held (fun i u => ?_) s)
  simp

@[simp] theorem execVmode_held (t w) (s : State) : heldAfter (execVmode t w s) = some s.held := by
  refine congrArg some (slotOp_held (fun i u => ?_) s)
  simp

@[simp] theorem vectorCycle_held (r t c) (s : State) : (vectorCycle r t c s).held = s.held := by
  simp [vectorCycle]

@[simp] theorem execVectorJobEnd_held (t) (s : State) : heldAfter (execVectorJobEnd t s) = some s.held := by
  unfold execVectorJobEnd
  split <;> simp

@[simp] theorem asyncRead_held (r t key row a) : (asyncRead r t key row a).2.2.held = a.2.2.held := by
  unfold asyncRead; grind [State.readFree_held]

@[simp] theorem asyncWrite_held (t row kind a) : (asyncWrite t row kind a).2.2.held = a.2.2.held := by
  unfold asyncWrite; dsimp only; repeat' split
  all_goals simp

@[simp] theorem asyncRun_held (r t j) (s : State) : (asyncRun r t j s).2.2.held = s.held := by
  unfold asyncRun; dsimp only
  have h := foldl_inv (P := fun a : Job × Option (Nat × Nat) × State => a.2.2.held)
    (fun a e => asyncRead_held r t (1024 * e.1 + e.2.1) e.2.1 a) (({ j.setup.begin_ 0 0 with async := true } : Job).groups.flatMap (fun q => q.reads))
    ({ j.setup.begin_ 0 0 with async := true }, none, s)
  split
  · next hf => rw [hf] at h; exact h
  · next hf =>
    rw [hf] at h
    rw [foldl_inv (P := fun a : Job × Option (Nat × Nat) × State => a.2.2.held)]
    · rw [← h]; simp
    · intro a w; split <;> simp

@[simp] theorem execAsyncJobComplete_held (t k) (s : State) : heldAfter (execAsyncJobComplete t k s) = some s.held := by
  unfold execAsyncJobComplete; split
  · rfl
  · split
    · rfl
    · split
      · rfl
      · dsimp only; split
        · next h => simpa using held_of_eq₃ h (asyncRun_held ..)
        · next h => simpa using held_of_eq₃ h (asyncRun_held ..)

@[simp] theorem bankCycle_held (rows still now t) (s : State) : (bankCycle rows still now t s).held = s.held := by
  simp [bankCycle]

@[simp] theorem bankCycles_held (s : State) : (bankCycles s).held = s.held := by
  unfold bankCycles
  grind [State.held, foldl_held, foldl_snd_held, bankCycle_held]

@[simp] theorem packetReads_held (r c) (s : State) : (packetReads r c s).held = s.held := by
  unfold packetReads; dsimp only
  rw [State.modRegion_held, foldl_snd_held]
  intro a p; grind [State.readRow_held, State.raise_held, State.draw_held]

@[simp] theorem armedScale_held (r t c a) (s : State) : (armedScale r t c a s).2.held = s.held := by
  unfold armedScale
  grind [State.held, foldl_held, foldl_snd_held, State.readSched_held, State.raise_held]

@[simp] theorem receiveWrite_held (r t a row v) (s : State) : (receiveWrite r t a row v s).held = s.held := by
  unfold receiveWrite
  grind [State.held, foldl_held, foldl_snd_held, State.raise_held, State.draw_held, State.writeRow_held]

@[simp] theorem armedWrite_held (r t c a) (s : State) : (armedWrite r t c a s).held = s.held := by
  unfold armedWrite
  grind [State.held, foldl_held, foldl_snd_held, receiveWrite_held]

@[simp] theorem receiveCycle_held (r t c) (s : State) : (receiveCycle r t c s).held = s.held := by
  simp [receiveCycle]

@[simp] theorem moverRead_held (r t row m) (s : State) : (moverRead r t row m s).2.held = s.held := by
  unfold moverRead
  grind [State.held, foldl_held, foldl_snd_held, State.readRow_held, State.raise_held, State.draw_held]

@[simp] theorem copyCycle_held (r t c m) (s : State) : (copyCycle r t c m s).2.held = s.held := by
  unfold copyCycle
  grind [State.held, foldl_held, foldl_snd_held, moverRead_held, State.writeRow_held]

@[simp] theorem sendCycle_held (r t c m) (s : State) : (sendCycle r t c m s).2.held = s.held := by
  unfold sendCycle
  grind [State.held, foldl_held, foldl_snd_held, State.modTile_held, moverRead_held, State.modRegion_held]

theorem moverCycles_held {act : Mover → State → Option Mover × State} (h : ∀ m u, (act m u).2.held = u.held) (l) (s : State) :
    (moverCycles act l s).2.held = s.held := by
  unfold moverCycles; simp [h]

@[simp] theorem moveCycle_held (r t c) (s : State) : (moveCycle r t c s).held = s.held := by
  simp [moveCycle, moverCycles_held]

@[simp] theorem tileCycle_held (r c t) (s : State) : (tileCycle r c s t).held = s.held := by
  simp [tileCycle]

@[simp] theorem descStarts_held (r) (s : State) : (descStarts r s).held = s.held := by
  simp [descStarts]

@[simp] theorem regionCycle_held (r) (s : State) : (regionCycle r s).held = s.held := by
  simp [regionCycle]

@[simp] theorem regionEnd_held (r) (s : State) : (regionEnd r s).held = s.held := by
  simp [regionEnd]

@[simp] theorem cycleRecords_held (r) (s : State) : (cycleRecords s r).held = s.held := by
  simp [cycleRecords]

@[simp] theorem State.core_held (t f) (a : State) : (State.core a t f).held = a.held := by
  simp [State.core]

@[simp] theorem State.issued_held (r t slot flow) (a : State) : (State.issued a r t slot flow).held = a.held := by
  simp [State.issued]

@[simp] theorem State.rung_held (op fn rg tag a) (s : State) : (State.rung s op fn rg tag a).held = s.held := by
  simp [State.rung]

end Sys2Proof.Machine

namespace Sys2Proof.Machine
open Sys2Proof

/-! ### What every command keeps -/

/-- `u` has the queue and the count of wall cycles of `s`, and fuses a part can burn where `s` has. -/
def Keeps (s u : State) : Prop := u.pending = s.pending ∧ u.wall = s.wall ∧ (FusesWithin s → FusesWithin u)

theorem Keeps.refl (s : State) : Keeps s s := ⟨rfl, rfl, id⟩

theorem Keeps.trans {s u v : State} (h : Keeps s u) (h' : Keeps u v) : Keeps s v := by
  obtain ⟨hp, hw, hf⟩ := h
  obtain ⟨hp', hw', hf'⟩ := h'
  exact ⟨hp'.trans hp, hw'.trans hw, hf' ∘ hf⟩

/-- The fuses of a state say whether they are within what the part can burn. -/
theorem fusesWithin_congr {s u : State} (h : u.fuses = s.fuses) : FusesWithin s → FusesWithin u := by
  unfold FusesWithin; rw [h]; exact id

theorem Keeps.of_held {s u : State} (h : u.held = s.held) : Keeps s u := by
  simp only [State.held, Prod.mk.injEq] at h
  obtain ⟨hp, hw, hf⟩ := h
  exact ⟨hp, hw, fusesWithin_congr hf⟩

theorem Keeps.fuses {s u : State} (h : u.held = s.held) : u.fuses = s.fuses := congrArg (·.2.2) h

/-- A change of the fuses alone keeps what it keeps of the fuses. -/
theorem Keeps.setFuses {s : State} {f : Fuses} (h : FusesWithin s → FusesWithin { s with fuses := f }) :
    Keeps s { s with fuses := f } := ⟨rfl, rfl, h⟩

theorem foldl_keeps {α : Type} {f : State → α → State} (h : ∀ u x, Keeps u (f u x)) (l : List α) (s : State) :
    Keeps s (l.foldl f s) := by
  induction l generalizing s with
  | nil => exact Keeps.refl s
  | cons x l ih => exact (h s x).trans (ih (f s x))

/-! ### The fuses -/

theorem coldClear_keeps (s : State) : Keeps s (coldClear s) := by
  refine ⟨rfl, rfl, fun ⟨he, hr, _⟩ => ⟨?_, hr, fun _ _ h => nomatch h⟩⟩
  exact Nat.le_trans (Nat.add_le_add_left (Nat.zero_le _) _) he

/-- The entry whose pulse runs is counted among the eight when the pulse begins. -/
theorem programEntry_keeps {s : State} (h : s.fuses.pulse.isSome) (col : Nat) (ok : Bool) :
    Keeps s (programEntry col ok s) := by
  refine Keeps.setFuses fun ⟨he, hr, hp⟩ => ⟨?_, hr, hp⟩
  rw [h] at he
  simpa using he

theorem cutRetire_keeps (s : State) : Keeps s (cutRetire s) := by
  unfold cutRetire
  split
  · exact Keeps.refl s
  · next heq => exact programEntry_keeps (by simp [heq]) _ _

/-- Blowing the fuse of the slot whose pulse runs leaves a root key unrevoked. -/
theorem fusesWithin_revoke {s : State} {fn : Fn} {k : BitVec 2} (h : s.fuses.revokePulse = some (fn, k)) :
    FusesWithin s → FusesWithin { s with fuses := { s.fuses with revoked := s.fuses.revoked ||| (1#4 <<< k.toNat) } } := by
  rintro ⟨he, _, hp⟩
  refine ⟨he, hp fn k h, fun fn' k' h' => ?_⟩
  obtain ⟨rfl, rfl⟩ : fn = fn' ∧ k = k' := by simpa using h.symm.trans h'
  simpa [BitVec.or_assoc] using hp fn k h

theorem cutRevoke_keeps (s : State) : Keeps s (cutRevoke s) := by
  unfold cutRevoke
  split
  · exact Keeps.refl s
  · next fn k heq =>
    have hd : (s.draw 1).2.held = s.held := by simp
    dsimp only
    split
    · refine (Keeps.of_held hd).trans ?_
      rw [← Keeps.fuses hd] at heq ⊢
      exact Keeps.setFuses (fusesWithin_revoke heq)
    · exact Keeps.of_held hd

/-- The read-back of the entries changes none of them but its result. -/
theorem readFuses_keeps (ok : BitVec 8) (s : State) : Keeps s (readFuses ok s) := by
  refine Keeps.setFuses fun ⟨he, hr, hp⟩ => ⟨?_, hr, hp⟩
  simpa using he

theorem stepDone_keeps (k : Nat) (ok : BitVec 8) (s : State) : Keeps s (stepDone k ok s) := by
  unfold stepDone
  split
  · exact readFuses_keeps ok s
  · exact Keeps.of_held (by simp)
  · exact Keeps.of_held (by simp)
  · exact Keeps.refl s

/-! ### Resets -/

theorem doCold_keeps (k : Source) (s : State) : Keeps s (doCold k s) :=
  (coldClear_keeps s).trans (Keeps.of_held (by simp [doCold]))

theorem makeReset_keeps (k : Source) (s : State) : Keeps s (makeReset k s) := by
  unfold makeReset
  split
  · exact Keeps.of_held (by simp)
  · refine (Keeps.of_held (recordReset_held k s)).trans ?_
    dsimp only
    cases k with
    | powerOn | coldPin | cmdCold | thermal => exact doCold_keeps _ _
    | warmPin | cmdWarm | watchdog | perst => exact Keeps.of_held (by simp)

theorem arriveReset_keeps (k : Source) (s : State) : Keeps s (arriveReset k s) := by
  unfold arriveReset
  split
  · exact Keeps.refl s
  · split
    · exact Keeps.of_held (by simp)
    · exact makeReset_keeps k s

theorem heldResets_keeps (s : State) : Keeps s (heldResets s) := by
  refine Keeps.trans (Keeps.of_held ?_) (foldl_keeps (fun u k => makeReset_keeps k u) _ _)
  simp

/-! ### Commands that act on the fuses -/

/-- A doorbell that its checks turn away changes the mailboxes alone; one they accept acts on the state in which the
mailbox holds it. -/
theorem mailCommand_keeps (op scope named href fn rg tag a) {body : Call → State → State} (hb : ∀ c u, Keeps u (body c u))
    (s : State) : Keeps s (mailCommand op scope named href fn rg tag a body s) := by
  have hbody : ∀ c v, v.held = s.held → Keeps s (body c v) := fun c v h => (Keeps.of_held h).trans (hb c v)
  unfold mailCommand
  dsimp only
  repeat' split
  all_goals simp [Keeps.of_held, hbody]

/-- The state that a command leaves, if it leaves one, keeps what `s` had. -/
def KeepsOut (s : State) (o : Host.Outcome State Fault Refusal) : Prop := ∀ u, o = .next u → Keeps s u

theorem KeepsOut.next {s u : State} (h : Keeps s u) : KeepsOut s (.next u) := by
  rintro _ ⟨⟩; exact h

theorem KeepsOut.of_heldAfter {s : State} {o : Host.Outcome State Fault Refusal} (h : heldAfter o = some s.held) :
    KeepsOut s o := by
  rintro u rfl
  exact Keeps.of_held (by simpa using h)

theorem execRetireColumn_keeps (fn rg tag a) (s : State) : KeepsOut s (execRetireColumn fn rg tag a s) := by
  refine KeepsOut.next (mailCommand_keeps _ _ _ _ _ _ _ _ (fun c u => ?_) s)
  dsimp only
  split
  · exact Keeps.of_held (by simp)
  · next hfree =>
    split
    · exact Keeps.of_held (by simp)
    · split
      · exact Keeps.of_held (by simp)
      · split
        · exact Keeps.of_held (by simp)
        · split
          · exact Keeps.of_held (by simp)
          · next hroom =>
            refine Keeps.setFuses fun ⟨_, hr, hp⟩ => ⟨?_, hr, hp⟩
            simp only [Option.isSome_some, if_true]
            omega

/-- Fewer than three slots revoked, one more leaves a slot. -/
theorem revoke_one_more : ∀ (x : BitVec 4) (k : BitVec 2), x ≠ 0xF → x.getLsbD k.toNat = false → popCount x.toNat 4 ≠ 3 →
    x ||| (1#4 <<< k.toNat) ≠ 0xF := by decide

theorem execRevokeKey_keeps (fn rg tag a) (s : State) : KeepsOut s (execRevokeKey fn rg tag a s) := by
  refine KeepsOut.next (mailCommand_keeps _ _ _ _ _ _ _ _ (fun c u => ?_) s)
  dsimp only
  split
  · exact Keeps.of_held (by simp)
  · next hk =>
    split
    · exact Keeps.of_held (by simp)
    · next hbit =>
      split
      · exact Keeps.of_held (by simp)
      · next hcount =>
        refine Keeps.setFuses fun ⟨he, hr, _⟩ => ⟨he, hr, ?_⟩
        rintro fn k ⟨⟩
        refine revoke_one_more _ _ hr ?_ hcount
        simpa [Nat.mod_eq_of_lt (show argAt c.a 0 1 < 4 by omega)] using hbit

theorem execRetireFusePulseEnd_keeps (ok) (s : State) : KeepsOut s (execRetireFusePulseEnd ok s) := by
  unfold execRetireFusePulseEnd
  split
  · exact KeepsOut.next (Keeps.refl s)
  · next fn col heq =>
    have hp : Keeps s (programEntry col ok s) := programEntry_keeps (by simp [heq]) col ok
    exact KeepsOut.next ((hp.trans (Keeps.of_held (by simp))).trans (heldResets_keeps _))

theorem execRevokeFusePulseEnd_keeps (s : State) : KeepsOut s (execRevokeFusePulseEnd s) := by
  unfold execRevokeFusePulseEnd
  split
  · exact KeepsOut.next (Keeps.refl s)
  · next fn k heq =>
    have hcut : Keeps s { s with fuses := { s.fuses with
        revoked := s.fuses.revoked ||| (1#4 <<< k.toNat), revokePulse := none } } :=
      Keeps.setFuses fun h => by
        obtain ⟨he, hr, _⟩ := fusesWithin_revoke heq h
        exact ⟨he, hr, fun _ _ h => nomatch h⟩
    exact KeepsOut.next ((hcut.trans (Keeps.of_held (by simp))).trans (heldResets_keeps _))

/-! ### Pins, power and the release order -/

theorem pulsedReset_keeps (k : Source) (ns : Nat) (s : State) :
    Keeps s (if (pulseTaken ns s).1 then arriveReset k (pulseTaken ns s).2 else (pulseTaken ns s).2) := by
  have h : Keeps s (pulseTaken ns s).2 := Keeps.of_held (by simp)
  split
  · exact h.trans (arriveReset_keeps _ _)
  · exact h

theorem execHubWatchdog_keeps (s : State) : KeepsOut s (execHubWatchdog s) := by
  unfold execHubWatchdog
  split
  · exact KeepsOut.next (arriveReset_keeps _ _)
  · exact KeepsOut.next (Keeps.refl s)

theorem execPwrgoodRise_keeps (lost straps) (s : State) : KeepsOut s (execPwrgoodRise lost straps s) := by
  unfold execPwrgoodRise
  split
  · exact KeepsOut.next (Keeps.refl s)
  · have hclear : ∀ v k p, v.held = s.held → Keeps s (beginOrder k p (coldClear (recordReset k v))) := fun v k p h =>
      ((Keeps.of_held ((recordReset_held k v).trans h)).trans (coldClear_keeps _)).trans (Keeps.of_held (beginOrder_held _ _ _))
    refine KeepsOut.next (hclear _ _ _ ?_)
    simp

theorem execPwrgoodFall_keeps (s : State) : KeepsOut s (execPwrgoodFall s) := by
  unfold execPwrgoodFall
  split
  · exact KeepsOut.next (Keeps.refl s)
  · have hcut : Keeps s (unpowered (cutRetire (cutRevoke s))) :=
      ((cutRevoke_keeps s).trans (cutRetire_keeps _)).trans (Keeps.of_held (by simp))
    exact KeepsOut.next ((hcut.trans (coldClear_keeps _)).trans (Keeps.of_held (by simp)))

theorem execResetReleaseStep_keeps (waited ok) (s : State) : KeepsOut s (execResetReleaseStep waited ok s) := by
  unfold execResetReleaseStep
  split
  · exact KeepsOut.next (Keeps.refl s)
  · next k rest _ =>
    split
    · exact KeepsOut.next (Keeps.refl s)
    · split
      · exact KeepsOut.next (Keeps.of_held (by simp))
      · refine KeepsOut.next ((stepDone_keeps k ok s).trans (Keeps.of_held ?_))
        dsimp only
        split <;> simp

theorem execResetCommandStart_keeps (s : State) : KeepsOut s (execResetCommandStart s) := by
  unfold execResetCommandStart
  split
  · split
    · exact KeepsOut.next (Keeps.trans (Keeps.of_held (by simp)) (arriveReset_keeps _ _))
    · exact KeepsOut.next (Keeps.refl s)
  · exact KeepsOut.next (Keeps.refl s)

/-! ### The doorbell -/

theorem doorbell_keeps (op fn rg tag a) (s : State) : KeepsOut s (doorbell op fn rg tag a s) := by
  unfold doorbell
  split
  case h_3 => exact execRetireColumn_keeps _ _ _ _ s
  case h_4 => exact execRevokeKey_keeps _ _ _ _ s
  all_goals exact KeepsOut.of_heldAfter (by simp)

theorem execRegisterWrite_keeps (fn off v) (s : State) : KeepsOut s (execRegisterWrite fn off v s) := by
  unfold execRegisterWrite accessed
  dsimp only
  split
  · exact KeepsOut.next (Keeps.of_held (by simp))
  · have hn : ∀ {o}, KeepsOut (noteUr false s) o → KeepsOut s o :=
      fun h u hu => (Keeps.of_held (by simp)).trans (h u hu)
    refine hn ?_
    split
    · exact KeepsOut.next (Keeps.refl _)
    · split
      · exact doorbell_keeps _ _ _ _ _ _
      · refine KeepsOut.of_heldAfter ?_
        repeat' split
        all_goals simp

theorem exec_keeps (c : Instr) (s : State) : KeepsOut s (exec c s) := by
  cases c with
  | retireColumn => exact execRetireColumn_keeps _ _ _ _ s
  | revokeKey => exact execRevokeKey_keeps _ _ _ _ s
  | retireFusePulseEnd => exact execRetireFusePulseEnd_keeps _ s
  | revokeFusePulseEnd => exact execRevokeFusePulseEnd_keeps s
  | coldRstN ns => exact KeepsOut.next (pulsedReset_keeps .coldPin ns s)
  | warmRstN ns => exact KeepsOut.next (pulsedReset_keeps .warmPin ns s)
  | perstN ns => exact KeepsOut.next (pulsedReset_keeps .perst ns s)
  | hubWatchdog => exact execHubWatchdog_keeps s
  | thermalTrip => exact KeepsOut.next (arriveReset_keeps .thermal s)
  | pwrgoodRise => exact execPwrgoodRise_keeps _ _ s
  | pwrgoodFall => exact execPwrgoodFall_keeps s
  | resetReleaseStep => exact execResetReleaseStep_keeps _ _ s
  | resetCommandStart => exact execResetCommandStart_keeps s
  | registerWrite => exact execRegisterWrite_keeps _ _ _ s
  | _ => exact KeepsOut.of_heldAfter (by simp)

theorem after_keeps (c : Instr) (s : State) : Keeps s (after c s) := by
  unfold after
  split
  · next heq => exact exec_keeps c s _ heq
  · exact Keeps.refl s

/-! ### A cycle of the wall clock -/

theorem runDue_keeps (n : Nat) (s : State) : Keeps s (runDue n s) := by
  induction n generalizing s with
  | zero => exact Keeps.refl s
  | succ n ih =>
    rw [runDue]
    split
    · exact Keeps.refl s
    · exact (foldl_keeps (fun u c => after_keeps c u) _ s).trans (ih _)

theorem issueSlot_keeps (t : TileId) (b : Bundle) (s : State) (slot : Slot) : Keeps s (issueSlot t b s slot) := by
  unfold issueSlot
  dsimp only
  split
  · exact Keeps.refl s
  · split
    · exact after_keeps _ s
    · exact Keeps.refl s

theorem issueRegion_keeps (late : Bool) (s : State) (r : RegionId) : Keeps s (issueRegion late s r) := by
  unfold issueRegion
  dsimp only
  split
  · exact Keeps.refl s
  · exact foldl_keeps (fun u t => foldl_keeps (fun v slot => issueSlot_keeps t _ v slot) _ u) _ s

theorem applySets_keeps (s : State) : Keeps s (applySets s) := by
  unfold applySets
  exact foldl_keeps (fun u e => after_keeps _ u) _ s

theorem overRegions_keeps {f : State → RegionId → State} (h : ∀ u r, Keeps u (f u r)) (s : State) :
    Keeps s (s.regionIds.foldl f s) := foldl_keeps h _ s

theorem tick_keeps (s : State) : (tick s).pending = s.pending ∧ (FusesWithin s → FusesWithin (tick s)) := by
  unfold tick
  extract_lets wall s₁ s₂ s₃ s₄ s₅ s₆ s₇
  have h₁ : Keeps s s₁ := overRegions_keeps (issueRegion_keeps true) s
  have h₂ : Keeps s s₂ := h₁.trans (runDue_keeps 8 s₁)
  clear_value s₂
  have h₃ : Keeps s s₃ := h₂.trans (overRegions_keeps (issueRegion_keeps false) s₂)
  clear_value s₃
  have h₄ : Keeps s s₄ := h₃.trans (overRegions_keeps (fun u r => Keeps.of_held (regionCycle_held r u)) s₃)
  clear_value s₄
  have h₅ : Keeps s s₅ := (h₄.trans (applySets_keeps s₄)).trans (Keeps.of_held (bankCycles_held _))
  clear_value s₅
  have h₆ : Keeps s s₆ := h₅.trans (overRegions_keeps (fun u r => Keeps.of_held (regionEnd_held r u)) s₅)
  clear_value s₆
  have h₇ : Keeps s s₇ := (h₆.trans (overRegions_keeps (fun u r => Keeps.of_held (by simp)) s₆)).trans
    (Keeps.of_held (blockCycle_held _))
  clear_value s₇
  obtain ⟨hp, _, hf⟩ := h₇
  exact ⟨hp, hf⟩

/-! ### The statements -/

/-- Settles O57: a command that acts keeps the queue, as every operation it is made of does. -/
theorem commandsKeepTheQueue : Obligations.CommandsKeepTheQueue := by
  unfold Obligations.CommandsKeepTheQueue
  intro c s u h
  exact (exec_keeps c s u h).1

/-- Settles O58: only the pulses of retirement and revocation, the read-back of the entries and the loss of a pulse
change the fuses, and a pulse begins where the fuses have room for what it burns. -/
theorem stepsKeepTheFusesWithin : Obligations.StepsKeepTheFusesWithin := by
  unfold Obligations.StepsKeepTheFusesWithin
  intro s u hs h
  unfold step at h
  split at h
  · obtain rfl : tick s = u := by simpa using h
    exact (tick_keeps s).2 hs
  · next c rest _ => exact (exec_keeps c { s with pending := rest } u h).2.2 hs

/-- Settles O1: `step` on a queue that has a front. -/
theorem stepRunsTheFrontCommand : Obligations.StepRunsTheFrontCommand := by
  unfold Obligations.StepRunsTheFrontCommand
  intro c rest s
  rfl

/-- Settles O2: a cycle of the wall clock ends with the count one further. -/
theorem emptyQueueCountsAWallCycle : Obligations.EmptyQueueCountsAWallCycle := by
  unfold Obligations.EmptyQueueCountsAWallCycle
  intro s h
  refine ⟨tick s, ?_, rfl⟩
  unfold step
  rw [h]

/-- Settles O59: no fuse is burnt and no pulse runs. -/
theorem resetFusesAreWithin : Obligations.ResetFusesAreWithin := by
  unfold Obligations.ResetFusesAreWithin
  exact ⟨Nat.zero_le 8, by decide, fun _ _ h => nomatch h⟩

end Sys2Proof.Machine

namespace Sys2Proof.Machine
open Sys2Proof

/-! ### The layout of a flit -/

theorem crcBits_lt (n c : Nat) (h : c < 2 ^ 32) : crcBits n c < 2 ^ 32 := by
  induction n generalizing c with
  | zero => exact h
  | succ n ih =>
    have hs : c >>> 1 < 2 ^ 32 := Nat.lt_of_le_of_lt (Nat.shiftRight_le c 1) h
    refine ih _ ?_
    split
    · exact Nat.xor_lt_two_pow hs (by decide)
    · exact hs

theorem crc32c_lt (b : List Byte) : crc32c b < 2 ^ 32 := by
  have hfold : ∀ (l : List Byte) (c : Nat), c < 2 ^ 32 → l.foldl (fun c x => crcBits 8 (c ^^^ x.toNat)) c < 2 ^ 32 := by
    intro l
    induction l with
    | nil => exact fun _ h => h
    | cons x l ih => exact fun c h => ih _ (crcBits_lt 8 _ (Nat.xor_lt_two_pow h (by omega)))
  exact Nat.xor_lt_two_pow (hfold b _ (by decide)) (by decide)

/-- The fields of a flit below its payload, and all its fields below its CRC. -/
def flitHead (type vl seq ack : Nat) : Nat := type + vl * 2 ^ 8 + seq * 2 ^ 16 + ack * 2 ^ 32
def flitBody (type vl seq ack payload : Nat) : Nat := flitHead type vl seq ack + 2 ^ 64 * payload

/-- A number of `b` bits above one of `a` bits. -/
theorem add_two_pow_mul_lt {x y a b c : Nat} (hx : x < 2 ^ a) (hy : y < 2 ^ b) (hc : a + b = c) : x + 2 ^ a * y < 2 ^ c :=
  calc x + 2 ^ a * y < 2 ^ a + 2 ^ a * y := Nat.add_lt_add_right hx _
    _ = 2 ^ a * (y + 1) := by rw [Nat.mul_succ, Nat.add_comm]
    _ ≤ 2 ^ a * 2 ^ b := Nat.mul_le_mul_left _ hy
    _ = 2 ^ c := by rw [← Nat.pow_add, hc]

/-- The number that a flit is, and a field of it, by the numbers below and above the field. -/
theorem bits_mid {w : Nat} {f : BitVec w} {lo mid hi a len : Nat} (h : f.toNat = lo + 2 ^ a * (mid + 2 ^ len * hi))
    (hlo : lo < 2 ^ a) (hmid : mid < 2 ^ len) : Word.bits f a len = mid := by
  rw [Word.bits, h, Nat.shiftRight_eq_div_pow, Nat.add_mul_div_left _ _ (Nat.two_pow_pos a), Nat.div_eq_of_lt hlo, Nat.zero_add,
    Nat.add_mul_mod_self_left, Nat.mod_eq_of_lt hmid]

section
variable {type vl seq ack payload : Nat} (htype : type < 4) (hvl : vl < 256) (hseq : seq < 4096) (hack : ack < 65536)
  (hpayload : payload < 2 ^ 1952)
include htype hvl hseq hack

theorem flitHead_lt : flitHead type vl seq ack < 2 ^ 64 := by
  unfold flitHead
  omega

include hpayload

theorem flitBody_lt : flitBody type vl seq ack payload < 2 ^ 2016 := by
  exact add_two_pow_mul_lt (flitHead_lt htype hvl hseq hack) hpayload rfl

theorem mkFlit_toNat : (mkFlit type vl seq ack payload).toNat =
    flitBody type vl seq ack payload + 2 ^ 2016 * crc32c (leBytes 252 (flitBody type vl seq ack payload)) := by
  have hbody : type % 256 + ((vl % 256) <<< 8) + ((seq % 65536) <<< 16) + ((ack % 65536) <<< 32)
      + ((payload % 2 ^ 1952) <<< 64) = flitBody type vl seq ack payload := by
    rw [Nat.mod_eq_of_lt (by omega : type < 256), Nat.mod_eq_of_lt hvl, Nat.mod_eq_of_lt (by omega : seq < 65536),
      Nat.mod_eq_of_lt hack, Nat.mod_eq_of_lt hpayload]
    simp only [Nat.shiftLeft_eq, flitBody, flitHead, Nat.mul_comm payload]
  have hlt := flitBody_lt htype hvl hseq hack hpayload
  have hcrc := crc32c_lt (leBytes 252 (flitBody type vl seq ack payload))
  rw [mkFlit, hbody, Nat.shiftLeft_eq, BitVec.toNat_ofNat, Nat.mul_comm (crc32c _), Nat.mod_eq_of_lt]
  generalize crc32c (leBytes 252 (flitBody type vl seq ack payload)) = crc at hcrc
  exact add_two_pow_mul_lt hlt hcrc rfl

/-- A flit by its head, its payload and its CRC. -/
theorem mkFlit_split : (mkFlit type vl seq ack payload).toNat = flitHead type vl seq ack + 2 ^ 64 * (payload +
    2 ^ 1952 * crc32c (leBytes 252 (flitBody type vl seq ack payload))) := by
  rw [mkFlit_toNat htype hvl hseq hack hpayload, flitBody, Nat.mul_add, ← Nat.mul_assoc, ← Nat.pow_add, Nat.add_assoc]

theorem flType_mkFlit : flType (mkFlit type vl seq ack payload) = type := by
  rw [flType, Word.bits, mkFlit_split htype hvl hseq hack hpayload, flitHead]
  omega

theorem flVl_mkFlit : flVl (mkFlit type vl seq ack payload) = vl := by
  rw [flVl, Word.bits, mkFlit_split htype hvl hseq hack hpayload, flitHead]
  omega

theorem flSeq_mkFlit : (flSeq (mkFlit type vl seq ack payload)).toNat = seq := by
  rw [flSeq, BitVec.extractLsb'_toNat, mkFlit_split htype hvl hseq hack hpayload, flitHead]
  omega

theorem flAck_mkFlit : (flAck (mkFlit type vl seq ack payload)).toNat = ack % 4096 := by
  rw [flAck, BitVec.extractLsb'_toNat, mkFlit_split htype hvl hseq hack hpayload, flitHead]
  omega

theorem flNak_mkFlit : flNak (mkFlit type vl seq ack payload) = decide (32768 ≤ ack) := by
  rw [flNak, Word.bit, BitVec.getLsbD, Nat.testBit_eq_decide_div_mod_eq, mkFlit_split htype hvl hseq hack hpayload, flitHead]
  exact decide_eq_decide.2 (by omega)

theorem flPayload_mkFlit : flPayload (mkFlit type vl seq ack payload) = leBytes 244 payload := by
  rw [flPayload, flAt, bits_mid (mkFlit_split htype hvl hseq hack hpayload) (flitHead_lt htype hvl hseq hack) hpayload]

theorem mkFlit_body : (mkFlit type vl seq ack payload).toNat % 2 ^ 2016 = flitBody type vl seq ack payload := by
  rw [mkFlit_toNat htype hvl hseq hack hpayload, Nat.add_mul_mod_self_left,
    Nat.mod_eq_of_lt (flitBody_lt htype hvl hseq hack hpayload)]

theorem flAt_crc_mkFlit : flAt (mkFlit type vl seq ack payload) 252 4 =
    crc32c (leBytes 252 ((mkFlit type vl seq ack payload).toNat % 2 ^ 2016)) := by
  rw [mkFlit_body htype hvl hseq hack hpayload]
  refine bits_mid (hi := 0) ?_ (flitBody_lt htype hvl hseq hack hpayload) (crc32c_lt _)
  rw [Nat.mul_zero, Nat.add_zero, mkFlit_toNat htype hvl hseq hack hpayload]

/-- The zero bytes between the ACK and the payload. -/
theorem flAt_gap_mkFlit : flAt (mkFlit type vl seq ack payload) 6 2 = 0 := by
  rw [flAt, Word.bits, mkFlit_split htype hvl hseq hack hpayload, flitHead]
  omega

end

/-- A DATA flit of a lane is good as built. -/
theorem flGood_mkFlit_data {vl seq ack payload : Nat} (hvl : vl < 8) (hseq : seq < 4096) (hack : ack < 65536)
    (hpayload : payload < 2 ^ 1952) : flGood tData (mkFlit tData vl seq ack payload) false = true := by
  have htype : tData < 4 := by decide
  have hvl' : vl < 256 := by omega
  have hctrl : tData ≠ tCtrl := by decide
  have hhold : tData ≠ tHold := by decide
  simp [hctrl, hhold, flGood, flZeros, flType_mkFlit htype hvl' hseq hack hpayload, flVl_mkFlit htype hvl' hseq hack hpayload,
    flAt_gap_mkFlit htype hvl' hseq hack hpayload, flAt_crc_mkFlit htype hvl' hseq hack hpayload, hvl]

/-- Settles O33: a flit is the sum of its fields, each below the place of the next. -/
theorem flitsDecodeAsBuilt : Obligations.FlitsDecodeAsBuilt := by
  unfold Obligations.FlitsDecodeAsBuilt
  intro type vl seq ack payload htype hvl hseq hack hpayload
  have hty := flType_mkFlit htype hvl hseq hack hpayload
  refine ⟨hty, flVl_mkFlit htype hvl hseq hack hpayload, flSeq_mkFlit htype hvl hseq hack hpayload,
    flAck_mkFlit htype hvl hseq hack hpayload, flNak_mkFlit htype hvl hseq hack hpayload,
    flPayload_mkFlit htype hvl hseq hack hpayload, flAt_crc_mkFlit htype hvl hseq hack hpayload, ?_, ?_⟩
  · rintro rfl hlane
    exact flGood_mkFlit_data hlane hseq hack hpayload
  · intro ue hgood
    simp only [flGood, hty, Bool.and_eq_true, beq_iff_eq, Bool.not_eq_true'] at hgood
    obtain ⟨⟨⟨hue, htype'⟩, _⟩, _⟩ := hgood
    exact ⟨htype', hue⟩

end Sys2Proof.Machine

namespace Sys2Proof.Machine
open Sys2Proof

/-! ### S-slot operations that change the core alone (02 R49, R52, R54, R57) -/

@[simp] theorem Ctl.setPair_bundle (c : Ctl) (n : Nat) (v : DWord) (now ready : Nat) :
    (c.setPair n v now ready).bundle = c.bundle := rfl

@[simp] theorem Ctl.setPred_bundle (c : Ctl) (n : Nat) (v : Bool) (now ready : Nat) :
    (c.setPred n v now ready).bundle = c.bundle := rfl

/-- A result that raises flags is one change of the core. -/
theorem ctl_putFlags (i : Site) (fl : BitVec 5) (lat : Nat) (s : State) (g : Ctl → Ctl) :
    i.ctl (putFlags i fl lat s) g = s.core i.t (fun c => g { c with ff := c.ff ++ [(i.now + lat, fl)] }) := by
  unfold putFlags Site.ctl State.core
  exact State.modTile_modTile _ _ _ _

/-- An S-slot operation whose whole effect is on the core and on where it goes on. -/
theorem slotOp_core {s : State} {t : TileId} {w : SlotWord} {r : RegionId} {op : Nat} (f : Ctl → Ctl) {flow : Flow}
    {enc : Site → State → Option (Nat × Nat)} {act : Site → State → Act} (h : Issues s .s t w r) (ho : opOf w = op)
    (he : enc ((s.opened r t).site r .s t w) (s.opened r t) = none)
    (ha : act ((s.opened r t).site r .s t w) (s.opened r t) = .done ((s.opened r t).core t f) flow)
    (hf : ∀ c, (f c).bundle = c.bundle) :
    slotOp .s op t w enc act s = ((s.opened r t).core t f).issued r t .s flow :=
  slotOp_done .s op t w enc act s _ r flow (ho ▸ fits_opOf .s w) h he ha (by simp [hf]) rfl

/-- An S-slot operation that only says where the core goes on. -/
theorem slotOp_flow {s : State} {t : TileId} {w : SlotWord} {r : RegionId} {op : Nat} {flow : Flow}
    {enc : Site → State → Option (Nat × Nat)} {act : Site → State → Act} (h : Issues s .s t w r) (ho : opOf w = op)
    (he : enc ((s.opened r t).site r .s t w) (s.opened r t) = none)
    (ha : act ((s.opened r t).site r .s t w) (s.opened r t) = .done (s.opened r t) flow) :
    slotOp .s op t w enc act s = (s.opened r t).issued r t .s flow :=
  slotOp_done .s op t w enc act s _ r flow (ho ▸ fits_opOf .s w) h he ha rfl rfl

/-- An operation with an immediate writes its result, readable a cycle later. -/
theorem immOp_done {s : State} {t : TileId} {w : SlotWord} {r : RegionId} {op : Nat} (f : Word → Word)
    (h : Issues s .s t w r) (ho : opOf w = op) :
    immOp t w op f s = ((s.opened r t).core t (fun c => c.setReg (rdOf w) (f (((s.opened r t).tile t).ctl.reg (raOf w)))
      ((s.opened r t).region r).cycle (((s.opened r t).region r).cycle + 1))).issued r t .s .seq :=
  slotOp_putReg op (rdOf w) _ 1 _ _ h ho (encoding_of_ok ho rfl) rfl

/-- Settles O3: each is a register write of its own word. -/
theorem immediateOperationsWriteRd : Obligations.ImmediateOperationsWriteRd := by
  unfold Obligations.ImmediateOperationsWriteRd
  intro s t w r h
  refine ⟨fun ho => ?_, fun ho => ?_, fun ho => ?_, fun ho => ?_, fun ho => ?_, fun ho => ?_⟩
  · exact congrArg Host.Outcome.next (immOp_done (fun a => a + simmOf w) h ho)
  · exact congrArg Host.Outcome.next (immOp_done (fun a => a &&& simmOf w) h ho)
  · exact congrArg Host.Outcome.next (immOp_done (fun a => a ||| simmOf w) h ho)
  · exact congrArg Host.Outcome.next (immOp_done (fun a => a ^^^ simmOf w) h ho)
  · refine congrArg Host.Outcome.next (slotOp_putReg 0x07 (rdOf w) _ 1 _ _ h ho (encoding_of_ok ho rfl) ?_)
    rw [← Nat.shiftLeft_eq, State.site_w]
  · exact congrArg Host.Outcome.next (slotOp_putReg 0x1C (rdOf w) _ 1 _ _ h ho (encoding_of_ok ho rfl) rfl)

/-- Settles O5: each writes one predicate, FSETP after its flags. -/
theorem predicateOperationsWritePd : Obligations.PredicateOperationsWritePd := by
  unfold Obligations.PredicateOperationsWritePd
  intro s t w r h
  refine ⟨fun ho hc hz => ?_, fun ho hz => ?_, fun ho hz hc => ?_, fun ho hz hc ha hb => ?_⟩
  · refine congrArg Host.Outcome.next (slotOp_core (op := 0x08) _ h ho (encoding_of_ok ho ?_) rfl fun _ => rfl)
    simp [zeroAt, hc, hz]
  · refine congrArg Host.Outcome.next (slotOp_core (op := 0x09) _ h ho (encoding_of_ok ho ?_) rfl fun _ => rfl)
    simp [zeroAt, hz]
  · refine congrArg Host.Outcome.next (slotOp_core (op := 0x12) _ h ho (encoding_of_ok ho ?_) ?_ fun _ => rfl)
    · simp [zeroAt, hz, hc]
    · simp only [State.site_w, State.site_t, State.site_now, Nat.not_le.2 hc, decide_false, Bool.false_eq_true, if_false]
      exact congrArg Act.ok (ctl_putFlags _ _ _ _ _)
  · refine congrArg Host.Outcome.next (slotOp_core (op := 0x12) _ h ho (encoding_of_ok ho ?_) ?_ fun _ => rfl)
    · simp [zeroAt, hz, ha, hb]
    · simp only [State.site_w, State.site_t, State.site_now, hc, decide_true, if_true]
      exact congrArg Act.ok (ctl_putFlags _ _ _ _ _)

/-- Settles O6: the flags and then the result, in a register or a pair by the FN. -/
theorem floatingOperationsWriteResultAndFlags : Obligations.FloatingOperationsWriteResultAndFlags := by
  unfold Obligations.FloatingOperationsWriteResultAndFlags
  intro s t w r h
  refine ⟨fun ho he => ?_, fun ho he => ?_⟩
  · dsimp only
    split
    · next hfn =>
      refine congrArg Host.Outcome.next (slotOp_core (op := 0x10) _ h ho (encoding_of_ok ho he) ?_ fun _ => rfl)
      simp only [State.site_w, hfn, if_true]
      exact congrArg Act.ok (ctl_putFlags _ _ _ _ _)
    · next hfn =>
      refine congrArg Host.Outcome.next (slotOp_core (op := 0x10) _ h ho (encoding_of_ok ho he) ?_ fun _ => rfl)
      simp only [State.site_w, hfn, if_false]
      exact congrArg Act.ok (ctl_putFlags _ _ _ _ _)
  · dsimp only
    by_cases hfn : fnOf w = 0x09 ∨ fnOf w = 0x0A
    · rw [if_pos hfn]
      refine congrArg Host.Outcome.next (slotOp_core (op := 0x11) _ h ho (encoding_of_ok ho he) ?_ fun _ => rfl)
      simp only [State.site_w, hfn, if_true]
      exact congrArg Act.ok (ctl_putFlags _ _ _ _ _)
    · rw [if_neg hfn]
      refine congrArg Host.Outcome.next (slotOp_core (op := 0x11) _ h ho (encoding_of_ok ho he) ?_ fun _ => rfl)
      simp only [State.site_w, hfn, if_false]
      exact congrArg Act.ok (ctl_putFlags _ _ _ _ _)

/-! ### Branches and loops (02 R57, R58) -/

/-- A branch is legal in a bundle that is neither a delay bundle nor a loop's END. -/
theorem branchEnc_of_legal {op : Nat} {i : Site} {s : State} {ok : Bool} (ho : opOf i.w = op) (hk : ok = true)
    (hb : (s.tile i.t).ctl.branch = none) (hl : (s.tile i.t).ctl.loopHere = none) : branchEnc op i s ok = none :=
  encoding_of_ok ho (by simp [hk, Ctl.noBranchHere, hb, hl])

theorem branchesTakeEffect : Rules.BranchesTakeEffect := by
  intro s t w r h
  refine fun hb hl => ⟨fun ho hz => ?_, fun ho hz => ?_, fun ho hz hz' => ?_⟩
  · exact congrArg Host.Outcome.next (slotOp_flow (op := 0x0A) h ho (branchEnc_of_legal ho (by simp [zeroAt, hz]) hb hl) rfl)
  · exact congrArg Host.Outcome.next (slotOp_core (op := 0x0B) _ h ho (branchEnc_of_legal ho (by simp [zeroAt, hz]) hb hl) rfl fun _ => rfl)
  · exact congrArg Host.Outcome.next (slotOp_flow (op := 0x0C) h ho (branchEnc_of_legal ho (by simp [zeroAt, hz, hz']) hb hl) rfl)

/-- A loop is legal where a branch is, with its END ahead, no loop of the same counter or END open, and no loop that ends
before it. -/
theorem loopEnc_of_legal {op : Nat} {i : Site} {s : State} {ok : Bool} (ho : opOf i.w = op) (hk : ok = true)
    (hb : (s.tile i.t).ctl.branch = none) (hl : (s.tile i.t).ctl.loopHere = none) (hend : i.pc.toNat < (baOf i.w).toNat)
    (hopen : ∀ l ∈ (s.tile i.t).ctl.loops, l.lc.toNat ≠ lcOf i.w ∧ l.stop ≠ baOf i.w)
    (hhead : ∀ l, (s.tile i.t).ctl.loops.head? = some l → ¬ l.stop < baOf i.w) : loopEnc op i s ok = none := by
  have hsame : (s.tile i.t).ctl.loops.any (fun l => l.lc.toNat == lcOf i.w || l.stop == baOf i.w) = false := by
    simpa using hopen
  unfold loopEnc
  rw [branchEnc_of_legal ho (by simp [hk, hend]) hb hl]
  refine if_neg ?_
  rw [hsame, Bool.false_or]
  split
  · next l heq => simpa using hhead l heq
  · exact Bool.false_ne_true

/-- LOOPI and LOOPR start their loop, or skip its body where the count is 0. -/
theorem slotOp_loop {s : State} {t : TileId} {w : SlotWord} {r : RegionId} {op : Nat} (count : Word)
    {enc : Site → State → Option (Nat × Nat)} {act : Site → State → Act} (h : Issues s .s t w r) (ho : opOf w = op)
    (he : enc ((s.opened r t).site r .s t w) (s.opened r t) = none)
    (ha : act ((s.opened r t).site r .s t w) (s.opened r t) = loopStart ((s.opened r t).site r .s t w) count (s.opened r t)) :
    slotOp .s op t w enc act s =
      if count = 0 then
        ((s.opened r t).core t (fun d => { d with lc := d.lc.put (lcOf w) 0 })).issued r t .s (.skip ((baOf w).toNat + 1))
      else ((s.opened r t).core t (fun d => { d with
        lc := d.lc.put (lcOf w) count,
        loops := { lc := BitVec.ofNat 2 (lcOf w), start := BitVec.ofNat 11 (((s.opened r t).tile t).ctl.pc.toNat + 1),
                   stop := baOf w } :: d.loops })).issued r t .s .seq := by
  unfold loopStart at ha
  split
  · next hz => exact slotOp_core _ h ho he (ha.trans (if_pos hz)) fun _ => rfl
  · next hz => exact slotOp_core _ h ho he (ha.trans (if_neg hz)) fun _ => rfl

theorem loopsStartOrSkip : Rules.LoopsStartOrSkip := by
  intro s t w r h
  refine fun hb hl hend hopen hhead => ⟨fun ho => ?_, fun ho hz => ?_⟩
  · exact congrArg Host.Outcome.next (slotOp_loop _ h ho (loopEnc_of_legal ho rfl hb hl hend hopen hhead) rfl)
  · exact congrArg Host.Outcome.next (slotOp_loop _ h ho (loopEnc_of_legal ho (by simp [zeroAt, hz]) hb hl hend hopen hhead) rfl)

/-- Settles O7: in a legal place each has its effect on the core and on where it goes on. -/
theorem branchesAndLoopsTakeEffect : Obligations.BranchesAndLoopsTakeEffect :=
  ⟨branchesTakeEffect, loopsStartOrSkip⟩

end Sys2Proof.Machine

namespace Sys2Proof.Machine
open Sys2Proof

/-! ### Where a core goes on after a bundle (02 R57, R58) -/

theorem Ctl.after_s_eq (c : Ctl) (flow : Flow) (now : Nat) :
    c.after .s flow now = { c.advance flow with bundle := none, next := now + 1 } := if_pos rfl

theorem Ctl.goto_of_lt (c : Ctl) {n : Nat} (h : n < 2048) : c.goto n = { c with pc := BitVec.ofNat 11 n } := if_pos h

theorem Ctl.goto_pc (c : Ctl) {n : Nat} (h : n < 2048) : (c.goto n).pc.toNat = n := by
  rw [c.goto_of_lt h]
  simpa using h

@[simp] theorem Ctl.goto_lc (c : Ctl) (n : Nat) : (c.goto n).lc = c.lc := by
  unfold Ctl.goto; split <;> rfl

/-- After a delay bundle the branch is taken, whatever the bundle's own flow. -/
theorem Ctl.advance_of_branch {c : Ctl} {target : BitVec 11} (h : c.branch = some target) (flow : Flow) :
    (c.advance flow).pc = target ∧ (c.advance flow).branch = none := by
  unfold Ctl.advance
  rw [h]
  exact ⟨rfl, rfl⟩

theorem Ctl.advance_branch {c : Ctl} (h : c.branch = none) (target : BitVec 11) :
    c.advance (.branch target) = { c.goto (c.pc.toNat + 1) with branch := some target } := by
  unfold Ctl.advance
  rw [h]

theorem Ctl.advance_skip {c : Ctl} (h : c.branch = none) (n : Nat) : c.advance (.skip n) = c.goto n := by
  unfold Ctl.advance
  rw [h]

theorem Ctl.advance_seq {c : Ctl} (h : c.branch = none) (hl : c.loopHere = none) :
    c.advance .seq = c.goto (c.pc.toNat + 1) := by
  unfold Ctl.advance Ctl.endLoop
  rw [h, hl]

/-- A loop whose counter has a pass left goes back to its start. -/
theorem Ctl.advance_loop {c : Ctl} {l : Loop} (h : c.branch = none) (hl : c.loopHere = some l)
    (hv : c.lc.get l.lc.toNat - 1 ≠ 0) :
    c.advance .seq = { c with lc := c.lc.put l.lc.toNat (c.lc.get l.lc.toNat - 1), pc := l.start } := by
  unfold Ctl.advance Ctl.endLoop
  rw [h, hl]
  dsimp only
  rw [if_neg hv]

/-- A loop whose counter reaches zero is left. -/
theorem Ctl.advance_loop_end {c : Ctl} {l : Loop} (h : c.branch = none) (hl : c.loopHere = some l)
    (hv : c.lc.get l.lc.toNat - 1 = 0) :
    c.advance .seq = ({ c with lc := c.lc.put l.lc.toNat (c.lc.get l.lc.toNat - 1),
                               loops := c.loops.filter (fun k => k.lc ≠ l.lc) } : Ctl).goto (c.pc.toNat + 1) := by
  unfold Ctl.advance Ctl.endLoop
  rw [h, hl]
  dsimp only
  rw [if_pos hv]

theorem Cells.get_put_same {w : Nat} {m : Cells w} (h : m.wf = true) (k : Nat) (v : BitVec w) : (m.put k v).get k = v := by
  rw [Cells.get_put m k k v 0 h, if_pos rfl]

/-- Settles O8: by the branch in force, then the loop that ends here, then the bundle's own flow. -/
theorem bundleEndMovesThePc : Obligations.BundleEndMovesThePc := by
  unfold Obligations.BundleEndMovesThePc
  intro c now
  simp only [Ctl.after_s_eq]
  refine ⟨trivial, trivial, fun target h => Ctl.advance_of_branch h _, fun h hl hpc => ⟨?_, fun target => ?_⟩, fun l h hl hwf => ?_,
    fun n h hn => ?_⟩
  · rw [Ctl.advance_seq h hl]
    exact c.goto_pc (by omega)
  · rw [Ctl.advance_branch h]
    exact ⟨c.goto_pc (by omega), rfl⟩
  · by_cases hv : c.lc.get l.lc.toNat - 1 = 0
    · rw [Ctl.advance_loop_end h hl hv]
      have hone : c.lc.get l.lc.toNat = 1 := by simpa using BitVec.sub_eq_iff_eq_add.1 hv
      refine ⟨?_, fun hne => absurd hone hne, fun _ hpc => Ctl.goto_pc _ (by omega)⟩
      rw [Ctl.goto_lc]
      exact Cells.get_put_same hwf _ _
    · rw [Ctl.advance_loop h hl hv]
      exact ⟨Cells.get_put_same hwf _ _, fun _ => rfl, fun hone => absurd (by simp [hone]) hv⟩
  · rw [Ctl.advance_skip h]
    exact c.goto_pc hn

end Sys2Proof.Machine

namespace Sys2Proof.Machine
open Sys2Proof

/-! ### Tables with a function applied to their values -/

theorem Tab.get_mapVals {α β : Type} {f : Nat → α → β} {d : α} {e : β} (h : ∀ k, f k d = e) (m : Tab α) (k : Nat) :
    Tab.get e (Tab.mapVals f m) k = f k (Tab.get d m k) := by
  induction m with
  | nil => exact (h k).symm
  | cons c m ih =>
    obtain ⟨a, b⟩ := c
    rw [Tab.get]
    show (if k < a then e else if k = a then f a b else Tab.get e (Tab.mapVals f m) k) = _
    split
    · exact (h k).symm
    · split
      · next hk => rw [hk]
      · exact ih

/-! ### The decision at the end of a power window (18 R457, R458) -/

/-- What the decision does to a region it chooses. -/
def Region.withDuty (who : Region → Bool) (f : Nat → Nat) (g : Region) : Region :=
  if g.st == .granted && who g then { g with brake := { g.brake with duty := f g.brake.duty } } else g

theorem modDuty_eq (who : Region → Bool) (f : Nat → Nat) (s : State) :
    modDuty who f s = { s with regions := Tab.mapVals (fun _ g => g.withDuty who f) s.regions } := rfl

@[simp] theorem Region.withDuty_st (who : Region → Bool) (f : Nat → Nat) (g : Region) : (g.withDuty who f).st = g.st := by
  unfold Region.withDuty; split <;> rfl

@[simp] theorem Region.withDuty_floor (who : Region → Bool) (f : Nat → Nat) (g : Region) :
    (g.withDuty who f).floor = g.floor := by
  unfold Region.withDuty; split <;> rfl

theorem Region.withDuty_duty_le {who : Region → Bool} {f : Nat → Nat} (hf : ∀ d ≤ 15, f d ≤ 15) {g : Region}
    (h : g.brake.duty ≤ 15) : (g.withDuty who f).brake.duty ≤ 15 := by
  unfold Region.withDuty
  split
  · exact hf _ h
  · exact h

@[simp] theorem modDuty_region (who : Region → Bool) (f : Nat → Nat) (s : State) (r : RegionId) :
    (modDuty who f s).region r = (s.region r).withDuty who f := by
  unfold State.region
  rw [modDuty_eq]
  exact Tab.get_mapVals (f := fun _ g => g.withDuty who f) (d := Region.reset) (e := Region.reset) (fun _ => rfl) s.regions _

@[simp] theorem modDuty_power (who : Region → Bool) (f : Nat → Nat) (s : State) : (modDuty who f s).power = s.power := rfl

/-- The duties say nothing of the floors. -/
@[simp] theorem modDuty_floorF (who : Region → Bool) (f : Nat → Nat) (s : State) : (modDuty who f s).floorF = s.floorF := by
  simp only [State.floorF, State.granted, modDuty_eq, Tab.mapVals, List.filter_map, List.foldl_map, Function.comp_def,
    Region.withDuty_st, Region.withDuty_floor]

@[simp] theorem modDuty_floorL (who : Region → Bool) (f : Nat → Nat) (s : State) : (modDuty who f s).floorL = s.floorL := by
  rw [State.floorL, modDuty_floorF, State.floorL]
  rfl

theorem floorF_le (s : State) : s.floorF ≤ 3 := by
  have hfold : ∀ (l : List (Nat × Region)) (m : Nat), l.foldl (fun m e => min m e.2.floor) m ≤ m := by
    intro l
    induction l with
    | nil => exact fun _ => Nat.le_refl _
    | cons x l ih => exact fun m => Nat.le_trans (ih _) (Nat.min_le_left _ _)
  exact hfold _ 3

@[simp] theorem stepTo_regions (k : Nat) (s : State) : (stepTo k s).regions = s.regions := by
  unfold stepTo; dsimp only; split <;> rfl

@[simp] theorem stepTo_tiles (k : Nat) (s : State) : (stepTo k s).tiles = s.tiles := by
  unfold stepTo; dsimp only; split <;> rfl

@[simp] theorem stepTo_cur (k : Nat) (s : State) : (stepTo k s).power.cur = s.power.cur := by
  unfold stepTo; dsimp only; split <;> rfl

@[simp] theorem stepTo_region (k : Nat) (s : State) (r : RegionId) : (stepTo k s).region r = s.region r := by
  unfold State.region; rw [stepTo_regions]

/-- The step in force is no change where it stands within the limits. -/
theorem stepTo_cur_same {s : State} (hl : s.floorL ≤ s.power.cur.toNat) (hf : s.power.cur.toNat ≤ s.floorF) :
    stepTo s.power.cur.toNat s = s := by
  unfold stepTo
  rw [Nat.min_eq_left hf, Nat.max_eq_left hl]
  exact if_pos rfl

/-- Another step within the limits is the change decided. -/
theorem stepTo_change {s : State} {k : Nat} (hl : s.floorL ≤ k) (hf : k ≤ s.floorF) (hne : k ≠ s.power.cur.toNat) :
    (stepTo k s).power.change = some (BitVec.ofNat 2 k) := by
  unfold stepTo
  rw [Nat.min_eq_left hf, Nat.max_eq_left hl]
  dsimp only
  rw [if_neg hne]

/-- The decision: a step up below F, a step down above L, or the step as it is with some duties changed. -/
theorem powerDecide_cases (s : State) :
    (powerDecide s = stepTo (s.power.cur.toNat + 1) s ∧ s.power.cur.toNat < s.floorF) ∨
      (powerDecide s = stepTo (s.power.cur.toNat - 1) s ∧ s.floorL < s.power.cur.toNat) ∨
      powerDecide s = stepTo s.power.cur.toNat s ∨
      ∃ who f, powerDecide s = stepTo s.power.cur.toNat (modDuty who f s) ∧ ∀ d ≤ 15, f d ≤ 15 := by
  have hup : ∀ d ≤ 15, min (d + 1) 15 ≤ 15 := fun d _ => Nat.min_le_right _ _
  have hdown : ∀ d ≤ 15, d - 1 ≤ 15 := fun d h => Nat.le_trans (Nat.sub_le d 1) h
  unfold powerDecide
  dsimp only
  split
  · split
    · next hcur => exact .inl ⟨rfl, hcur⟩
    · split
      · exact .inr (.inr (.inr ⟨_, _, rfl, hup⟩))
      · exact .inr (.inr (.inr ⟨_, _, rfl, hup⟩))
  · split
    · split
      · exact .inr (.inr (.inr ⟨_, _, rfl, hdown⟩))
      · split
        · exact .inr (.inr (.inr ⟨_, _, rfl, hdown⟩))
        · split
          · next hcur => exact .inr (.inl ⟨rfl, hcur⟩)
          · exact .inr (.inr (.inl rfl))
    · exact .inr (.inr (.inl rfl))

/-- Settles O42, by the cases of the decision. -/
theorem theDecisionStaysInItsLimits : Obligations.TheDecisionStaysInItsLimits := by
  unfold Obligations.TheDecisionStaysInItsLimits
  intro s hnone hl hf
  have hthree := floorF_le s
  obtain ⟨he, hlt⟩ | ⟨he, hlt⟩ | he | ⟨who, f, he, hduty⟩ := powerDecide_cases s
  · rw [he]
    refine ⟨fun k hk => ?_, fun hd r => ?_, by simp, by simp⟩
    · rw [stepTo_change (by omega) (by omega) (by omega)] at hk
      obtain rfl : BitVec.ofNat 2 _ = k := Option.some.inj hk
      rw [BitVec.toNat_ofNat]
      omega
    · simpa using hd r
  · rw [he]
    refine ⟨fun k hk => ?_, fun hd r => ?_, by simp, by simp⟩
    · rw [stepTo_change (by omega) (by omega) (by omega)] at hk
      obtain rfl : BitVec.ofNat 2 _ = k := Option.some.inj hk
      rw [BitVec.toNat_ofNat]
      omega
    · simpa using hd r
  · rw [he, stepTo_cur_same hl hf, hnone]
    exact ⟨fun k hk => (nomatch hk), fun hd r => hd r, rfl, rfl⟩
  · have hkeep : stepTo s.power.cur.toNat (modDuty who f s) = modDuty who f s :=
      stepTo_cur_same (s := modDuty who f s) (by simpa using hl) (by simpa using hf)
    rw [he, hkeep]
    refine ⟨fun k hk => ?_, fun hd r => ?_, rfl, rfl⟩
    · exact absurd (hnone.symm.trans hk) (by simp)
    · rw [modDuty_region]
      exact Region.withDuty_duty_le hduty (hd r)

end Sys2Proof.Machine

namespace Sys2Proof.Machine
open Sys2Proof

/-! ### Brakes (03 R94, R100; 18 R458, R460) -/

theorem brakesReachTheRegion : Rules.BrakesReachTheRegion := by
  intro s r
  refine ⟨fun w rest hw => ⟨fun hf hl => ?_, fun hf hl => ?_, fun hf hl => ?_, fun hf hl => ?_⟩, fun hf hl => ?_, fun h => ?_,
    fun hon hend => ?_, fun h => ?_⟩
  · simp [exec_brakeFreeze, execBrakeFreeze, hf, hl, hw]
  · simp [exec_brakeFreeze, execBrakeFreeze, hf, hl, hw]
  · simp [exec_brakeThaw, execBrakeThaw, hf, hl, hw]
  · simp [exec_brakeThaw, execBrakeThaw, hf, hl, hw]
  · simp [Brake.counted, hf, hl]
  · unfold Brake.counted
    obtain h | h := h <;> simp [h]
  · exact if_pos ⟨hon, hend⟩
  · refine if_neg fun ⟨hon, hend⟩ => ?_
    obtain h | h := h
    · exact absurd hon (by simp [h])
    · omega

/-- The order of marks: by cycle, and by tile within a cycle. -/
theorem DueMark.before_iff {a b : DueMark} :
    a.before b = true ↔ a.cyc < b.cyc ∨ a.cyc = b.cyc ∧ a.tile.toNat < b.tile.toNat := by
  simp [DueMark.before]

theorem DueMark.not_before_iff {a b : DueMark} :
    a.before b = false ↔ b.cyc ≤ a.cyc ∧ (b.cyc = a.cyc → b.tile.toNat ≤ a.tile.toNat) := by
  rw [← Bool.not_eq_true, DueMark.before_iff]
  omega

theorem mem_insertMark {m k : DueMark} {l : List DueMark} : k ∈ insertMark m l ↔ k = m ∨ k ∈ l := by
  induction l with
  | nil => simp [insertMark]
  | cons h l ih =>
    rw [insertMark]
    split
    · simp
    · simp [ih, or_left_comm]

/-- Marks stand in order: none stands before an earlier one. -/
def MarksInOrder (l : List DueMark) : Prop := l.Pairwise (fun a k => k.before a = false)

theorem insertMark_inOrder {m : DueMark} {l : List DueMark} (hl : MarksInOrder l) : MarksInOrder (insertMark m l) := by
  induction l with
  | nil => exact List.pairwise_singleton _ _
  | cons h l ih =>
    obtain ⟨hhead, htail⟩ := List.pairwise_cons.1 hl
    rw [insertMark]
    split
    · next hm =>
      refine List.pairwise_cons.2 ⟨fun k hk => ?_, hl⟩
      rw [DueMark.before_iff] at hm
      rw [DueMark.not_before_iff]
      obtain rfl | hk := List.mem_cons.1 hk
      · omega
      · have hkh := DueMark.not_before_iff.1 (hhead k hk)
        omega
    · next hm =>
      refine List.pairwise_cons.2 ⟨fun k hk => ?_, ih htail⟩
      obtain rfl | hk := mem_insertMark.1 hk
      · simpa using hm
      · exact hhead k hk

theorem brakeTimeoutIsCharged : Rules.BrakeTimeoutIsCharged := by
  intro s r
  refine ⟨fun h => if_pos h, fun h hm => ?_, fun h hm hl => ?_, fun m l hl => insertMark_inOrder hl⟩
  · rw [exec_brakeTimeout, execBrakeTimeout]
    dsimp only
    rw [if_neg (by omega), hm]
  · obtain ⟨m, l, heq⟩ := List.exists_cons_of_ne_nil hm
    rw [heq] at hl ⊢
    refine ⟨m, List.mem_cons_self, fun k hk => ?_, ?_⟩
    · obtain rfl | hk := List.mem_cons.1 hk
      · exact ⟨Nat.le_refl _, fun _ => Nat.le_refl _⟩
      · exact DueMark.not_before_iff.1 ((List.pairwise_cons.1 hl).1 k hk)
    · rw [exec_brakeTimeout, execBrakeTimeout]
      dsimp only
      rw [if_neg (by omega), heq]

/-- Settles O19: by the first change that stands in each list, and by the first mark. -/
theorem brakesReachAndTimeOut : Obligations.BrakesReachAndTimeOut :=
  ⟨brakesReachTheRegion, brakeTimeoutIsCharged⟩

end Sys2Proof.Machine

namespace Sys2Proof.Machine
open Sys2Proof

/-! ### What a fault does (03 R105 to R107; 17 R432) -/

/-- A region that begins to halt, at a wall cycle. -/
def Region.haltFrom (g : Region) (wall : Nat) : Region :=
  if g.halting then g
  else { g with brake := { g.brake with haltAt := some wall }, faults := { g.faults with recs := [], lost := 0 },
                evtVf := g.evtVf.event 1, evtPf := g.evtPf.event 1 }

theorem Region.haltFrom_of_halting {g : Region} (h : g.halting = true) (wall : Nat) : g.haltFrom wall = g := if_pos h

theorem Region.haltFrom_of_running {g : Region} (h : g.halting = false) (wall : Nat) :
    g.haltFrom wall = { g with brake := { g.brake with haltAt := some wall }, faults := { g.faults with recs := [], lost := 0 },
                               evtVf := g.evtVf.event 1, evtPf := g.evtPf.event 1 } := if_neg (by simp [h])

@[simp] theorem Region.haltFrom_cycle (g : Region) (wall : Nat) : (g.haltFrom wall).cycle = g.cycle := by
  unfold Region.haltFrom; split <;> rfl

@[simp] theorem Region.haltFrom_st (g : Region) (wall : Nat) : (g.haltFrom wall).st = g.st := by
  unfold Region.haltFrom; split <;> rfl

@[simp] theorem Region.haltFrom_seq (g : Region) (wall : Nat) : (g.haltFrom wall).faults.seq = g.faults.seq := by
  unfold Region.haltFrom; split <;> rfl

theorem Region.haltFrom_halting (g : Region) (wall : Nat) : (g.haltFrom wall).halting = true := by
  unfold Region.haltFrom
  split
  · assumption
  · rfl

theorem State.beginHalt_region (s : State) (r q : RegionId) :
    (s.beginHalt r).region q = if q = r then (s.region r).haltFrom s.wall else s.region q := by
  unfold State.beginHalt
  cases h : (s.region r).halting with
  | true =>
    rw [if_pos rfl, Region.haltFrom_of_halting h]
    split
    · next hq => rw [hq]
    · rfl
  | false =>
    rw [if_neg (by simp), Region.haltFrom_of_running h, State.regionEvent, State.msixSend_region, State.msixSend_region,
      State.modRegion_modRegion, State.region_modRegion]

@[simp] theorem State.beginHalt_tile (s : State) (r : RegionId) (t : TileId) : (s.beginHalt r).tile t = s.tile t :=
  State.tile_of_tiles (State.beginHalt_tiles s r) t

/-- A region with a fault recorded. -/
def Region.faulted (g : Region) (wall : Nat) (x : FaultRec) : Region :=
  { g.haltFrom wall with faults := (g.haltFrom wall).faults.keep x }

/-- A change of one field is none of a region's or a tile's. -/
theorem State.region_order (s : State) (n : Nat) (q : RegionId) : ({ s with order := n } : State).region q = s.region q := rfl

theorem State.raise_region (s : State) (r : RegionId) (t : Option TileId) (x : Option (Slot × BitVec 11)) (c d : Nat)
    (q : RegionId) : (s.raise r t x c d).region q =
      if q = r then (s.region r).faulted s.wall ((s.beginHalt r).mkRec r t x c d (s.region r).faults.seq)
      else s.region q := by
  have hrec : ((s.beginHalt r).modRegion r (fun g =>
      { g with faults := g.faults.keep ((s.beginHalt r).mkRec r t x c d g.faults.seq) })).region q =
      if q = r then (s.region r).faulted s.wall ((s.beginHalt r).mkRec r t x c d (s.region r).faults.seq)
      else s.region q := by
    rw [State.region_modRegion, State.beginHalt_region, State.beginHalt_region, if_pos rfl, Region.haltFrom_seq]
    split <;> rfl
  cases t with
  | none => exact hrec
  | some t => exact hrec

theorem State.raise_region_ne (s : State) {r q : RegionId} (h : q ≠ r) (t : Option TileId) (x : Option (Slot × BitVec 11))
    (c d : Nat) : (s.raise r t x c d).region q = s.region q := by
  rw [State.raise_region, if_neg h]

theorem State.raise_tile (s : State) (r : RegionId) (t : Option TileId) (x : Option (Slot × BitVec 11)) (c d : Nat)
    (q : TileId) : (s.raise r t x c d).tile q =
      if t = some q then { s.tile q with ctl := { (s.tile q).ctl with run := .stopped } } else s.tile q := by
  cases t with
  | none => exact State.beginHalt_tile s r q
  | some t =>
    have htile : (s.raise r (some t) x c d).tile q = if q = t then
        { (s.beginHalt r).tile t with ctl := { ((s.beginHalt r).tile t).ctl with run := .stopped } }
        else (s.beginHalt r).tile q := State.tile_modTile _ t q _
    rw [htile, State.beginHalt_tile, State.beginHalt_tile]
    by_cases hq : q = t
    · simp [hq]
    · simp [hq, Ne.symm hq]

theorem State.raise_tile_ne (s : State) (r : RegionId) {t : Option TileId} {q : TileId} (h : t ≠ some q)
    (x : Option (Slot × BitVec 11)) (c d : Nat) : (s.raise r t x c d).tile q = s.tile q := by
  rw [State.raise_tile, if_neg h]

/-- A record is placed behind those it does not stand before. -/
theorem insertRec_eq (x : FaultRec) (l : List FaultRec) : ∃ a b, l = a ++ b ∧ insertRec x l = a ++ x :: b ∧
    (∀ y ∈ a, x.before y = false) ∧ ∀ y, b.head? = some y → x.before y = true := by
  induction l with
  | nil => exact ⟨[], [], rfl, rfl, by simp, by simp⟩
  | cons y l ih =>
    cases h : x.before y with
    | true => exact ⟨[], y :: l, rfl, if_pos h, by simp, by simpa using h⟩
    | false =>
      obtain ⟨a, b, rfl, heq, ha, hb⟩ := ih
      refine ⟨y :: a, b, rfl, ?_, by simpa [h] using ha, hb⟩
      rw [insertRec, if_neg (by simp [h]), heq, List.cons_append]

@[simp] theorem length_insertRec (x : FaultRec) (l : List FaultRec) : (insertRec x l).length = l.length + 1 := by
  obtain ⟨a, b, rfl, heq, _, _⟩ := insertRec_eq x l
  simp [heq]; omega

/-- The records and their count that a fault is added to. -/
theorem Region.haltFrom_recs (g : Region) (wall : Nat) :
    (g.haltFrom wall).faults.recs = if g.halting then g.faults.recs else [] := by
  unfold Region.haltFrom; split <;> rfl

theorem Region.haltFrom_lost (g : Region) (wall : Nat) :
    (g.haltFrom wall).faults.lost = if g.halting then g.faults.lost else 0 := by
  unfold Region.haltFrom; split <;> rfl

/-- Settles O55: the halt that begins, the place of the record, and the tile that stops. -/
theorem faultsAreRecorded : Obligations.FaultsAreRecorded := by
  unfold Obligations.FaultsAreRecorded
  intro s r tile site code detail
  dsimp only
  have hregion := s.raise_region r tile site code detail r
  rw [if_pos rfl] at hregion
  rw [hregion]
  generalize hx : (s.beginHalt r).mkRec r tile site code detail (s.region r).faults.seq = x
  obtain ⟨a, b, hold, hins, ha, hb⟩ := insertRec_eq x ((s.region r).haltFrom s.wall).faults.recs
  have hlen := length_insertRec x ((s.region r).haltFrom s.wall).faults.recs
  have hrecs : (((s.region r).faulted s.wall x).faults.recs) =
      (insertRec x ((s.region r).haltFrom s.wall).faults.recs).take 16 := rfl
  have hlost : ((s.region r).faulted s.wall x).faults.lost =
      if (insertRec x ((s.region r).haltFrom s.wall).faults.recs).length ≤ 16 then ((s.region r).haltFrom s.wall).faults.lost
      else Word.satAdd ((s.region r).haltFrom s.wall).faults.lost 1 := rfl
  rw [Region.haltFrom_recs] at hold hins hlen hrecs hlost
  rw [Region.haltFrom_lost] at hlost
  refine ⟨⟨x, a, b, hold, by rw [hrecs, hins], ha, hb, ?_⟩, fun h => ?_, fun h => ?_, ?_, fun h => ?_, fun h => ?_,
    (s.region r).haltFrom_halting s.wall, (s.region r).haltFrom_st s.wall, fun t h => ?_, fun t h => s.raise_tile_ne r h _ _ _,
    fun q h => s.raise_region_ne h _ _ _ _, by simp, by simp, by simp⟩
  · subst hx
    simp [State.mkRec, State.beginHalt_region]
    rintro a b rfl
    rfl
  · rw [hlost, hlen, if_pos (by omega)]
  · rw [hlost, hlen, if_neg (by omega)]
  · exact congrArg (· + 1) ((s.region r).haltFrom_seq s.wall)
  · unfold Region.faulted
    rw [Region.haltFrom_of_running h]
    exact ⟨rfl, rfl, rfl⟩
  · unfold Region.faulted
    rw [Region.haltFrom_of_halting h]
    exact ⟨rfl, rfl, rfl⟩
  · rw [State.raise_tile, if_pos h]

end Sys2Proof.Machine

namespace Sys2Proof.Machine
open Sys2Proof

/-! ### Folds over tiles -/

/-- A fold whose steps change the tile they are at leaves every other tile as it was. -/
theorem foldl_tile_of_notMem {f : State → TileId → State} (h : ∀ u t q, q ≠ t → (f u t).tile q = u.tile q) {ts : List TileId}
    {t : TileId} (ht : t ∉ ts) (s : State) : (ts.foldl f s).tile t = s.tile t := by
  induction ts generalizing s with
  | nil => rfl
  | cons a ts ih =>
    rw [List.mem_cons, not_or] at ht
    rw [List.foldl_cons, ih ht.2, h s a t ht.1]

/-- What the step at a tile makes true of it is true of it after a fold whose steps change the tile they are at. -/
theorem foldl_tile_of_mem {f : State → TileId → State} {P : Tile → Prop} (h : ∀ u t q, q ≠ t → (f u t).tile q = u.tile q)
    {ts : List TileId} {t : TileId} (ht : t ∈ ts) (hmake : ∀ u, P ((f u t).tile t)) (s : State) :
    P ((ts.foldl f s).tile t) := by
  have hrest : ∀ (l : List TileId) (u : State), P (u.tile t) → P ((l.foldl f u).tile t) := by
    intro l
    induction l with
    | nil => exact fun _ hu => hu
    | cons a l ih =>
      intro u hu
      refine ih _ ?_
      by_cases ha : t = a
      · exact ha ▸ hmake u
      · rwa [h u a t ha]
  induction ts generalizing s with
  | nil => cases ht
  | cons a ts ih =>
    obtain rfl | ht := List.mem_cons.1 ht
    · exact hrest ts _ (hmake s)
    · exact ih ht _

/-- The tiles of a list with a function applied that does no more the second time. -/
theorem tile_foldl_modTile {f : Tile → Tile} (hf : ∀ x, f (f x) = f x) (ts : List TileId) (s : State) (t : TileId) :
    (ts.foldl (fun u t => u.modTile t f) s).tile t = if t ∈ ts then f (s.tile t) else s.tile t := by
  induction ts generalizing s with
  | nil => rfl
  | cons a ts ih =>
    rw [List.foldl_cons, ih, State.tile_modTile]
    by_cases ha : t = a
    · subst ha
      simp [hf]
    · simp [ha]

theorem foldl_modTile_regions (f : TileId → Tile → Tile) (ts : List TileId) (s : State) :
    (ts.foldl (fun u t => u.modTile t (f t)) s).regions = s.regions :=
  foldl_inv (P := State.regions) (fun u t => State.modTile_regions u t (f t)) ts s

@[simp] theorem foldl_modTile_objs (f : TileId → Tile → Tile) (ts : List TileId) (s : State) :
    (ts.foldl (fun u t => u.modTile t (f t)) s).objs = s.objs :=
  foldl_inv (P := State.objs) (fun u t => State.modTile_objs u t (f t)) ts s

@[simp] theorem foldl_modTile_mem (f : TileId → Tile → Tile) (ts : List TileId) (s : State) :
    (ts.foldl (fun u t => u.modTile t (f t)) s).mem = s.mem :=
  foldl_inv (P := State.mem) (fun u t => State.modTile_mem u t (f t)) ts s

@[simp] theorem foldl_modTile_region (f : TileId → Tile → Tile) (ts : List TileId) (s : State) (r : RegionId) :
    (ts.foldl (fun u t => u.modTile t (f t)) s).region r = s.region r :=
  State.region_of_regions (foldl_modTile_regions f ts s) r

/-! ### Tiles that go on (02 R77, R205; 10 R252, R261; 03 R87) -/

theorem State.moving_eq {s : State} {t : TileId} {r : RegionId} (hr : s.regionOf t = some r)
    (hf : (s.region r).frozen = false) (hb : (s.tile t).ctl.bundle = none) : s.moving t = some r := by
  simp [State.moving, State.between, hb, hr, hf]

theorem waitingTilesGoOn : Rules.WaitingTilesGoOn := by
  intro s t r n hr hf hb
  have hmoving := State.moving_eq hr hf hb
  refine ⟨fun need h => ⟨fun hn => ?_, fun hn => ?_⟩, fun h => ⟨fun hn => ?_, fun hn => ?_⟩, fun m h hm hn => ?_, fun h hm hn => ?_⟩
  · simp [exec_stallResume, execStallResume, hmoving, h, hn]
  · simp [exec_stallResume, execStallResume, hmoving, h, Nat.not_le.2 hn]
  · simp [exec_waiterWake, execWaiterWake, hr, hf, h, Nat.not_lt.2 hn]
  · simp [exec_waiterWake, execWaiterWake, hr, hf, h, hn]
  · simp [exec_waiterWake, execWaiterWake, hr, hf, h, Nat.not_lt.2 hn, Tile.afterBarrier, hm]
  · simp [exec_waiterWake, execWaiterWake, hr, hf, h, Nat.not_lt.2 hn, Tile.afterBarrier, hm]

theorem Tile.afterBarrier_ctl (x : Tile) : x.afterBarrier.ctl = x.ctl := by
  unfold Tile.afterBarrier; split <;> rfl

theorem Tile.afterBarrier_tm (x : Tile) : x.afterBarrier.tm = x.tm := by
  unfold Tile.afterBarrier; split <;> rfl

theorem Tile.release48_of_released {x : Tile} {n m : Nat} (h : x.ctl.run = .released m) :
    x.release48 n = { x.afterBarrier with ctl := { x.ctl with run := .running, next := n } } := by
  unfold Tile.release48
  rw [h]
  dsimp only
  rw [x.afterBarrier_ctl]

theorem Tile.release48_of_not {x : Tile} {n : Nat} (h : ∀ m, x.ctl.run ≠ .released m) : x.release48 n = x := by
  unfold Tile.release48
  split
  · next m heq => exact absurd heq (h m)
  · rfl

/-- A released tile goes on once. -/
theorem Tile.release48_idem (x : Tile) (n : Nat) : (x.release48 n).release48 n = x.release48 n := by
  by_cases h : ∃ m, x.ctl.run = .released m
  · obtain ⟨m, h⟩ := h
    rw [Tile.release48_of_released h]
    exact Tile.release48_of_not (fun _ hm => nomatch hm)
  · rw [Tile.release48_of_not (not_exists.1 h), Tile.release48_of_not (not_exists.1 h)]

@[simp] theorem Tile.release48_tm (x : Tile) (n : Nat) : (x.release48 n).tm = x.tm := by
  unfold Tile.release48
  split
  · exact x.afterBarrier_tm
  · rfl

theorem Tile.enter_of_held {x : Tile} {n : Nat} (h : x.ctl.run = .entryHold) :
    x.enter n = { x with ctl := { x.ctl with run := .running, pc := 0, next := n, origin := n }, written := [] } := by
  unfold Tile.enter
  rw [h]

theorem Tile.enter_of_not {x : Tile} {n : Nat} (h : x.ctl.run ≠ .entryHold) : x.enter n = x := by
  unfold Tile.enter
  split
  · next heq => exact absurd heq h
  · rfl

/-- A held tile enters once. -/
theorem Tile.enter_idem (x : Tile) (n : Nat) : (x.enter n).enter n = x.enter n := by
  by_cases h : x.ctl.run = .entryHold
  · rw [Tile.enter_of_held h]
    exact Tile.enter_of_not (fun hm => nomatch hm)
  · rw [Tile.enter_of_not h, Tile.enter_of_not h]

theorem releasesReachTheTiles : Rules.ReleasesReachTheTiles := by
  intro s r hf
  refine ⟨fun o l ts hx hrel _ => ⟨fun hn => ?_, fun hn => ?_⟩, fun l c hl hc hfloor hst => ⟨fun hn => ?_, fun hn => ?_⟩⟩
  · simp [exec_releaseWake, execReleaseWake, hf, hx, hrel, dueReleases, hn]
    rw [← hrel]
  · have hexec : exec (.releaseWake r o) s = .next (ts.foldl (fun u t => u.modTile t (fun x => x.release48 (s.region r).cycle))
        (s.setRegion r { s.region r with releases := [] })) := by
      simp [exec_releaseWake, execReleaseWake, hf, hx, hrel, dueReleases, hn]
    have htile := fun t => tile_foldl_modTile (f := fun x => x.release48 (s.region r).cycle) (fun x => x.release48_idem (s.region r).cycle) ts
      (s.setRegion r { s.region r with releases := [] }) t
    refine ⟨_, hexec, by simp, by simp, by simp, fun t ht m hm => ?_, fun t ht => ?_⟩
    · rw [htile, if_pos ht, State.tile_setRegion, Tile.release48_of_released hm]
      exact ⟨rfl, rfl, Tile.afterBarrier_tm _⟩
    · rw [htile, if_neg ht, State.tile_setRegion]
  · simp [exec_entryHoldRelease, execEntryHoldRelease, hf, State.entering, hl, hc, hn]
  · have hexec : exec (.entryHoldRelease r) s = .next (c.tiles.foldl (fun u t => u.modTile t (fun x => x.enter (s.region r).cycle))
        (s.setRegion r { s.region r with startRel := none })) := by
      simp [exec_entryHoldRelease, execEntryHoldRelease, hf, State.entering, hl, hc, hn, hfloor, hst, Region.tiles]
    have htile := fun t => tile_foldl_modTile (f := fun x => x.enter (s.region r).cycle) (fun x => x.enter_idem (s.region r).cycle) c.tiles
      (s.setRegion r { s.region r with startRel := none }) t
    refine ⟨_, hexec, by simp, by simp, by simp, fun t ht hm => ?_, fun t ht hm => ?_, fun t ht => ?_⟩
    · rw [htile, if_pos ht, State.tile_setRegion, Tile.enter_of_held hm, foldl_modTile_region, State.region_setRegion, if_pos rfl]
      exact ⟨rfl, rfl, rfl, Nat.sub_self _, rfl⟩
    · rw [htile, if_pos ht, State.tile_setRegion, Tile.enter_of_not hm]
    · rw [htile, if_neg ht, State.tile_setRegion]

/-- Settles O20: each tile of a release goes on once, and no other is touched. -/
theorem waitingAndReleasedTilesGoOn : Obligations.WaitingAndReleasedTilesGoOn :=
  ⟨waitingTilesGoOn, releasesReachTheTiles⟩

end Sys2Proof.Machine

namespace Sys2Proof.Machine
open Sys2Proof

/-! ### Exchange windows (03 R87, R89; 09 R238) -/

@[simp] theorem Region.haltFrom_window (g : Region) (wall : Nat) : (g.haltFrom wall).window = g.window := by
  unfold Region.haltFrom; split <;> rfl

@[simp] theorem State.raise_window (s : State) (r : RegionId) (t : Option TileId) (x : Option (Slot × BitVec 11)) (c d : Nat)
    (q : RegionId) : ((s.raise r t x c d).region q).window = (s.region q).window := by
  rw [State.raise_region]
  split
  · next hq => rw [hq]; exact Region.haltFrom_window _ _
  · rfl

@[simp] theorem State.raise_tm (s : State) (r : RegionId) (t : Option TileId) (x : Option (Slot × BitVec 11)) (c d : Nat)
    (q : TileId) : ((s.raise r t x c d).tile q).tm = (s.tile q).tm := by
  rw [State.raise_tile]; split <;> rfl

theorem expireReceives_tile_ne (r : RegionId) {t q : TileId} (h : q ≠ t) (s : State) :
    (expireReceives r t s).tile q = s.tile q :=
  foldl_inv (P := fun u => u.tile q) (fun u _ => u.raise_tile_ne r (fun e => h (Option.some.inj e).symm) _ _ _) _ s

@[simp] theorem expireReceives_tm (r : RegionId) (t q : TileId) (s : State) :
    ((expireReceives r t s).tile q).tm = (s.tile q).tm :=
  foldl_inv (P := fun u => (u.tile q).tm) (fun u _ => u.raise_tm r _ _ _ _ q) _ s

@[simp] theorem expireReceives_window (r : RegionId) (t : TileId) (s : State) (q : RegionId) :
    ((expireReceives r t s).region q).window = (s.region q).window :=
  foldl_inv (P := fun u => (u.region q).window) (fun u _ => u.raise_window r _ _ _ _ q) _ s

@[simp] theorem expireReceives_objs (r : RegionId) (t : TileId) (s : State) : (expireReceives r t s).objs = s.objs :=
  foldl_inv (P := State.objs) (fun u _ => u.raise_objs r _ _ _ _) _ s

@[simp] theorem expireReceives_mem (r : RegionId) (t : TileId) (s : State) : (expireReceives r t s).mem = s.mem :=
  foldl_inv (P := State.mem) (fun u _ => u.raise_mem r _ _ _ _) _ s

/-- A tile in the cycle its window opens. -/
def Tile.openWindow (win : BitVec 8) (now : Nat) (x : Tile) : Tile :=
  ({ x with exch := { x.exch with win := win } } : Tile).release48 now

@[simp] theorem Tile.afterBarrier_exch (x : Tile) : x.afterBarrier.exch = x.exch := by
  unfold Tile.afterBarrier; split <;> rfl

@[simp] theorem Tile.release48_exch (x : Tile) (n : Nat) : (x.release48 n).exch = x.exch := by
  unfold Tile.release48
  split
  · exact x.afterBarrier_exch
  · rfl

/-- The window ends at a tile: what it still expects faults, and the tile expects no more. -/
def endAt (r : RegionId) (s : State) (t : TileId) : State := (expireReceives r t s).modTile t Tile.endWindow

theorem endAt_tile_ne (r : RegionId) (s : State) (t q : TileId) (h : q ≠ t) : (endAt r s t).tile q = s.tile q := by
  rw [endAt, State.tile_modTile, if_neg h, expireReceives_tile_ne r h]

theorem endAt_tile (r : RegionId) (s : State) (t : TileId) :
    (endAt r s t).tile t = ((expireReceives r t s).tile t).endWindow := by
  rw [endAt, State.tile_modTile, if_pos rfl]

theorem endAt_tm (r : RegionId) (s : State) (t q : TileId) : ((endAt r s t).tile q).tm = (s.tile q).tm := by
  by_cases h : q = t
  · rw [h, endAt_tile]
    exact expireReceives_tm r t t s
  · rw [endAt_tile_ne r s t q h]

theorem endAt_window (r : RegionId) (s : State) (t : TileId) (q : RegionId) :
    ((endAt r s t).region q).window = (s.region q).window := expireReceives_window r t s q

/-- Settles O21: the window of the region, and each of its tiles in turn. -/
theorem exchangeWindowsOpenAndEnd : Obligations.ExchangeWindowsOpenAndEnd := by
  unfold Obligations.ExchangeWindowsOpenAndEnd
  intro s r hf
  refine ⟨fun l win hnext => ⟨fun hlate => ?_, fun hn hbeat => ?_⟩, fun hopen => ⟨fun hn => ?_, fun hn => ?_⟩⟩
  · have hnone : (s.region r).opening = none := by
      simp only [Region.opening, hnext, Region.header]
      obtain h | ⟨h, hb⟩ := hlate
      · simp [h]
      · exact if_pos (by simp only [h, hb, Bool.not_false, Bool.and_true, Bool.or_true])
    simp [exec_exchangeWindowOpen, execExchangeWindowOpen, hf, hnone]
  · have hsome : (s.region r).opening = some win := by
      simp only [Region.opening, hnext, Region.header]
      refine if_neg ?_
      simpa [Nat.not_lt.2 hn] using hbeat
    have hexec : ∃ v : State, exec (.exchangeWindowOpen r) s =
        .next ((s.region r).tiles.foldl (fun u t => u.modTile t (Tile.openWindow win (s.region r).cycle)) v) ∧
        v.tiles = s.tiles ∧ v.objs = s.objs ∧ v.mem = s.mem ∧ (v.region r).xwin = (s.region r).xwin ∧
        (v.region r).window = { (s.region r).window with
          open_ := true, e0 := (s.region r).cycle, xlen := Word.bits ((s.region r).header win) 0 16, next := none, beat := false } := by
      rw [exec_exchangeWindowOpen, execExchangeWindowOpen]
      dsimp only
      rw [hf, hsome]
      exact ⟨_, rfl, by simp, by simp, by simp, by simp, by simp⟩
    obtain ⟨v, hexec, htiles, hobjs, hmem, hxwin, hwindow⟩ := hexec
    have hone : ∀ (u : State) (t q : TileId), q ≠ t →
        (u.modTile t (Tile.openWindow win (s.region r).cycle)).tile q = u.tile q := fun u t q h => by simp [h]
    refine ⟨_, hexec, ?_⟩
    rw [foldl_modTile_region (fun _ => Tile.openWindow win (s.region r).cycle), hwindow, hxwin, foldl_modTile_objs (fun _ => _),
      foldl_modTile_mem (fun _ => _), hobjs, hmem]
    refine ⟨rfl, rfl, rfl, rfl, rfl, rfl, rfl, fun t ht => ⟨?_, ?_⟩, fun t ht => ?_⟩
    · refine foldl_tile_of_mem (P := fun y => y.exch.win = win) hone ht (fun u => ?_) v
      simp [Tile.openWindow]
    · rw [← State.tile_of_tiles htiles]
      refine foldl_inv (P := fun u => (u.tile t).tm) (fun u q => ?_) _ v
      rw [State.tile_modTile]
      split
      · next hq => rw [hq]; exact Tile.release48_tm _ _
      · rfl
    · rw [foldl_tile_of_notMem hone ht, State.tile_of_tiles htiles]
  · simp [exec_exchangeWindowEnd, execExchangeWindowEnd, Region.closing, hn]
  · have hexec : exec (.exchangeWindowEnd r) s = .next ((s.region r).tiles.foldl (endAt r)
        (s.setRegion r { s.region r with window := { (s.region r).window with open_ := false } })) := by
      simp [exec_exchangeWindowEnd, execExchangeWindowEnd, hf, Region.closing, hopen, hn]
      rfl
    have hshut : ((((s.region r).tiles.foldl (endAt r) (s.setRegion r { s.region r with
        window := { (s.region r).window with open_ := false } })).region r).window).open_ = false := by
      rw [foldl_inv (P := fun u => (u.region r).window) (f := endAt r) (fun u t => endAt_window r u t r)]
      simp
    refine ⟨_, hexec, hshut, ?_, ?_, ?_, fun t ht => ⟨?_, ?_, ?_⟩, fun t ht => ?_⟩
    · simp [Region.inExchange, hshut]
    · exact foldl_inv (P := State.objs) (f := endAt r) (fun u t => expireReceives_objs r t u) _ _
    · exact foldl_inv (P := State.mem) (f := endAt r) (fun u t => expireReceives_mem r t u) _ _
    · exact foldl_tile_of_mem (P := fun y => y.exch.decls = []) (fun u t q h => endAt_tile_ne r u t q h) ht (fun u => by rw [endAt_tile]; rfl) _
    · refine foldl_tile_of_mem (P := fun y => ∀ a ∈ y.exch.armed, a.n ≤ a.done) (fun u t q h => endAt_tile_ne r u t q h) ht (fun u => ?_) _
      rw [endAt_tile]
      intro a ha
      simpa using (List.mem_filter.1 ha).2
    · exact foldl_inv (P := fun u => (u.tile t).tm) (fun u q => endAt_tm r u q t) _ _
    · exact foldl_tile_of_notMem (fun u t q h => endAt_tile_ne r u t q h) ht _

end Sys2Proof.Machine

namespace Sys2Proof.Machine
open Sys2Proof

/-! ### One operation alone at its object (10 R252, R254, R256 to R262) -/

@[simp] theorem State.setObj_setObj (s : State) (o : BitVec 16) (x y : SyncObj) :
    (s.setObj o x).setObj o y = s.setObj o y := by
  simp [State.setObj]

@[simp] theorem State.region_setObj (s : State) (o : BitVec 16) (x : SyncObj) (r : RegionId) :
    (s.setObj o x).region r = s.region r := rfl

@[simp] theorem State.tile_setObj (s : State) (o : BitVec 16) (x : SyncObj) (t : TileId) :
    (s.setObj o x).tile t = s.tile t := rfl

@[simp] theorem State.obj_modTile (s : State) (t : TileId) (f : Tile → Tile) (o : BitVec 16) :
    (s.modTile t f).obj o = s.obj o := rfl

@[simp] theorem State.obj_modRegion (s : State) (r : RegionId) (f : Region → Region) (o : BitVec 16) :
    (s.modRegion r f).obj o = s.obj o := rfl

theorem State.obj_of_objs {s u : State} (h : s.objs = u.objs) (o : BitVec 16) : s.obj o = u.obj o := by
  unfold State.obj; rw [h]

@[simp] theorem State.obj_raise (s : State) (r : RegionId) (t : Option TileId) (x : Option (Slot × BitVec 11)) (c d : Nat)
    (o : BitVec 16) : (s.raise r t x c d).obj o = s.obj o := State.obj_of_objs (s.raise_objs r t x c d) o

/-- The step at which the waiters of one cycle are put in order leaves a list that has at most one of them. -/
theorem SyncObj.sortWaits_of_none {x : SyncObj} {n : Nat} (h : x.waiters.length ≤ n) : x.sortWaits n = x := by
  obtain ⟨⟩ := x
  simp only [SyncObj.sortWaits, List.take_of_length_le h, List.drop_of_length_le h, List.foldl_nil, List.append_nil]

theorem SyncObj.sortWaits_of_one {x : SyncObj} {l : List Waiter} {w : Waiter} (h : x.waiters = l ++ [w]) :
    x.sortWaits l.length = x := by
  obtain ⟨⟩ := x
  cases h
  simp [SyncObj.sortWaits, insertWaiter]

theorem serve_of_bar {r : RegionId} {o : BitVec 16} {s : State} (h : (s.obj o).bar = true) : serve r o s = s := if_pos h

/-- A put under a key whose entries do not count leaves what is listed. -/
theorem Tab.any_put {α : Type} {p : Nat × α → Bool} {k : Nat} (hp : ∀ v, p (k, v) = false) (m : Tab α) (v : α) :
    (m.put k v).any p = m.any p := by
  induction m with
  | nil => simp [Tab.put, hp]
  | cons e m ih =>
    obtain ⟨a, b⟩ := e
    rw [Tab.put]
    split
    · simp [hp]
    · split
      · next hk => subst hk; simp [hp]
      · rw [List.any_cons, ih, List.any_cons]

/-- The tiles and the objects of a region are what its configuration says. -/
theorem Region.tiles_congr {g k : Region} (h : g.cfg = k.cfg) : g.tiles = k.tiles := by
  unfold Region.tiles; rw [h]

theorem Region.ownsObj_congr {g k : Region} (h : g.cfg = k.cfg) (n : Nat) : g.ownsObj n = k.ownsObj n := by
  unfold Region.ownsObj; rw [h]

/-- Whether a configuration is refused says nothing of what is on its way or has reached the object. -/
theorem configRefused_congr {r : RegionId} {o : BitVec 16} (v : Word) {s u : State} (hcfg : (u.region r).cfg = (s.region r).cfg)
    (hobj : u.obj o = s.obj o) (hobjs : ∀ p : Nat × SyncObj → Bool, (∀ x, p (o.toNat, x) = false) → u.objs.any p = s.objs.any p) :
    configRefused r o v u = configRefused r o v s := by
  have hother : otherXch r o u = otherXch r o s := by
    unfold otherXch
    simp only [Region.ownsObj_congr hcfg]
    exact hobjs _ (by simp)
  unfold configRefused
  rw [hother, Region.tiles_congr hcfg, hobj]

section
variable {s : State} {r : RegionId} {f : SyncFlight}

/-- What one operation does at an object whose block is in service and at which nothing waits after the operation. -/
theorem processObject_done {u : State} (hs : s.stale 2 (f.obj.toNat / 256) = false) (hw : (s.obj f.obj).waiters = [])
    (hu : waitFlight r f (applyFlight r f (touch r f.obj s)) = u) (huw : (u.obj f.obj).waiters = []) :
    processObject r f.obj [f] s =
      answerFlight r (!(s.region r).touched.any (fun q => q.1 == f.obj.toNat)) f (u.setObj f.obj (u.obj f.obj)) := by
  rw [processObject_singleton hs hu, hw, SyncObj.sortWaits_of_waiters_nil huw, serve_of_waiters_nil (by simpa using huw)]

/-- What one operation does at a barrier, which serves no wait. -/
theorem processObject_bar {u : State} (hs : s.stale 2 (f.obj.toNat / 256) = false)
    (hu : waitFlight r f (applyFlight r f (touch r f.obj s)) = u)
    (hsort : (u.obj f.obj).sortWaits (s.obj f.obj).waiters.length = u.obj f.obj) (hb : (u.obj f.obj).bar = true) :
    processObject r f.obj [f] s =
      answerFlight r (!(s.region r).touched.any (fun q => q.1 == f.obj.toNat)) f (u.setObj f.obj (u.obj f.obj)) := by
  rw [processObject_singleton hs hu, hsort, serve_of_bar (by simpa using hb)]

theorem processObject_stale {t : TileId} {pc : BitVec 11} (hsrc : f.src = .op t pc)
    (hs : s.stale 2 (f.obj.toNat / 256) = true) :
    processObject r f.obj [f] s = s.raise r (some t) (some (.s, pc)) fStaleUnit (blockDetail f.obj) := by
  simp [processObject, hs, chargeSync, hsrc]

/-! #### Signals (R254) -/

theorem wait_apply_ssig {n : Nat} (hk : f.kind = .ssig n) (u : State) : waitFlight r f (applyFlight r f u) =
    if (u.obj f.obj).bar then misuse r f.obj f.src u else addSignal r f.obj f.src n u := by
  simp [waitFlight, applyFlight, hk]

theorem answerFlight_ssig {n : Nat} (hk : f.kind = .ssig n) (alone : Bool) (u : State) : answerFlight r alone f u = u := by
  simp [answerFlight, hk]

/-- A signal the counter has room for. -/
theorem processObject_ssig {t : TileId} {pc : BitVec 11} {n : Nat} (hsrc : f.src = .op t pc) (hk : f.kind = .ssig n)
    (hs : s.stale 2 (f.obj.toNat / 256) = false) (hb : (s.obj f.obj).bar = false) (hw : (s.obj f.obj).waiters = [])
    (hn : (s.obj f.obj).value.toNat + n ≤ 65535) :
    processObject r f.obj [f] s = (touch r f.obj s).setObj f.obj { s.obj f.obj with
      value := BitVec.ofNat 16 ((s.obj f.obj).value.toNat + n), last := 0x40000000 ||| t.setWidth 32,
      lbeat := s.cad.lap ++ s.cad.beat } := by
  have hu : waitFlight r f (applyFlight r f (touch r f.obj s)) = (touch r f.obj s).setObj f.obj { s.obj f.obj with
      value := BitVec.ofNat 16 ((s.obj f.obj).value.toNat + n), last := 0x40000000 ||| t.setWidth 32,
      lbeat := s.cad.lap ++ s.cad.beat } := by
    rw [wait_apply_ssig hk, obj_touch, hb, hsrc]
    exact if_neg (Nat.not_lt.2 hn)
  rw [processObject_done hs hw hu (by simpa using hw), answerFlight_ssig hk]
  simp

/-- A signal that overflows the counter faults and leaves it. -/
theorem processObject_ssig_overflow {t : TileId} {pc : BitVec 11} {n : Nat} (hsrc : f.src = .op t pc) (hk : f.kind = .ssig n)
    (hs : s.stale 2 (f.obj.toNat / 256) = false) (hb : (s.obj f.obj).bar = false) (hw : (s.obj f.obj).waiters = [])
    (hn : 65535 < (s.obj f.obj).value.toNat + n) :
    processObject r f.obj [f] s =
      ((touch r f.obj s).raise r (some t) (some (.s, pc)) fSyncOverflow f.obj.toNat).setObj f.obj (s.obj f.obj) := by
  have hu : waitFlight r f (applyFlight r f (touch r f.obj s)) =
      (touch r f.obj s).raise r (some t) (some (.s, pc)) fSyncOverflow f.obj.toNat := by
    rw [wait_apply_ssig hk, obj_touch, hb, hsrc]
    exact if_pos hn
  rw [processObject_done hs hw hu (by simpa using hw), answerFlight_ssig hk, State.obj_raise, obj_touch]

/-- A signal at a barrier is misuse. -/
theorem processObject_ssig_bar {t : TileId} {pc : BitVec 11} {n : Nat} (hsrc : f.src = .op t pc) (hk : f.kind = .ssig n)
    (hs : s.stale 2 (f.obj.toNat / 256) = false) (hb : (s.obj f.obj).bar = true) :
    processObject r f.obj [f] s =
      ((touch r f.obj s).raise r (some t) (some (.s, pc)) fSyncMisuse f.obj.toNat).setObj f.obj (s.obj f.obj) := by
  have hu : waitFlight r f (applyFlight r f (touch r f.obj s)) =
      (touch r f.obj s).raise r (some t) (some (.s, pc)) fSyncMisuse f.obj.toNat := by
    rw [wait_apply_ssig hk, obj_touch, hb, hsrc]
    rfl
  rw [processObject_bar hs hu (by simp [SyncObj.sortWaits_of_none]) (by simpa using hb), answerFlight_ssig hk, State.obj_raise,
    obj_touch]

/-! #### Waits (R257, R258) -/

/-- A wait on a counter that nothing waits at joins the list, which is then served. -/
theorem processObject_swait {t : TileId} {pc : BitVec 11} {n : Nat} (hsrc : f.src = .op t pc) (hk : f.kind = .swait n)
    (hs : s.stale 2 (f.obj.toNat / 256) = false) (hb : (s.obj f.obj).bar = false) (hw : (s.obj f.obj).waiters = []) :
    processObject r f.obj [f] s =
      serve r f.obj ((touch r f.obj s).setObj f.obj { s.obj f.obj with waiters := [{ tile := some t, count := n }] }) := by
  have hu : waitFlight r f (applyFlight r f (touch r f.obj s)) =
      (touch r f.obj s).setObj f.obj { s.obj f.obj with waiters := [{ tile := some t, count := n }] } := by
    simp [waitFlight, applyFlight, hk, hsrc, appendWait, hb, hw]
  have hsort := SyncObj.sortWaits_of_one (l := []) (w := { tile := some t, count := n })
    (x := { s.obj f.obj with waiters := [{ tile := some t, count := n }] }) rfl
  rw [processObject_singleton hs hu, hw, State.obj_setObj, if_pos rfl, hsort, State.setObj_setObj]
  simp [answerFlight, hk]

/-- The one waiter of a counter is served where the counter has its amount. -/
theorem serve_one {u : State} {o : BitVec 16} {x : SyncObj} {w : Waiter} (hb : x.bar = false) (hw : x.waiters = [w]) :
    serve r o (u.setObj o x) = if w.count ≤ x.value.toNat then
      wakeWaiter r w (u.setObj o { x with value := BitVec.ofNat 16 (x.value.toNat - w.count), waiters := [] })
      else u.setObj o x := by
  simp [serve, serveWaits, hb, hw]

theorem touch_tile (o : BitVec 16) (q : TileId) : (touch r o s).tile q = s.tile q := rfl

theorem touch_cycle (o : BitVec 16) : ((touch r o s).region r).cycle = (s.region r).cycle := by
  simp [touch]

/-! #### Configurations (R254) -/

theorem processObject_scfg {v : Word} (hk : f.kind = .scfg v) (hs : s.stale 2 (f.obj.toNat / 256) = false)
    (hok : configRefused r f.obj v s = false) (hfirst : ∀ q ∈ (s.region r).touched, q.1 ≠ f.obj.toNat) :
    processObject r f.obj [f] s = (touch r f.obj s).setObj f.obj ((s.obj f.obj).configure v) := by
  have hw : (s.obj f.obj).waiters = [] := by
    unfold configRefused at hok
    simp only [Bool.or_eq_false_iff, Bool.not_eq_false', List.isEmpty_iff] at hok
    obtain ⟨⟨⟨⟨⟨⟨h, _⟩, _⟩, _⟩, _⟩, _⟩, _⟩ := hok
    exact h
  have hu : waitFlight r f (applyFlight r f (touch r f.obj s)) = touch r f.obj s := by
    simp [waitFlight, applyFlight, hk]
  have halone : (!(s.region r).touched.any (fun q => q.1 == f.obj.toNat)) = true := by
    simpa using hfirst
  rw [processObject_done hs hw hu (by simpa using hw), halone, obj_touch]
  have hrefused := (configRefused_congr v (s := s) (u := (touch r f.obj s).setObj f.obj (s.obj f.obj)) (by simp [touch])
    (by simp) (fun p hp => Tab.any_put hp s.objs (s.obj f.obj))).trans hok
  simp only [answerFlight, hk, hrefused, Bool.not_true, Bool.false_or, Bool.false_eq_true, if_false, State.obj_setObj,
    if_true, State.setObj_setObj]

end

/-- Settles O22: each operation alone, by the steps of R254. -/
theorem syncOperationsArrive : Obligations.SyncOperationsArrive := by
  unfold Obligations.SyncOperationsArrive
  intro s r f t pc hrun hf hdue hsrc
  dsimp only
  rw [exec_syncOpArrival_alone hrun hf hdue]
  refine ⟨fun hs => ?_, fun hs => ⟨fun n hk hb hw => ⟨fun hn => ?_, fun hn => ?_⟩, fun n hk hb => ?_, fun n hk hb hw => ?_,
    fun rd hk hw => ?_, fun w hk hok hfirst => ?_⟩⟩
  · exact congrArg Host.Outcome.next (processObject_stale hsrc hs)
  · exact congrArg Host.Outcome.next (processObject_ssig hsrc hk hs hb hw hn)
  · exact congrArg Host.Outcome.next (processObject_ssig_overflow hsrc hk hs hb hw hn)
  · exact congrArg Host.Outcome.next (processObject_ssig_bar hsrc hk hs hb)
  · rw [processObject_swait (s := s.setRegion r _) hsrc hk hs hb hw, State.obj_setRegion, serve_one (by exact hb) rfl]
    refine ⟨_, rfl, ?_, fun q hq => ?_, fun hn => ?_, fun hn => ?_⟩
    · split
      · simp [wakeWaiter, touch]
      · simp [touch]
    · split
      · simp [wakeWaiter, touch, hq]
      · simp [touch]
    · rw [if_pos hn, ← hw]
      simp [wakeWaiter, Region.countCycle, touch]
    · rw [if_neg (Nat.not_le.2 hn)]
      simp [touch]
  · exact congrArg Host.Outcome.next (processObject_sread hsrc hk hs hw)
  · refine congrArg Host.Outcome.next (processObject_scfg hk hs ?_ ?_)
    · exact (configRefused_congr (s := s) (u := s.setRegion r _) w (by simp) rfl (fun _ _ => rfl)).trans hok
    · simpa using hfirst

/-! ### Arrivals at a barrier (10 R261) -/

/-- A barrier after an arrival that waits. -/
def SyncObj.arrived (x : SyncObj) (s : State) (src : SigSrc) (t : TileId) : SyncObj :=
  ({ x with value := x.value - 1, waiters := x.waiters ++ [{ tile := some t, count := 0 }] } : SyncObj).stamp s src

/-- A barrier with its last arrival made. -/
def SyncObj.turned (x : SyncObj) : SyncObj :=
  { x with sense := !x.sense, gen := x.gen + 1, value := x.pcount, up := false, waiters := [] }

theorem arriveRefused_eq_false {r : RegionId} {o : BitVec 16} {s : State} (hb : (s.obj o).bar = true)
    (hup : (s.obj o).up = false) (hv : (s.obj o).value ≠ 0)
    (hrel : ∀ e ∈ (s.region r).releases, e.1 ≠ o ∨ e.2.1 ≠ (s.region r).cycle) : arriveRefused r o s = false := by
  simp only [arriveRefused, hb, hup, Region.countCycle, Bool.not_true, Bool.false_or, Bool.or_eq_false_iff, beq_eq_false_iff_ne]
  refine ⟨hv, List.any_eq_false.2 fun e he => ?_⟩
  rcases hrel e he with h | h <;> simp [h]

/-- An arrival that is not the last. -/
theorem arrive_waits {r : RegionId} {o : BitVec 16} {src : SigSrc} {t : TileId} {name : Option (TileId × BitVec 8 × BitVec 11)}
    {s : State} (hok : arriveRefused r o s = false) (hx : (s.obj o).xch = false) (hv : (s.obj o).value - 1 ≠ 0) :
    arrive r o src (some t) name s = s.setObj o ((s.obj o).arrived s src t) := by
  unfold arrive
  dsimp only
  rw [if_neg (by simp [hok]), if_pos hv]
  split
  · next heq => exact absurd heq (by simp [hx])
  · rfl

/-- The last arrival at a barrier without a parent. -/
theorem arrive_releases {r : RegionId} {o : BitVec 16} {src : SigSrc} {t : TileId}
    {name : Option (TileId × BitVec 8 × BitVec 11)} {s : State} (hok : arriveRefused r o s = false) (hx : (s.obj o).xch = false)
    (hv : (s.obj o).value = 1) (hp : (s.obj o).parEn = false) :
    arrive r o src (some t) name s =
      releaseBarrier r o (s.region r).cycle (s.setObj o ((s.obj o).arrived s src t)) := by
  unfold arrive
  dsimp only
  rw [if_neg (by simp [hok]), if_neg (by simp [hv]), if_neg (by simp [hp])]
  split
  · next heq => exact absurd heq (by simp [hx])
  · rfl

theorem releaseChildren_of_nil {r : RegionId} {o : BitVec 16} {s : State} (h : (s.obj o).children = []) :
    releaseChildren r o s = s.setObj o (s.obj o) := by
  have heq : { s.obj o with children := [] } = s.obj o := by rw [← h]
  simp [releaseChildren, h, heq]

/-- A tile its barrier has released. -/
def Tile.releasedFrom (l : Nat) (x : Tile) : Tile := { x with ctl := { x.ctl with run := .released (l + 48) } }

/-- A region with a release noted. -/
def Region.noteRelease (o : BitVec 16) (l : Nat) (tiles : List TileId) (g : Region) : Region :=
  { g with releases := g.releases ++ [(o, l, tiles)] }

/-- What a barrier's last arrival leaves, where nothing above or below the barrier takes part. -/
def State.releasedBy (s : State) (r : RegionId) (o : BitVec 16) (l : Nat) (tiles : List TileId) : State :=
  (tiles.foldl (fun u t => u.modTile t (Tile.releasedFrom l)) (s.setObj o (s.obj o).turned)).modRegion r
    (Region.noteRelease o l tiles)

/-- The release of a barrier that is no exchange barrier, that nothing below it waits for, and that no engine watches. -/
theorem releaseBarrier_plain {r : RegionId} {o : BitVec 16} {l : Nat} {s : State} (hx : (s.obj o).xch = false)
    (hc : (s.obj o).children = []) (hfw : (s.region r).fw.conf = false) (hdrl : (s.region r).drl.st = .idle) :
    releaseBarrier r o l s = s.releasedBy r o l ((s.obj o).waiters.filterMap (·.tile)) := by
  have hchildren : releaseChildren r o (s.setObj o (s.obj o).turned) = s.setObj o (s.obj o).turned := by
    rw [releaseChildren_of_nil (by simpa [SyncObj.turned] using hc)]
    simp
  have hnote : ∀ g : Region, g.drl.st = .idle → drlNote o g = g := fun g h => by simp [drlNote, h]
  have hcommit : ∀ u : State, (u.region r).fw.conf = false → fwCommit r o u = u := fun u h => by simp [fwCommit, h]
  unfold releaseBarrier
  dsimp only
  rw [if_neg (by simp [hx])]
  generalize hu : ((s.obj o).waiters.filterMap (·.tile)).foldl (fun u t => u.modTile t (Tile.releasedFrom l))
      (s.setObj o (s.obj o).turned) = u
  have hregion : u.region r = s.region r := by
    rw [← hu, foldl_modTile_region (fun _ => Tile.releasedFrom l), State.region_setObj]
  refine (congrArg (fun v => fwCommit r o (State.modRegion (List.foldl _ v _) r _)) hchildren).trans ?_
  refine (congrArg (fun v => fwCommit r o (State.modRegion v r _)) hu).trans ?_
  have hmod : u.modRegion r (fun g => drlNote o (g.noteRelease o l ((s.obj o).waiters.filterMap (·.tile)))) =
      u.modRegion r (Region.noteRelease o l ((s.obj o).waiters.filterMap (·.tile))) :=
    congrArg (u.setRegion r) (hnote _ (by rw [hregion]; exact hdrl))
  rw [State.releasedBy, hu]
  exact (congrArg (fwCommit r o) hmod).trans (hcommit _ (by simpa [hregion, Region.noteRelease] using hfw))

section
variable (s : State) (r : RegionId) (o : BitVec 16) (l : Nat) (tiles : List TileId)

@[simp] theorem State.releasedBy_obj : (s.releasedBy r o l tiles).obj o = (s.obj o).turned := by
  rw [State.releasedBy, State.obj_modRegion, State.obj_of_objs (foldl_modTile_objs (fun _ => Tile.releasedFrom l) tiles _)]
  simp

@[simp] theorem State.releasedBy_mem : (s.releasedBy r o l tiles).mem = s.mem := by
  unfold State.releasedBy
  simp only [State.modRegion_mem]
  rw [foldl_modTile_mem (fun _ => Tile.releasedFrom l) tiles]
  simp

@[simp] theorem State.releasedBy_releases :
    ((s.releasedBy r o l tiles).region r).releases = (s.region r).releases ++ [(o, l, tiles)] := by
  simp only [State.releasedBy, State.region_modRegion, if_true, Region.noteRelease]
  rw [foldl_modTile_region (fun _ => Tile.releasedFrom l) tiles, State.region_setObj]

theorem State.releasedBy_run {t : TileId} (h : t ∈ tiles) : ((s.releasedBy r o l tiles).tile t).ctl.run = .released (l + 48) := by
  rw [State.releasedBy, State.tile_modRegion, tile_foldl_modTile (f := Tile.releasedFrom l) (fun _ => rfl), if_pos h]
  rfl

end

/-- The operation of a barrier arrival. -/
theorem wait_apply_sbar {r : RegionId} {f : SyncFlight} {t : TileId} {pc : BitVec 11} {win : Byte} (hsrc : f.src = .op t pc)
    (hk : f.kind = .sbar win) (u : State) :
    waitFlight r f (applyFlight r f u) = arrive r f.obj f.src (some t) (some (t, win, pc)) u := by
  simp [waitFlight, applyFlight, hk, hsrc]

theorem answerFlight_sbar {r : RegionId} {f : SyncFlight} {win : Byte} (hk : f.kind = .sbar win) (alone : Bool) (u : State) :
    answerFlight r alone f u = u := by
  simp [answerFlight, hk]

/-- Settles O24: the arrival counts, and the last one releases. -/
theorem barrierArrivalsCountDown : Obligations.BarrierArrivalsCountDown := by
  unfold Obligations.BarrierArrivalsCountDown
  intro s r f t pc win hrun hf hdue hsrc hk hstale
  dsimp only
  intro hb hx hup hpar hchildren hrel
  rw [exec_syncOpArrival_alone hrun hf hdue]
  generalize hw : s.setRegion r { s.region r with flights := [] } = w
  have hws : w.stale 2 (f.obj.toNat / 256) = false := by rw [← hw]; exact hstale
  have hwobj : w.obj f.obj = s.obj f.obj := by rw [← hw]; rfl
  generalize hv : touch r f.obj w = v
  have hobj : v.obj f.obj = s.obj f.obj := by rw [← hv]; exact hwobj
  have hmem : v.mem = s.mem := by rw [← hv, ← hw]; simp [touch]
  have htiles : v.tiles = s.tiles := by rw [← hv, ← hw]; simp [touch]
  have hregion : v.region r = { s.region r with flights := [], touched := (f.obj.toNat, s.wall) :: (s.region r).touched } := by
    rw [← hv, ← hw]; simp [touch]
  have hok : ∀ (hz : (s.obj f.obj).value ≠ 0), arriveRefused r f.obj v = false := fun hz =>
    arriveRefused_eq_false (hobj ▸ hb) (hobj ▸ hup) (hobj ▸ hz) (by rw [hregion]; exact hrel)
  have happly := wait_apply_sbar (r := r) hsrc hk v
  refine ⟨fun hn => ?_, fun hn hfw hdrl => ?_⟩
  · rw [arrive_waits (hok (by bv_omega)) (hobj ▸ hx) (by rw [hobj]; bv_omega)] at happly
    rw [processObject_bar hws ((congrArg _ (congrArg _ hv)).trans happly) ?_ (by simpa [SyncObj.arrived, SyncObj.stamp,
        hobj] using hb), answerFlight_sbar hk]
    · exact ⟨_, rfl, by simp [htiles], by simp [hmem], by simp [SyncObj.arrived, SyncObj.stamp, hobj],
        by simp [SyncObj.arrived, SyncObj.stamp, hobj], by simp [SyncObj.arrived, SyncObj.stamp, hobj],
        by simp [SyncObj.arrived, SyncObj.stamp, hobj]⟩
    · rw [State.obj_setObj, if_pos rfl, hwobj, ← hobj]
      exact SyncObj.sortWaits_of_one rfl
  · have harrived : ((v.setObj f.obj ((v.obj f.obj).arrived v f.src t)).obj f.obj) = (s.obj f.obj).arrived v f.src t := by
      rw [State.obj_setObj, if_pos rfl, hobj]
    rw [arrive_releases (hok (by rw [hn]; decide)) (hobj ▸ hx) (hobj ▸ hn) (hobj ▸ hpar),
      releaseBarrier_plain (by rw [harrived]; exact hx) (by rw [harrived]; exact hchildren)
        (by rw [State.region_setObj, hregion]; exact hfw) (by rw [State.region_setObj, hregion]; exact hdrl), harrived] at happly
    have hobj' := State.releasedBy_obj (v.setObj f.obj ((v.obj f.obj).arrived v f.src t)) r f.obj (v.region r).cycle
      (((s.obj f.obj).arrived v f.src t).waiters.filterMap (·.tile))
    rw [harrived] at hobj'
    rw [processObject_bar hws ((congrArg _ (congrArg _ hv)).trans happly) (by rw [hobj']; exact SyncObj.sortWaits_of_none (Nat.zero_le _))
      (by rw [hobj']; exact hb), answerFlight_sbar hk]
    have hcycle : (v.region r).cycle = (s.region r).cycle := by rw [hregion]
    refine ⟨_, rfl, by simp [hmem], ?_, ?_, ?_, ?_, fun q hq => ?_, ?_⟩
    · rw [State.obj_setObj, if_pos rfl, hobj']; rfl
    · rw [State.obj_setObj, if_pos rfl, hobj']; rfl
    · rw [State.obj_setObj, if_pos rfl, hobj']; rfl
    · rw [State.obj_setObj, if_pos rfl, hobj']; rfl
    · rw [State.tile_setObj, State.releasedBy_run, hcycle]
      exact List.mem_filterMap.2 ⟨_, hq, rfl⟩
    · rw [State.region_setObj, State.releasedBy_releases, State.region_setObj, hcycle, hregion]
      simp [SyncObj.arrived, SyncObj.stamp]

end Sys2Proof.Machine

namespace Sys2Proof.Machine
open Sys2Proof

/-! ### Bytes of the external memories (11 R303, R305) -/

theorem Cells.get_putList {w : Nat} (m : Cells w) (k : Nat) (l : List (BitVec w)) (a : Nat) (h : m.wf = true) :
    (m.putList k l).get a = if k ≤ a ∧ a < k + l.length then l.getD (a - k) 0 else m.get a := by
  induction l generalizing m k with
  | nil => rw [Cells.putList, if_neg (by simp only [List.length_nil]; omega)]
  | cons v l ih =>
    rw [Cells.putList, ih _ _ (Cells.wf_put m k v h), Cells.get_put m k a v 0 h, List.length_cons]
    by_cases ha : a = k
    · subst ha
      rw [if_neg (by omega), if_pos rfl, if_pos (by omega), Nat.sub_self]
      rfl
    · rw [if_neg ha]
      by_cases hin : k + 1 ≤ a ∧ a < k + 1 + l.length
      · obtain ⟨j, rfl⟩ : ∃ j, a = k + 1 + j := ⟨a - (k + 1), by omega⟩
        rw [if_pos hin, if_pos (by omega), show k + 1 + j - (k + 1) = j by omega, show k + 1 + j - k = j + 1 by omega]
        rfl
      · rw [if_neg hin, if_neg (by omega)]

theorem Cells.get_cons_of_lt {w : Nat} {k a : Nat} (b : BitVec w) (m : Cells w) (h : a < k) : Cells.get ((k, b) :: m) a = 0 :=
  if_pos h

theorem Cells.get_cons_self {w : Nat} (k : Nat) (b : BitVec w) (m : Cells w) : Cells.get ((k, b) :: m) k = b := by
  rw [Cells.get, if_neg (Nat.lt_irrefl k), if_pos rfl]

theorem Cells.get_cons_of_gt {w : Nat} {k a : Nat} (b : BitVec w) (m : Cells w) (h : k < a) :
    Cells.get ((k, b) :: m) a = Cells.get m a := by
  rw [Cells.get, if_neg (by omega), if_neg (by omega)]

/-- Clearing the keys of a set leaves the others. -/
theorem Cells.get_clear {w : Nat} (m : Cells w) (p : Nat → Bool) (a : Nat) {lo : Nat} (h : Cells.risingFrom lo m = true) :
    (m.clear p).get a = if p a then 0 else m.get a := by
  induction m generalizing lo with
  | nil => simp [Cells.clear, Cells.get]
  | cons e m ih =>
    obtain ⟨k, b⟩ := e
    simp only [Cells.risingFrom, Bool.and_eq_true, decide_eq_true_eq] at h
    obtain ⟨_, hrise⟩ := h
    have hclear : Cells.risingFrom (k + 1) (Cells.clear m p) = true := Cells.rising_clear m p (k + 1) hrise
    have hcons : Cells.clear ((k, b) :: m) p = if p k then Cells.clear m p else (k, b) :: Cells.clear m p := by
      simp only [Cells.clear, List.filter_cons]
      cases p k <;> simp
    rw [hcons]
    obtain hlt | rfl | hgt := Nat.lt_trichotomy a k
    · have hbelow : (Cells.clear m p).get a = 0 := Cells.get_below _ hclear (by omega)
      rw [Cells.get_cons_of_lt b m hlt, ite_self]
      split
      · exact hbelow
      · exact Cells.get_cons_of_lt b _ hlt
    · split
      · exact Cells.get_below _ hclear (Nat.lt_succ_self a)
      · rw [Cells.get_cons_self, Cells.get_cons_self]
    · rw [Cells.get_cons_of_gt b m hgt, ← ih hrise]
      split
      · rfl
      · exact Cells.get_cons_of_gt b _ hgt

@[simp] theorem Mem.touch_veils (m : Mem) (page : Nat) : (m.touch page).veils = m.veils := rfl

@[simp] theorem Mem.touchRange_veils (m : Mem) (pa n : Nat) : (m.touchRange pa n).veils = m.veils :=
  foldl_inv (P := Mem.veils) (fun m _ => Mem.touch_veils m _) _ m

@[simp] theorem Mem.touchRange_bytes (m : Mem) (pa n : Nat) : (m.touchRange pa n).bytes = m.bytes :=
  Mem.bytes_touches m _ _

/-- What is undefined masks a byte by its address alone. -/
theorem Mem.mask_congr {m k : Mem} (h : m.veils = k.veils) (a : Nat) : m.mask a = k.mask a := by
  unfold Mem.mask; rw [h]

/-- What one veil adds to the byte at `a`. -/
def veilStep (a : Nat) (x : Byte) (v : Nat × Nat × Nat) : Byte :=
  if v.1 ≤ a ∧ a < v.2.1 then x ^^^ (Config.free (2 ^ 43) v.2.2).extractLsb' (8 * a) 8 else x

theorem Mem.mask_eq (m : Mem) (a : Nat) : m.mask a = m.veils.foldl (veilStep a) 0 := rfl

theorem veilStep_of_in {a : Nat} {v : Nat × Nat × Nat} (h : v.1 ≤ a ∧ a < v.2.1) (x : Byte) :
    veilStep a x v = x ^^^ (Config.free (2 ^ 43) v.2.2).extractLsb' (8 * a) 8 := if_pos h

theorem veilStep_of_out {a : Nat} {v : Nat × Nat × Nat} (h : ¬ (v.1 ≤ a ∧ a < v.2.1)) (x : Byte) :
    veilStep a x v = x := if_neg h

/-- A veil cut at a range masks what it masked outside the range, and nothing in it. -/
theorem veilStep_cut {lo hi a : Nat} (hlo : lo ≤ hi) (x : Byte) (v : Nat × Nat × Nat) :
    veilStep a (veilStep a x (v.1, min v.2.1 lo, v.2.2)) (max v.1 hi, v.2.1, v.2.2) =
      if lo ≤ a ∧ a < hi then x else veilStep a x v := by
  by_cases hin : lo ≤ a ∧ a < hi
  · rw [if_pos hin, veilStep_of_out (by dsimp only; omega), veilStep_of_out (by dsimp only; omega)]
  · rw [if_neg hin]
    by_cases hv : v.1 ≤ a ∧ a < v.2.1
    · rw [veilStep_of_in hv]
      by_cases ha : a < lo
      · rw [veilStep_of_out (by dsimp only; omega), veilStep_of_in (by dsimp only; omega)]
      · rw [veilStep_of_in (by dsimp only; omega), veilStep_of_out (by dsimp only; omega)]
    · rw [veilStep_of_out hv, veilStep_of_out (by dsimp only; omega), veilStep_of_out (by dsimp only; omega)]

/-- What is defined again is masked by nothing, and the rest as before. -/
theorem Mem.mask_unveil (m : Mem) {lo hi : Nat} (hlo : lo ≤ hi) (a : Nat) :
    (m.unveil lo hi).mask a = if lo ≤ a ∧ a < hi then 0 else m.mask a := by
  have hstep : ∀ (l : List (Nat × Nat × Nat)) (x : Byte),
      ((l.flatMap (fun v => [(v.1, min v.2.1 lo, v.2.2), (max v.1 hi, v.2.1, v.2.2)])).filter
        (fun v => decide (v.1 < v.2.1))).foldl (veilStep a) x = if lo ≤ a ∧ a < hi then x else l.foldl (veilStep a) x := by
    intro l
    have hempty : ∀ (x : Byte) (v : Nat × Nat × Nat), (if decide (v.1 < v.2.1) then veilStep a x v else x) = veilStep a x v := by
      intro x v
      split
      · rfl
      · next h => exact (veilStep_of_out (by simp at h; omega) x).symm
    induction l with
    | nil => simp
    | cons v l ih =>
      intro x
      rw [List.flatMap_cons, List.filter_append, List.foldl_append, ih, List.foldl_filter]
      simp only [hempty, List.foldl_cons, List.foldl_nil, veilStep_cut hlo]
      split <;> rfl
  rw [Mem.mask_eq, Mem.mask_eq]
  exact hstep m.veils 0

theorem Mem.byte_eq (m : Mem) (a : Nat) : m.byte a = m.bytes.get a ^^^ m.mask a := rfl

theorem memoryWritesChangeTheirBytesOnly : Rules.MemoryWritesChangeTheirBytesOnly := by
  intro m pa b a hwf
  cases hb : b.isEmpty with
  | true =>
    obtain rfl : b = [] := List.isEmpty_iff.1 hb
    exact ⟨fun h h' => absurd h' (by simpa using h), fun _ => rfl⟩
  | false =>
    have hmask : (m.write pa b).mask a = m.mask a := by
      refine Mem.mask_congr ?_ a
      rw [Mem.write, if_neg (by simp [hb])]
      exact Mem.touchRange_veils m pa b.length
    have hbytes : (m.write pa b).bytes.get a = if pa ≤ a ∧ a < pa + b.length then b.getD (a - pa) 0 ^^^ m.mask a
        else m.bytes.get a := by
      rw [Mem.write, if_neg (by simp [hb])]
      dsimp only
      rw [Mem.touchRange_bytes, Cells.get_putList _ _ _ _ hwf, List.length_map, List.length_range]
      split
      · next h =>
        rw [List.getD_eq_getElem?_getD, List.getElem?_map, List.getElem?_range (by omega), Option.map_some, Option.getD_some,
          Mem.mask_congr (Mem.touchRange_veils m pa b.length), show pa + (a - pa) = a by omega]
      · rfl
    rw [Mem.byte_eq, Mem.byte_eq, hmask, hbytes]
    refine ⟨fun h h' => ?_, fun h => ?_⟩
    · rw [if_pos ⟨h, h'⟩, BitVec.xor_assoc, BitVec.xor_self, BitVec.xor_zero]
    · rw [if_neg (by omega)]

theorem markedPagesReadZero : Rules.MarkedPagesReadZero := by
  intro m page a
  have hmask : (m.mark page).mask a = if pageOf a = page then 0 else m.mask a := by
    have hpage : page * 0x200000 ≤ a ∧ a < page * 0x200000 + 0x200000 ↔ pageOf a = page := by
      unfold pageOf; omega
    have hveil := m.mask_unveil (Nat.le_add_right (page * 0x200000) 0x200000) a
    simp only [hpage] at hveil
    exact hveil
  have hbytes : m.bytes.wf = true → (m.mark page).bytes.get a = if pageOf a == page then 0 else m.bytes.get a :=
    fun hwf => Cells.get_clear m.bytes (fun a => pageOf a == page) a hwf
  refine ⟨fun h hwf => ?_, fun h hwf => ?_, ?_⟩
  · rw [Mem.byte_eq, hmask, hbytes hwf, if_pos h, if_pos (by simpa using h)]
    rfl
  · rw [Mem.byte_eq, Mem.byte_eq, hmask, hbytes hwf, if_neg h, if_neg (by simpa using h)]
  · simp [Mem.marked, Mem.mark]

/-- Settles O27: a byte is what is listed, masked by what is undefined there. -/
theorem memoryReadsWhatWasWritten : Obligations.MemoryReadsWhatWasWritten :=
  ⟨memoryWritesChangeTheirBytesOnly, markedPagesReadZero⟩

end Sys2Proof.Machine

namespace Sys2Proof.Machine
open Sys2Proof

/-! ### Translations (11 R291 to R296) -/

theorem leNat_lt (l : List Byte) : leNat l < 256 ^ l.length := by
  induction l with
  | nil => simp [leNat]
  | cons b l ih =>
    have hb := b.isLt
    rw [leNat, List.length_cons, Nat.pow_succ]
    omega

theorem Region.ownsAddr_congr {g k : Region} (h : g.cfg = k.cfg) (pa : Nat) : g.ownsAddr pa = k.ownsAddr pa := by
  unfold Region.ownsAddr; rw [h]

/-- A leaf is checked against what the region owns. -/
theorem leafCheck_congr {g k : Region} (h : g.cfg = k.cfg) (at_ leaf kind va : Nat) :
    leafCheck g at_ leaf kind va = leafCheck k at_ leaf kind va := by
  unfold leafCheck
  simp only [Region.ownsAddr_congr h]

/-- A leaf that passes its checks gives an address in a page that the region owns. -/
theorem leafCheck_ok {g : Region} {at_ leaf kind va pa : Nat} (h : leafCheck g at_ leaf kind va = .ok pa) :
    pa % 0x200000 = va % 0x200000 ∧ g.ownsAddr (pa / 0x200000 * 0x200000) = true := by
  unfold leafCheck at h
  dsimp only at h
  generalize (leaf >>> 21) % 2 ^ 19 = page at h
  split at h
  · cases h
  · split at h
    · cases h
    · next howns =>
      split at h
      · cases h
      · obtain rfl : page * 0x200000 + va % 0x200000 = pa := by simpa using h
        refine ⟨by omega, ?_⟩
        rw [show (page * 0x200000 + va % 0x200000) / 0x200000 * 0x200000 = page * 0x200000 by omega]
        simpa using howns

/-- A walk that succeeds ends at a leaf that passes its checks. -/
theorem walkLevels_ok {m : Mem} {g : Region} {kind va n table pa at_ leaf : Nat}
    (h : walkLevels m g kind va n table = (.ok pa, at_, leaf)) : leafCheck g at_ leaf kind va = .ok pa ∧ leaf < 2 ^ 64 := by
  induction n generalizing table with
  | zero => simp [walkLevels] at h
  | succ n ih =>
    have hread : ∀ a, leNat (m.read a 8) < 2 ^ 64 := fun a => by simpa [Mem.read] using leNat_lt (m.read a 8)
    rw [walkLevels] at h
    dsimp only at h
    split at h
    · simp at h
    · split at h
      · simp at h
      · split at h
        · split at h
          · simp at h
          · simp only [Prod.mk.injEq] at h
            obtain ⟨hleaf, rfl, rfl⟩ := h
            exact ⟨hleaf, hread _⟩
        · split at h
          · simp at h
          · split at h
            · simp at h
            · split at h
              · split at h
                · simp at h
                · exact ih h
              · simp at h

/-- The state after a walk that succeeds: the miss counted, and the leaf first in the cache. -/
def State.walked (s : State) (r : RegionId) (va at_ leaf : Nat) : State :=
  s.modRegion r (fun g => { g with mem := { g.mem with
    miss := Word.satAdd g.mem.miss 1,
    tlb := ({ vpn := va % 2 ^ 48 / 0x200000, at_ := at_, leaf := BitVec.ofNat 64 leaf } :: g.mem.tlb).take 256 } })

/-- A translation that succeeds is a hit, or a walk whose leaf is then in the cache. -/
theorem translate_ok {s u : State} {r : RegionId} {va kind pa : Nat} (h : s.translate r va kind = (.ok pa, u)) :
    (∃ e, (s.region r).mem.tlb.find? (fun e => e.vpn == va % 2 ^ 48 / 0x200000) = some e ∧
      leafCheck (s.region r) e.at_ e.leaf.toNat kind (va % 2 ^ 48) = .ok pa ∧ u = s) ∨
    (∃ at_ leaf, leaf < 2 ^ 64 ∧ leafCheck (s.region r) at_ leaf kind (va % 2 ^ 48) = .ok pa ∧ u = s.walked r va at_ leaf) := by
  unfold State.translate at h
  dsimp only at h
  split at h
  · next e he =>
    simp only [Prod.mk.injEq] at h
    exact .inl ⟨e, he, h.1, h.2.symm⟩
  · split at h
    · next pa' at_ leaf hwalk =>
      simp only [Prod.mk.injEq, Walked.ok.injEq] at h
      obtain ⟨rfl, hu⟩ := h
      obtain ⟨hleaf, hlt⟩ := walkLevels_ok hwalk
      refine .inr ⟨at_, leaf, hlt, hleaf, ?_⟩
      rw [← hu, State.modRegion_modRegion]
      rfl
    · next hne _ =>
      simp only [Prod.mk.injEq] at h
      obtain ⟨rfl, _⟩ := h
      exact (hne _ rfl).elim

/-- A page in the cache is translated by its leaf. -/
theorem translate_hit {s : State} {r : RegionId} {va kind : Nat} {e : TlbEntry}
    (h : (s.region r).mem.tlb.find? (fun e => e.vpn == va % 2 ^ 48 / 0x200000) = some e) :
    s.translate r va kind = (leafCheck (s.region r) e.at_ e.leaf.toNat kind (va % 2 ^ 48), s) := by
  unfold State.translate
  dsimp only
  rw [h]

theorem translationsAreCached : Rules.TranslationsAreCached := by
  intro s u r va kind pa h
  obtain ⟨e, he, hleaf, rfl⟩ | ⟨at_, leaf, hlt, hleaf, rfl⟩ := translate_ok h
  · obtain ⟨hmod, howns⟩ := leafCheck_ok hleaf
    refine ⟨h, by rw [hmod, Nat.mod_mod_of_dvd _ (by decide)], howns, .inl rfl, rfl, rfl⟩
  · obtain ⟨hmod, howns⟩ := leafCheck_ok hleaf
    have hregion : ((s.walked r va at_ leaf).region r).cfg = (s.region r).cfg := by simp [State.walked]
    refine ⟨?_, by rw [hmod, Nat.mod_mod_of_dvd _ (by decide)], ?_, .inr ?_, ?_, ?_⟩
    · have hfind : ((s.walked r va at_ leaf).region r).mem.tlb.find? (fun e => e.vpn == va % 2 ^ 48 / 0x200000) =
          some { vpn := va % 2 ^ 48 / 0x200000, at_ := at_, leaf := BitVec.ofNat 64 leaf } := by
        simp [State.walked]
      rw [translate_hit hfind, leafCheck_congr hregion, BitVec.toNat_ofNat, Nat.mod_eq_of_lt hlt, hleaf]
    · rwa [Region.ownsAddr_congr hregion]
    · simp [State.walked]
    · simp [State.walked]
    · simp [State.walked]

theorem walksTranslateOrFault : Rules.WalksTranslateOrFault := by
  intro s r
  refine ⟨fun va kind pa u h => ?_, fun va kind code detail u h => ?_, fun hh va kind => ?_, fun hh va kind => ?_,
    fun t id d hr hh hd => ⟨fun pas hpas => ?_, fun hpas pas u h => ?_, fun hpas pas va code detail u h => ?_⟩⟩
  · rw [State.engineWalk, h]
  · rw [State.engineWalk, h]
  · simp [exec_pageWalk, execPageWalk, hh]
  · simp [exec_pageWalk, execPageWalk, hh]
  · simp [exec_pageWalk, execPageWalk, hr, hd, hpas]
  · simp [exec_pageWalk, execPageWalk, hr, hd, hpas, hh, h]
  · simp [exec_pageWalk, execPageWalk, hr, hd, hpas, hh, h]

/-- Settles O28: a translation that succeeds leaves its leaf first in the cache, and a walk is a translation. -/
theorem translationsWalkAndAreCached : Obligations.TranslationsWalkAndAreCached :=
  ⟨translationsAreCached, walksTranslateOrFault⟩

end Sys2Proof.Machine

namespace Sys2Proof.Machine
open Sys2Proof

/-! ### Flits on receipt (12 R313 to R315, R318) -/

theorem receiveFlit_of_running {p : PortId} {errs : List (BitVec 10)} {act : Bool → Port → State → State} {s : State}
    (h : (s.port p).running = true) :
    receiveFlit p errs act s = act ((s.port p).takeFec errs s.beats).1 ((s.port p).takeFec errs s.beats).2 s := if_pos h

theorem receiveFlit_of_stopped {p : PortId} {errs : List (BitVec 10)} {act : Bool → Port → State → State} {s : State}
    (h : (s.port p).running = false) : receiveFlit p errs act s = s := if_neg (by simp [h])

/-- A good sequenced flit in its turn is accepted. -/
theorem acceptSeq_of_next {f : Flit} {x : Port} (h : flSeq f = x.rxSeq) :
    acceptSeq true f x = (true, { x with rxSeq := x.rxSeq + 1, nak := false }) := by
  simp [acceptSeq, h]

theorem acceptSeq_of_other {f : Flit} {x : Port} (h : flSeq f ≠ x.rxSeq) :
    acceptSeq true f x = (false, { x with nak := true }) := by
  simp [acceptSeq, h]

theorem acceptSeq_of_bad (f : Flit) (x : Port) : acceptSeq false f x = (false, { x with nak := true }) := by
  simp [acceptSeq]

/-- CTRL leaves the cadence where this port is not its source. -/
theorem takeCadence_of_source_ne {p : PortId} {f : Flit} {now : Nat} {s : State} (h : s.frame.source ≠ 1) :
    takeCadence p f now s = s := if_pos (.inr (.inl h))

theorem flitsAreCheckedOnReceipt : Rules.FlitsAreCheckedOnReceipt := by
  intro s p f errs
  refine ⟨fun hstop frac => ⟨?_, ?_, ?_, ?_⟩, fun hrun => ⟨fun hg hq => ?_, fun hg hq => ?_, fun hg => ?_, fun hg hq => ?_,
    fun hg => ?_, fun hg => ?_, fun hg => ?_, fun frac hg => ?_, fun frac hg hb hsrc => ?_⟩⟩
  · exact congrArg Host.Outcome.next (receiveFlit_of_stopped hstop)
  · exact congrArg Host.Outcome.next (receiveFlit_of_stopped hstop)
  · exact congrArg Host.Outcome.next (receiveFlit_of_stopped hstop)
  · exact congrArg Host.Outcome.next (receiveFlit_of_stopped hstop)
  · rw [exec_idleFlit, execIdleFlit, takeSequenced, receiveFlit_of_running hrun]
    simp only [hg, if_true, acceptSeq_of_next hq]
    rfl
  · rw [exec_idleFlit, execIdleFlit, takeSequenced, receiveFlit_of_running hrun]
    simp only [hg, if_true, acceptSeq_of_other hq]
    rfl
  · rw [exec_idleFlit, execIdleFlit, takeSequenced, receiveFlit_of_running hrun]
    simp only [hg, acceptSeq_of_bad]
    rfl
  · rw [exec_dataFlit, execDataFlit, takeSequenced, receiveFlit_of_running hrun]
    simp only [hg, if_true, acceptSeq_of_next hq]
    rfl
  · rw [exec_dataFlit, execDataFlit, takeSequenced, receiveFlit_of_running hrun]
    simp only [hg, acceptSeq_of_bad]
    rfl
  · rw [exec_holdFlit, execHoldFlit, receiveFlit_of_running hrun, hg]
    rfl
  · rw [exec_holdFlit, execHoldFlit, receiveFlit_of_running hrun, hg]
    rfl
  · rw [exec_ctrlFlit, execCtrlFlit, receiveFlit_of_running hrun, if_pos hg]
  · rw [exec_ctrlFlit, execCtrlFlit, receiveFlit_of_running hrun, if_neg (by simp [hg])]
    dsimp only
    rw [if_neg (by simp [hb]), takeCadence_of_source_ne]
    simpa using hsrc

/-! ### Acknowledgements (12 R318) -/

theorem seqBefore_self (a : BitVec 12) : seqBefore a a = false := by
  simp [seqBefore]

theorem Word.satAdd_zero (w : Word) : Word.satAdd w 0 = w := by
  have hw := w.isLt
  rw [Word.satAdd, Nat.add_zero, Nat.min_eq_left (by omega), BitVec.ofNat_toNat, BitVec.setWidth_eq]

/-- The port once the flits that an ACK names are released. -/
def Port.released (f : Flit) (x : Port) : Port :=
  { x with
    buf := x.buf.filter (fun e => !seqBefore e.1 (flAck f)), resend := x.resend.filter (fun e => !seqBefore e.1 (flAck f)),
    replays := Word.satAdd x.replays (if flNak f then 1 else 0) }

/-- The count of NAKs of a SEQ ends when that SEQ is acknowledged. -/
def Port.endNaks (f : Flit) (x : Port) : Port := match x.nakSeq with
  | some q => if seqBefore q (flAck f) then { x with nakSeq := none, nakCount := 0, replayAt := none } else x
  | none => x

/-- The kept flits are to be sent again. -/
def Port.resends (f : Flit) (beats : Nat) (x : Port) : Port :=
  { x with
    resend := x.buf, nakSeq := some (flAck f),
    nakCount := if x.nakSeq == some (flAck f) then x.nakCount + 1 else 1,
    replayAt := if x.nakSeq == some (flAck f) then x.replayAt else some beats }

theorem takeAck_eq (f : Flit) (beats : Nat) (x : Port) : takeAck f beats x =
    if flNak f && ((x.released f).endNaks f).resend.isEmpty then ((x.released f).endNaks f).resends f beats
    else (x.released f).endNaks f := rfl

theorem Port.endNaks_frame (f : Flit) (x : Port) : (x.endNaks f).buf = x.buf ∧ (x.endNaks f).resend = x.resend ∧
    (x.endNaks f).replays = x.replays ∧ (x.endNaks f).rxSeq = x.rxSeq ∧ (x.endNaks f).txSeq = x.txSeq ∧
    (x.endNaks f).st = x.st := by
  unfold Port.endNaks
  split
  · split <;> exact ⟨rfl, rfl, rfl, rfl, rfl, rfl⟩
  · exact ⟨rfl, rfl, rfl, rfl, rfl, rfl⟩

/-- The SEQ that an ACK names is not before it. -/
theorem Port.endNaks_of_same {f : Flit} {x : Port} (h : x.nakSeq = some (flAck f)) : x.endNaks f = x := by
  unfold Port.endNaks
  rw [h]
  exact if_neg (by simp [seqBefore_self])

theorem Port.endNaks_nakSeq_ne {f : Flit} {x : Port} (h : x.nakSeq ≠ some (flAck f)) : (x.endNaks f).nakSeq ≠ some (flAck f) := by
  unfold Port.endNaks
  split
  · split
    · exact nofun
    · exact h
  · exact h

theorem acknowledgementsReleaseFlits : Rules.AcknowledgementsReleaseFlits := by
  intro f beats x
  obtain ⟨hbuf, hresend, hreplays, hrx, htx, hst⟩ := Port.endNaks_frame f (x.released f)
  dsimp only
  rw [takeAck_eq]
  generalize hy : (x.released f).endNaks f = y at hbuf hresend hreplays hrx htx hst
  refine ⟨?_, ?_, ?_, ?_, fun hn => ?_, fun hn => ?_, fun hn hx => ?_⟩
  · split
    · exact hbuf
    · exact hbuf
  · split
    · exact hrx
    · exact hrx
  · split
    · exact htx
    · exact htx
  · split
    · exact hst
    · exact hst
  · rw [hn, Bool.false_and, if_neg Bool.false_ne_true, hreplays, hresend]
    simp [Port.released, hn, Word.satAdd_zero]
  · have hsum : (x.released f).replays = Word.satAdd x.replays 1 := by simp [Port.released, hn]
    split
    · exact hreplays.trans hsum
    · exact hreplays.trans hsum
  · have hnone : y.resend = [] := by rw [hresend]; simp [Port.released, hx]
    rw [hn, hnone]
    simp only [List.isEmpty_nil, Bool.and_self, if_true]
    refine ⟨rfl, rfl, fun hq => ?_, fun hq => ?_⟩
    · rw [← hy, Port.endNaks_of_same (x := x.released f) hq]
      simp [Port.resends, Port.released, hq]
    · have hne : y.nakSeq ≠ some (flAck f) := by rw [← hy]; exact Port.endNaks_nakSeq_ne (x := x.released f) hq
      simp [Port.resends, hne]

/-! ### Codewords (12 R312, R313) -/

theorem length_symPowers (n : Nat) (a : Sym) : (symPowers n a).length = n := by
  induction n generalizing a with
  | zero => rfl
  | succ n ih => rw [symPowers, List.length_cons, ih]

theorem length_polyTimes (p : List Sym) (a : Sym) : (polyTimes p a).length = p.length + 1 := by
  simp [polyTimes]

theorem length_rsGenerator : rsGenerator.length = 31 := by
  have hfold : ∀ (l : List Sym) (p : List Sym), (l.foldl polyTimes p).length = p.length + l.length := by
    intro l
    induction l with
    | nil => exact fun p => rfl
    | cons a l ih => intro p; rw [List.foldl_cons, ih, length_polyTimes, List.length_cons]; omega
  rw [rsGenerator, hfold, length_symPowers]
  rfl

theorem length_rsStep {r : List Sym} (h : r.length = 30) (d : Sym) : (rsStep rsGenerator r d).length = 30 := by
  simp [rsStep, h, length_rsGenerator]

theorem length_rsParity (data : List Sym) : (rsParity data).length = 30 := by
  have hfold : ∀ (l : List Sym) (r : List Sym), r.length = 30 → (l.foldl (rsStep rsGenerator) r).length = 30 := by
    intro l
    induction l with
    | nil => exact fun _ h => h
    | cons d l ih => exact fun r h => ih _ (length_rsStep h d)
  exact hfold data _ List.length_replicate

theorem length_codeword (second : Bool) (lanes : Nat) (bytes : List Byte) : (codeword second lanes bytes).length = 544 := by
  simp [codeword, length_rsParity, dataSymbols]

/-- The entries of a list whose places are one residue, from the first of them on. -/
theorem getElem?_zipIdx_filter_mod {α : Type} {n j : Nat} (l : List α) (c d i : Nat) (hd : d < n) (hj : (c + d) % n = j) :
    (((l.zipIdx c).filter (fun q => q.2 % n == j)).map (·.1))[i]? = l[d + i * n]? := by
  induction l generalizing c d i with
  | nil => simp
  | cons x l ih =>
    rw [List.zipIdx_cons]
    cases d with
    | zero =>
      have hhead : ((x, c).2 % n == j) = true := by simpa using hj
      rw [List.filter_cons_of_pos (p := fun q : α × Nat => q.2 % n == j) hhead, List.map_cons]
      cases i with
      | zero => simp
      | succ i =>
        have hnext : (c + 1 + (n - 1)) % n = j := by
          rw [show c + 1 + (n - 1) = c + n by omega, Nat.add_mod_right]
          exact hj
        rw [List.getElem?_cons_succ, ih (c + 1) (n - 1) i (by omega) hnext,
          show 0 + (i + 1) * n = (n - 1 + i * n) + 1 by rw [Nat.add_mul]; omega, List.getElem?_cons_succ]
    | succ d =>
      have hhead : ¬ ((x, c).2 % n == j) = true := by
        simp only [beq_iff_eq]
        intro hc
        have hdvd : n ∣ c + (d + 1) - c := Nat.dvd_of_mod_eq_zero (Nat.sub_mod_eq_zero_of_mod_eq (hj.trans hc.symm))
        rw [Nat.add_sub_cancel_left] at hdvd
        exact absurd (Nat.le_of_dvd (Nat.succ_pos d) hdvd) (by omega)
      rw [List.filter_cons_of_neg (p := fun q : α × Nat => q.2 % n == j) hhead, ih (c + 1) d i (by omega) (by rw [← hj]; congr 1; omega),
        show d + 1 + i * n = (d + i * n) + 1 by omega, List.getElem?_cons_succ]

theorem getElem?_dealt {n j : Nat} (h : j < n) (i : Nat) (syms : List Sym) :
    ((dealt n syms).getD j [])[i]? = syms[i * n + j]? := by
  rw [dealt, List.getD_eq_getElem?_getD, List.getElem?_map, List.getElem?_range h, Option.map_some, Option.getD_some,
    getElem?_zipIdx_filter_mod syms 0 j i h (by rw [Nat.zero_add, Nat.mod_eq_of_lt h]), Nat.add_comm]

/-- A port corrects a codeword of at most 15 wrong symbols. -/
theorem takeCodeword_of_le {x : Port} {errs : List Sym} (k beats : Nat) (h : (errPositions errs).length ≤ 15) :
    x.takeCodeword k errs beats =
      { x with fecCe := Word.satAdd x.fecCe (errPositions errs).length, cwBad := x.cwBad &&& ~~~(1#2 <<< k) } := if_pos h

theorem takeCodeword_of_lt {x : Port} {errs : List Sym} (k beats : Nat) (h : 15 < (errPositions errs).length) :
    x.takeCodeword k errs beats =
      { x with
        fecUe := Word.satAdd x.fecUe 1, cwBad := x.cwBad ||| (1#2 <<< k),
        ueLog := (beats, x.wrongLanes (errPositions errs)) :: x.ueLog.filter (fun q => decide (beats < q.1 + 1024)) } :=
  if_neg (Nat.not_le.2 h)

theorem codewordsAreSentAndCorrected : Rules.CodewordsAreSentAndCorrected := by
  refine ⟨fun x f => ⟨fun h => ?_, fun h => ?_⟩, length_codeword, fun n j i syms h => getElem?_dealt h i syms,
    fun x errs beats => ⟨?_, fun hpos => ⟨fun he => ?_, fun he => ?_⟩, fun h0 h2 => ?_⟩⟩
  · rw [Port.send]
    rw [if_pos (by simp; omega)]
    exact ⟨rfl, rfl⟩
  · rw [Port.send]
    rw [if_neg (by simp [h])]
    exact ⟨rfl, rfl⟩
  · have hkeep : ∀ k, (x.takeCodeword k errs beats).rxPos = x.rxPos := fun k => by
      unfold Port.takeCodeword; dsimp only; split <;> rfl
    rw [Port.takeFec]
    dsimp only
    split
    · rw [hkeep]
    · split
      · rw [hkeep]
      · rfl
  · obtain h | h := hpos
    · simp [Port.takeFec, h, takeCodeword_of_le _ _ he]
    · simp [Port.takeFec, h, takeCodeword_of_le _ _ he]
  · obtain h | h := hpos
    · simp [Port.takeFec, h, takeCodeword_of_lt _ _ he]
    · simp [Port.takeFec, h, takeCodeword_of_lt _ _ he]
  · rw [Port.takeFec]
    dsimp only
    rw [if_neg h0, if_neg h2]
    refine ⟨rfl, rfl, rfl, ?_⟩
    by_cases h : x.rxPos ≤ 2
    · have hlow : ¬ 2 ≤ x.rxPos := by omega
      simp [h, hlow]
    · have hhigh : 2 ≤ x.rxPos := by omega
      simp [h, hhigh]

/-- Settles O35: a flit's check, its ACK, and the codewords under it. -/
theorem flitsAreCheckedAndAcknowledged : Obligations.FlitsAreCheckedAndAcknowledged :=
  ⟨flitsAreCheckedOnReceipt, acknowledgementsReleaseFlits, codewordsAreSentAndCorrected⟩

end Sys2Proof.Machine

namespace Sys2Proof.Machine
open Sys2Proof

/-! ### Faults of a link (12 R318 to R323) -/

theorem State.port_of_ports {s u : State} (h : s.ports = u.ports) (p : PortId) : s.port p = u.port p := by
  unfold State.port; rw [h]

@[simp] theorem State.msixSend_port (s : State) (a b : Nat) (p : PortId) : (s.msixSend a b).port p = s.port p :=
  State.port_of_ports (by simp) p

@[simp] theorem State.port_portEvent (s : State) (p q : PortId) (b : Nat) :
    (s.portEvent p b).port q = if q = p then { s.port p with evt := (s.port p).evt.event b } else s.port q := by
  simp [State.portEvent]

/-- A lane lost: its mark and its event. -/
def State.loseLane (s : State) (p : PortId) (lane : BitVec 2) : State :=
  (s.setPort p { s.port p with lanesOk := (s.port p).lanesOk &&& ~~~(1#4 <<< lane.toNat) }).portEvent p 0

/-- What the loss of a lane in use leads to. -/
theorem badLane_eq {p : PortId} {lane : BitVec 2} {s : State} (hrun : (s.port p).running = true)
    (hlane : (s.port p).lanesOk.getLsbD lane.toNat = true) :
    badLane p lane s = if popCount ((s.port p).lanesOk &&& ~~~(1#4 <<< lane.toNat)).toNat 4 < 2
      then failPort p (s.loseLane p lane) else startTraining p (s.loseLane p lane) := by
  unfold badLane
  rw [if_pos ⟨hrun, hlane⟩]
  have hlanes : ((s.loseLane p lane).port p).lanesInUse = popCount ((s.port p).lanesOk &&& ~~~(1#4 <<< lane.toNat)).toNat 4 := by
    simp [State.loseLane, Port.lanesInUse]
  rw [← hlanes]
  rfl

theorem ueOver_eq (x : Port) (lane beats : Nat) : x.ueOver lane beats =
    decide (16 < (x.ueLog.filter (fun q => decide (beats < q.1 + 1024) && q.2.getLsbD lane)).length) := rfl

theorem linkFaultsRetrainOrFail : Rules.LinkFaultsRetrainOrFail := by
  intro s p
  refine ⟨fun hrun hlate => ?_, fun hn hnone => ?_, fun lane hrun hlane => ⟨fun hn => ⟨?_, fun hbad => ?_⟩, fun hn => ⟨?_, fun hbad => ?_⟩⟩,
    fun lane hbad => ?_, fun hst hfull => ⟨?_, fun bad hbad => ?_⟩, fun hst hn => ?_, fun hst hn => ?_, fun hrun hn => ?_,
    fun hrun hn => ?_⟩
  · rw [exec_replayTimeout, execReplayTimeout]
    refine if_pos ?_
    obtain hn | ⟨b, hb, hn⟩ := hlate
    · simp [hrun, hn]
    · simp [hrun, hb, hn]
  · rw [exec_replayTimeout, execReplayTimeout]
    simp [hnone, Nat.not_le.2 hn]
  · rw [exec_laneSignalLoss, execLaneSignalLoss, badLane_eq hrun hlane, if_neg (Nat.not_lt.2 hn)]
    rfl
  · rw [exec_laneUeThreshold, execLaneUeThreshold, ueOver_eq, if_pos (by simpa using hbad), badLane_eq hrun hlane,
      if_neg (Nat.not_lt.2 hn)]
    rfl
  · rw [exec_laneSignalLoss, execLaneSignalLoss, badLane_eq hrun hlane, if_pos hn]
    rfl
  · rw [exec_laneUeThreshold, execLaneUeThreshold, ueOver_eq, if_pos (by simpa using hbad), badLane_eq hrun hlane, if_pos hn]
    rfl
  · rw [exec_laneUeThreshold, execLaneUeThreshold, ueOver_eq, if_neg (by simpa using hbad)]
  · rw [exec_linkTrainingDone, execLinkTrainingDone]
    simp [hst, hfull, Port.lanesInUse, popCount]
  · rw [exec_linkTrainingDone, execLinkTrainingDone]
    have hne : ¬ ((0xF : BitVec 4) &&& ~~~bad = 0xF) := fun h =>
      absurd (show popCount ((0xF : BitVec 4) &&& ~~~bad).toNat 4 < 2 from hbad) (by rw [h]; decide)
    dsimp only
    rw [if_neg (by simpa using hst), hfull, if_pos rfl, if_neg hne, if_pos]
    · rfl
    · simp only [State.port_portEvent, if_true, State.port_setPort]
      exact hbad
  · exact if_pos ⟨hst, hn⟩
  · exact if_neg fun h => absurd h.2 (Nat.not_le.2 hn)
  · exact if_pos ⟨hrun, hn⟩
  · exact if_neg fun h => absurd h.2 (Nat.not_le.2 hn)

/-- A region when a port of it fails: what it holds for the port is dropped. -/
def Region.portFailed (p : PortId) (g : Region) : Region := if (g.lane p).isSome then
  { g with gateOut := Tab.put g.gateOut p.toNat [], inRows := g.inRows.filter (fun q => q.decl.isSome || q.port ≠ p) } else g

/-- A port when it fails. -/
def Port.emptied (x : Port) : Port :=
  { x.deskew with
    st := .failed, buf := [], resend := [], nak := false, nakSeq := none, nakCount := 0, replayAt := none, lanes := [],
    slot := 0, txSeq := 0, rxSeq := 0 }

/-- A port fails, but for its event. -/
def State.portEmptied (s : State) (p : PortId) : State :=
  { s.modPort p Port.emptied with
    regions := Tab.mapVals (fun _ g => g.portFailed p) s.regions, tiles := Tab.mapVals (fun _ x => x.dropItems p) s.tiles }

theorem failPort_eq (p : PortId) (s : State) : failPort p s = (s.portEmptied p).portEvent p 1 := rfl

theorem failPort_port (p q : PortId) (s : State) : (failPort p s).port q =
    if q = p then { (s.port p).emptied with evt := (s.port p).evt.event 1 } else s.port q := by
  have hport : ∀ q, (s.portEmptied p).port q = if q = p then (s.port p).emptied else s.port q := fun q =>
    State.port_modPort s p q _
  rw [failPort_eq, State.port_portEvent, hport, hport, if_pos rfl]
  split
  · rfl
  · rfl

theorem failPort_region (p : PortId) (s : State) (r : RegionId) : (failPort p s).region r = (s.region r).portFailed p := by
  rw [failPort_eq, State.region_of_regions (State.portEvent_regions _ _ _) r]
  exact Tab.get_mapVals (f := fun _ g => g.portFailed p) (d := Region.reset) (e := Region.reset) (fun _ => rfl) _ _

theorem failPort_tile (p : PortId) (s : State) (t : TileId) : (failPort p s).tile t = (s.tile t).dropItems p := by
  rw [failPort_eq, State.tile_of_tiles (State.portEvent_tiles _ _ _) t]
  exact Tab.get_mapVals (f := fun _ x => x.dropItems p) (d := Tile.reset) (e := Tile.reset) (fun _ => rfl) _ _

theorem failedPortsAreEmptied : Rules.FailedPortsAreEmptied := by
  intro s p r t
  dsimp only
  rw [failPort_port, if_pos rfl, failPort_region, failPort_tile]
  refine ⟨rfl, rfl, rfl, rfl, rfl, rfl, rfl, fun q hq => ?_, fun hlane => ?_, rfl, fun d hd hport => ?_, ?_⟩
  · rw [failPort_port, if_neg hq]
  · unfold Region.portFailed
    rw [if_pos (Option.isSome_iff_exists.2 hlane)]
    refine ⟨by simp, fun e he hport => ?_⟩
    simpa [hport] using (List.mem_filter.1 he).2
  · obtain ⟨c, _, rfl⟩ := List.mem_map.1 hd
    split at hport
    · cases hport
    · next h =>
      rw [if_neg h]
      simpa [hport] using h
  · rw [failPort_eq, State.portEvent_mem]
    rfl

/-- Settles O36: a link that is lost trains again, or fails with what it held. -/
theorem linkFaultsRetrainOrEmptyThePort : Obligations.LinkFaultsRetrainOrEmptyThePort :=
  ⟨linkFaultsRetrainOrFail, failedPortsAreEmptied⟩

end Sys2Proof.Machine

namespace Sys2Proof.Machine
open Sys2Proof

/-! ### The mailboxes (17 R422 to R428) -/

@[simp] theorem State.mail_modMail (s : State) (f k : Nat) (g : Mailbox → Mailbox) :
    (s.modMail f g).mail k = if k = f then g (s.mail f) else s.mail k := by
  simp [State.mail, State.modMail]

@[simp] theorem State.region_modMail (s : State) (f : Nat) (g : Mailbox → Mailbox) (r : RegionId) :
    (s.modMail f g).region r = s.region r := rfl

@[simp] theorem State.vfOn_modMail (s : State) (f : Nat) (g : Mailbox → Mailbox) (r : RegionId) :
    (s.modMail f g).vfOn r = s.vfOn r := rfl

theorem State.mail_of_hub_mail {s u : State} (h : s.hub.mail = u.hub.mail) (k : Nat) : s.mail k = u.mail k := by
  unfold State.mail; rw [h]

@[simp] theorem State.msixSend_hub_mail (s : State) (a b : Nat) : (s.msixSend a b).hub.mail = s.hub.mail := by
  unfold State.msixSend; split <;> rfl

@[simp] theorem State.msixSend_hub_evt (s : State) (a b : Nat) : (s.msixSend a b).hub.evt = s.hub.evt := by
  unfold State.msixSend; split <;> rfl

@[simp] theorem State.msixSend_mail (s : State) (a b k : Nat) : (s.msixSend a b).mail k = s.mail k :=
  State.mail_of_hub_mail (by simp) k

/-- A doorbell that passes the checks of its mailbox, by the function that rings it. -/
theorem mailCommand_pf {op : Nat} {scope : Scope} {named : List (Nat × Nat)} {rg : RegionId} {tag : BitVec 16} {a : ArgBlock}
    {body : Call → State → State} {s : State} (hready : s.resets.ready = true) (hbusy : (s.mail 0).busy = false) :
    mailCommand op scope named noHref .pf rg tag a body s =
      if s.hub.fwState ≠ 2 then (s.rung op .pf rg tag a).done 0 eState
      else if scope = .r ∧ (s.region rg).st ≠ .granted then (s.rung op .pf rg tag a).done 0 eState
      else if blkZero a named = false ∨ (rg ≠ 0 ∧ (scope = .d ∨ scope = .f)) then (s.rung op .pf rg tag a).done 0 eBadarg
      else body { fn := .pf, f := 0, r := rg, a := a } (s.rung op .pf rg tag a) := by
  unfold mailCommand
  dsimp only [fnNo, noHref]
  rw [if_neg (by simp [hready]), if_neg (by simp [hbusy])]
  simp only [Bool.false_eq_true, false_and, or_false, false_or, if_false, State.region_modMail]
  rfl

theorem mailCommand_vf {op : Nat} {scope : Scope} {named : List (Nat × Nat)} {rg n : RegionId} {tag : BitVec 16} {a : ArgBlock}
    {body : Call → State → State} {s : State} (hready : s.resets.ready = true) (hon : s.vfOn n = true)
    (hbusy : (s.mail (1 + n.toNat)).busy = false) :
    mailCommand op scope named noHref (.vf n) rg tag a body s =
      if s.hub.fwState ≠ 2 then (s.rung op (.vf n) rg tag a).done (1 + n.toNat) eState
      else if scope = .d ∨ scope = .p then (s.rung op (.vf n) rg tag a).done (1 + n.toNat) eBadop
      else if (s.region n).st ≠ .granted then (s.rung op (.vf n) rg tag a).done (1 + n.toNat) eState
      else if blkZero a named = false ∨ rg ≠ 0 then (s.rung op (.vf n) rg tag a).done (1 + n.toNat) eBadarg
      else body { fn := .vf n, f := 1 + n.toNat, r := n, a := a } (s.rung op (.vf n) rg tag a) := by
  unfold mailCommand
  dsimp only [fnNo, noHref]
  rw [if_neg (by simp [hready, hon]), if_neg (by simp [hbusy])]
  simp only [true_and, true_or, or_true, and_true, State.region_modMail]
  rfl

theorem mailCommand_of_closed {op : Nat} {scope : Scope} {named : List (Nat × Nat)} {fn : Fn} {rg : RegionId} {tag : BitVec 16}
    {a : ArgBlock} {body : Call → State → State} {s : State}
    (h : s.resets.ready = false ∨ ∃ n, fn = .vf n ∧ s.vfOn n = false) :
    mailCommand op scope named noHref fn rg tag a body s = s := by
  unfold mailCommand
  refine if_pos ?_
  obtain h | ⟨n, rfl, h⟩ := h
  · exact .inl h
  · exact .inr ⟨rfl, h⟩

theorem mailCommand_of_busy {op : Nat} {scope : Scope} {named : List (Nat × Nat)} {fn : Fn} {rg : RegionId} {tag : BitVec 16}
    {a : ArgBlock} {body : Call → State → State} {s : State} (hready : s.resets.ready = true)
    (hon : ∀ n, fn = .vf n → s.vfOn n = true) (hbusy : (s.mail (fnNo fn)).busy = true) :
    mailCommand op scope named noHref fn rg tag a body s = s.modMail (fnNo fn) (fun m => { m with dropped := true }) := by
  unfold mailCommand
  cases fn with
  | pf => simp [hready, hbusy]
  | vf n => simp [hready, hbusy, hon n rfl]

theorem doorbellsAreCheckedInOrder : Rules.DoorbellsAreCheckedInOrder := by
  intro s op scope named fn rg tag a body
  refine ⟨fun h => mailCommand_of_closed h, fun ⟨hready, hon⟩ hbusy => mailCommand_of_busy hready hon hbusy,
    fun ⟨hready, hon⟩ hbusy => ?_, fun ⟨hready, hfw, hbusy, hzero, hrg, hst, hvf⟩ => ?_⟩
  · cases fn with
    | pf =>
      rw [mailCommand_pf hready hbusy]
      refine ⟨fun hfw => if_pos hfw, fun _ h => absurd h (by simp), fun hfw hscope hst => ?_, fun hfw _ hscope hz => ?_⟩
      · rw [if_neg (by simp [hfw]), if_pos ⟨hscope, hst⟩]
        rfl
      · rw [if_neg (by simp [hfw]), if_neg (fun h => hscope h.1), if_pos (.inl hz)]
        rfl
    | vf n =>
      rw [mailCommand_vf hready (hon n rfl) hbusy]
      refine ⟨fun hfw => if_pos hfw, fun hfw _ hscope => ?_, fun hfw hscope hst => ?_, fun _ h => absurd h (by simp)⟩
      · rw [if_neg (by simp [hfw]), if_pos hscope]
        rfl
      · rw [if_neg (by simp [hfw]), if_neg (by simp [hscope]), if_pos (show (s.region n).st ≠ .granted from hst)]
        rfl
  · cases fn with
    | pf =>
      rw [mailCommand_pf hready hbusy, if_neg (by simp [hfw]), if_neg (fun h => h.2 (hst h.1)), if_neg]
      · rfl
      · rintro (h | ⟨h, hscope⟩)
        · exact absurd (hzero.symm.trans h) (by simp)
        · exact h (hrg hscope)
    | vf n =>
      obtain ⟨hscope, hzrg, hon, hgranted⟩ := hvf n rfl
      rw [mailCommand_vf hready hon hbusy, if_neg (by simp [hfw]), if_neg, if_neg (by simp [hgranted]), if_neg (by simp [hzero, hzrg])]
      · rfl
      · rintro (h | h) <;> simp [h] at hscope

/-- A completion of a mailbox that is busy. -/
theorem State.done_of_busy {s : State} {f : Nat} (h : (s.mail f).busy = true) (code : Nat) :
    ∃ v : State, v = (s.draw 128).2.modMail f (fun m => { m with
        res := (s.draw 128).1, code := BitVec.ofNat 8 code, tag := m.curTag, busy := false }) ∧
      s.done f code = if f = 0 then v.hubEvent 0 else v.mbxDoneVf (BitVec.ofNat 6 (f - 1)) := by
  refine ⟨_, rfl, ?_⟩
  rw [State.done, State.complete, if_neg (by simp [h])]

theorem commandsComplete : Rules.CommandsComplete := by
  intro s f code hbusy
  obtain ⟨v, hv, hdone⟩ := State.done_of_busy hbusy code
  have hmail : ∀ k, v.mail k = if k = f then { s.mail f with
      res := (s.draw 128).1, code := BitVec.ofNat 8 code, tag := (s.mail f).curTag, busy := false } else s.mail k := by
    intro k
    rw [hv, State.mail_modMail]
    rfl
  have hdoneMail : ∀ k, (s.done f code).mail k = v.mail k := by
    intro k
    rw [hdone]
    split
    · exact (State.msixSend_mail _ _ _ k).trans rfl
    · exact (State.msixSend_mail _ _ _ k).trans rfl
  have hregion : ∀ q, v.region q = s.region q := by rw [hv]; exact fun _ => rfl
  dsimp only
  rw [hdoneMail, hmail, if_pos rfl]
  refine ⟨rfl, rfl, rfl, rfl, ?_, ?_, ?_, ?_, fun k hk => ?_, fun hf => ?_, fun r hf => ?_⟩
  · rw [hdone, hv]; split <;> simp [State.modMail, State.draw]
  · rw [hdone, hv]; split <;> simp [State.modMail, State.draw]
  · rw [hdone, hv]; split <;> simp [State.modMail, State.draw]
  · rw [hdone, hv]; split <;> simp [State.modMail, State.draw]
  · rw [hdoneMail, hmail, if_neg hk]
  · rw [hdone, if_pos hf]
    exact ⟨by simp [State.hubEvent, hv, State.modMail, State.draw], by simp [hv, State.modMail, State.draw]⟩
  · have hr : BitVec.ofNat 6 (f - 1) = r := by rw [hf, Nat.add_sub_cancel_left, BitVec.ofNat_toNat, BitVec.setWidth_eq]
    have hdoneRegion : ∀ q, (s.done f code).region q = if q = r then
        { s.region r with evtVf := (s.region r).evtVf.event 0 } else s.region q := by
      intro q
      rw [hdone, if_neg (by omega), hr, State.mbxDoneVf, State.msixSend_region, State.region_modRegion, hregion, hregion]
    rw [hdoneRegion, if_pos rfl]
    exact ⟨rfl, rfl, rfl, fun q hq => by rw [hdoneRegion, if_neg hq]⟩

/-- Settles O46: the checks of a doorbell in turn, and a completion by its function. -/
theorem mailboxDoorbellsAndCompletions : Obligations.MailboxDoorbellsAndCompletions :=
  ⟨doorbellsAreCheckedInOrder, commandsComplete⟩

end Sys2Proof.Machine

namespace Sys2Proof.Machine
open Sys2Proof

/-! ### Slot operations without an effect (02 R47 to R50; 03 R105) -/

/-- A command is the slot operation of its slot and code. -/
def IsSlotOp (q : Slot × Nat × (TileId → SlotWord → Instr)) : Prop :=
  ∀ t w s, ∃ enc act, exec (q.2.2 t w) s = .next (slotOp q.1 q.2.1 t w enc act s)

theorem slotCommands_isSlotOp : ∀ q ∈ slotCommands, IsSlotOp q := by
  simp only [slotCommands, List.cons_append, List.nil_append, List.forall_mem_cons, List.not_mem_nil, false_implies,
    implies_true, and_true]
  repeat' apply And.intro
  all_goals exact fun t w s => ⟨_, _, rfl⟩

/-- A word whose code another operation has does not fit. -/
theorem fits_of_other {slot : Slot} {op : Nat} {w : SlotWord} (h : opOf w ≠ op) (hd : (decodeOp slot (opOf w)).isSome = true) :
    fits slot op w = false := by
  obtain ⟨c, hc⟩ := Option.isSome_iff_exists.1 hd
  simp [fits, h, hc]

@[simp] theorem Ctl.noteSlot_pc (c : Ctl) (slot : Slot) (mode : BundleMode) : (c.noteSlot slot mode).pc = c.pc := rfl

theorem State.opened_bundle {s : State} {r : RegionId} {t : TileId}
    (h : ((s.opened r t).tile t).ctl.bundle.map (·.mode) = some .live) :
    ∃ b, ((s.opened r t).tile t).ctl.bundle = some b ∧ b.mode = .live := by
  simpa [Option.map_eq_some_iff] using h

@[simp] theorem State.undoBundle_bundle (s : State) (r : RegionId) (t : TileId) :
    ((s.undoBundle r t).tile t).ctl.bundle = (s.tile t).ctl.bundle := by
  simp [State.undoBundle]

/-- Where the bundle is not open any more, the S slot only closes it. -/
theorem closeBundle_of_void {i : Site} {flow : Flow} {s : State} {b : OpenBundle} (hb : (s.tile i.t).ctl.bundle = some b)
    (hm : b.mode = .void) : closeBundle i flow s = s.core i.t (fun c => { c with bundle := none }) := by
  refine congrArg (fun c => s.setTile i.t { s.tile i.t with ctl := c }) ?_
  dsimp only
  rw [hb]
  dsimp only
  rw [hm]

section
variable {s : State} {t : TileId} {w : SlotWord} {r : RegionId} {slot : Slot} {op : Nat}
  {enc : Site → State → Option (Nat × Nat)} {act : Site → State → Act} (hmay : s.mayIssue t slot w = some r)
  (hlive : ((s.opened r t).tile t).ctl.bundle.map (·.mode) = some .live) (hfit : fits slot op w = true)
include hmay hlive hfit

/-- A word with a wrong encoding faults whatever its guard, and everything its bundle did is taken back. -/
theorem slotOp_of_illegal (he : enc ((s.opened r t).site r slot t w) (s.opened r t) = illegal w) :
    slotOp slot op t w enc act s =
      (if slot = .s then
        ((((s.opened r t).undoBundle r t).core t (fun c => c.noteSlot slot .void)).raise r (some t)
          (some (slot, ((s.opened r t).tile t).ctl.pc)) fIllegalOp w.toNat).core t (fun c => { c with bundle := none })
      else (((s.opened r t).undoBundle r t).core t (fun c => c.noteSlot slot .void)).raise r (some t)
        (some (slot, ((s.opened r t).tile t).ctl.pc)) fIllegalOp w.toNat) := by
  obtain ⟨b, hb, hmode⟩ := State.opened_bundle hlive
  have hact : slotAct enc act ((s.opened r t).site r slot t w) (s.opened r t) = .fault (s.opened r t) fIllegalOp w.toNat := by
    simp [slotAct, he, illegal]
  unfold slotOp
  rw [if_neg (by simp [hfit]), hmay]
  dsimp only
  rw [hb, hact]
  dsimp only
  rw [hmode]
  refine ite_congr rfl (fun _ => closeBundle_of_void (b := { b with slots := slot :: b.slots, mode := .void }) ?_ rfl) fun _ => rfl
  change ((((s.opened r t).undoBundle r t).core t (fun c => c.noteSlot slot .void)).raise r (some t)
    (some (slot, ((s.opened r t).tile t).ctl.pc)) fIllegalOp w.toNat |>.tile t).ctl.bundle = _
  rw [State.raise_tile, if_pos rfl, State.core_tile_ctl]
  simp [Ctl.noteSlot, hb]

/-- A legal word under a false guard has no effect, and its slot counts as issued. -/
theorem slotOp_of_guard_false (hg : ((s.opened r t).tile t).ctl.guard w = false)
    (he : enc ((s.opened r t).site r slot t w) (s.opened r t) = none) :
    slotOp slot op t w enc act s = (s.opened r t).issued r t slot .seq := by
  obtain ⟨b, hb, hmode⟩ := State.opened_bundle hlive
  have hact : slotAct enc act ((s.opened r t).site r slot t w) (s.opened r t) = .done (s.opened r t) .seq := by
    simp [slotAct, he, hg]
  unfold slotOp
  rw [if_neg (by simp [hfit]), hmay]
  dsimp only
  rw [hb, hact]
  dsimp only
  rw [hmode]
  by_cases hs : slot = .s
  · subst hs
    rw [if_pos rfl]
    have hafter := Ctl.after_s ((s.opened r t).tile t).ctl b .seq ((s.opened r t).region r).cycle hb
    simp only [settleSlot, closeBundle, Site.ctl, State.site, State.modTile_modTile, Act.flow, State.issued]
    exact congrArg (fun c => (s.opened r t).setTile t { (s.opened r t).tile t with ctl := c }) hafter
  · rw [if_neg hs]
    simp only [State.issued, Ctl.after, if_neg hs]
    rfl

end

/-- A word no operation spells is left to NOP. -/
theorem fits_nop_of_none {slot : Slot} {w : SlotWord} (hd : decodeOp slot (opOf w) = none) : fits slot 0 w = true := by
  simp [fits, hd]

/-- An encoding that is not legal faults with its word. -/
theorem encoding_of_not {op : Nat} {w : SlotWord} {ok : Bool} (h : opOf w ≠ op ∨ ok = false) : encoding op w ok = illegal w := by
  refine if_neg ?_
  rintro ⟨ho, hk⟩
  rcases h with h | h
  · exact h ho
  · simp [h] at hk

/-- A bit that must be zero and is not. -/
theorem zeroAt_of_ne {w : SlotWord} {lo n : Nat} (h : Word.bits w lo n ≠ 0) : zeroAt w lo n = false := by
  simpa [zeroAt] using h

/-- Bits that must be zero and are. -/
theorem zeroAt_of_eq {w : SlotWord} {lo n : Nat} (h : Word.bits w lo n = 0) : zeroAt w lo n = true := by
  simp [zeroAt, h]

/-- A reserved FN of ALU has no function. -/
theorem aluOp_isSome_of_reserved {fn : Nat} (h : 0x0E ≤ fn) : (aluOp fn 0 0).isSome = false := by
  rw [aluOp_of_reserved fn 0 0 h]; rfl

/-- A slot that may not issue, and a word another operation spells, do nothing. -/
theorem slotCommands_do_nothing : ∀ q ∈ slotCommands, ∀ (s : State) (t : TileId) (w : SlotWord),
    (s.mayIssue t q.1 w = none → exec (q.2.2 t w) s = .next s) ∧
    (opOf w ≠ q.2.1 → (decodeOp q.1 (opOf w)).isSome = true → exec (q.2.2 t w) s = .next s) := by
  intro q hq s t w
  obtain ⟨enc, act, he⟩ := slotCommands_isSlotOp q hq t w s
  rw [he]
  exact ⟨fun h => congrArg _ (slotOp_idle _ _ _ _ _ _ _ h), fun h hd => congrArg _ (slotOp_unfit _ _ _ _ _ _ _ (fits_of_other h hd))⟩

theorem wrongWordsFault : Rules.WrongWordsFault := by
  refine ⟨slotCommands_do_nothing, fun s slot t w r hmay hlive => ⟨fun h0 hd => ?_, ?_, ?_, ?_, ?_, ?_, ?_⟩⟩
  · exact congrArg Host.Outcome.next
      (slotOp_of_illegal (op := 0x00) hmay hlive (fits_nop_of_none hd) (encoding_of_not (.inl h0)))
  · rintro rfl ho hfn
    exact congrArg Host.Outcome.next
      (slotOp_of_illegal (op := 0x01) hmay hlive (ho ▸ fits_opOf .s w) (encoding_of_not (.inr (aluOp_isSome_of_reserved hfn))))
  · rintro rfl ho hz
    exact congrArg Host.Outcome.next
      (slotOp_of_illegal (op := 0x28) hmay hlive (ho ▸ fits_opOf .s w) (encoding_of_not (.inr (by rw [State.site, zeroAt_of_ne hz]; rfl))))
  · rintro rfl ho hz
    exact congrArg Host.Outcome.next
      (slotOp_of_illegal (op := 0x01) hmay hlive (ho ▸ fits_opOf .m w) (encoding_of_not (.inr (zeroAt_of_ne hz))))
  · rintro rfl ho hz
    exact congrArg Host.Outcome.next
      (slotOp_of_illegal (op := 0x04) hmay hlive (ho ▸ fits_opOf .v w) (encoding_of_not (.inr (zeroAt_of_ne hz))))
  · rintro rfl ho hz
    exact congrArg Host.Outcome.next
      (slotOp_of_illegal (op := 0x06) hmay hlive (ho ▸ fits_opOf .x w) (encoding_of_not (.inr (zeroAt_of_ne hz))))
  · rintro rfl ho hz
    exact congrArg Host.Outcome.next
      (slotOp_of_illegal (op := 0x22) hmay hlive (ho ▸ fits_opOf .x w) (encoding_of_not (.inr (zeroAt_of_ne hz))))

theorem falseGuardsHaveNoEffect : Rules.FalseGuardsHaveNoEffect := by
  refine fun s slot t w r hmay hlive hg => ⟨?_, ?_, ?_, ?_, ?_, ?_, ?_, ?_⟩
  · rintro rfl ho
    exact congrArg Host.Outcome.next
      (slotOp_of_guard_false (op := 0x02) hmay hlive (ho ▸ fits_opOf .s w) hg (encoding_of_ok ho rfl))
  · rintro rfl ho hfn
    exact congrArg Host.Outcome.next
      (slotOp_of_guard_false (op := 0x01) hmay hlive (ho ▸ fits_opOf .s w) hg (encoding_of_ok ho ((aluOp_isSome_iff _ _ _).2 hfn)))
  · rintro rfl ho
    exact congrArg Host.Outcome.next
      (slotOp_of_guard_false (op := 0x1F) hmay hlive (ho ▸ fits_opOf .s w) hg (encoding_of_ok ho rfl))
  · rintro rfl ho hz hn
    exact congrArg Host.Outcome.next
      (slotOp_of_guard_false (op := 0x28) hmay hlive (ho ▸ fits_opOf .s w) hg
        (encoding_of_ok ho (by rw [State.site, zeroAt_of_eq hz, zeroAt_of_ne hn]; rfl)))
  · rintro rfl ho hz
    exact congrArg Host.Outcome.next
      (slotOp_of_guard_false (op := 0x01) hmay hlive (ho ▸ fits_opOf .m w) hg (encoding_of_ok ho (zeroAt_of_eq hz)))
  · rintro rfl ho hz
    exact congrArg Host.Outcome.next
      (slotOp_of_guard_false (op := 0x04) hmay hlive (ho ▸ fits_opOf .v w) hg (encoding_of_ok ho (zeroAt_of_eq hz)))
  · rintro rfl ho hz
    exact congrArg Host.Outcome.next
      (slotOp_of_guard_false (op := 0x06) hmay hlive (ho ▸ fits_opOf .x w) hg (encoding_of_ok ho (zeroAt_of_eq hz)))
  · rintro rfl ho hz
    exact congrArg Host.Outcome.next
      (slotOp_of_guard_false (op := 0x22) hmay hlive (ho ▸ fits_opOf .x w) hg (encoding_of_ok ho (zeroAt_of_eq hz)))

/-- Settles O54: a command is the slot operation of its code, whose encoding is looked at before its guard. -/
theorem operationsThatHaveNoEffect : Obligations.OperationsThatHaveNoEffect := ⟨wrongWordsFault, falseGuardsHaveNoEffect⟩

end Sys2Proof.Machine

namespace Sys2Proof.Machine
open Sys2Proof

/-! ### Slot operations with an effect of their own (02 R49, R61) -/

/-- A slot operation whose effect leaves the bundle open and the region cycle as it is. -/
theorem slotOp_seq {s a : State} {slot : Slot} {t : TileId} {w : SlotWord} {r : RegionId} {op : Nat}
    {enc : Site → State → Option (Nat × Nat)} {act : Site → State → Act} (h : Issues s slot t w r) (ho : opOf w = op)
    (he : enc ((s.opened r t).site r slot t w) (s.opened r t) = none)
    (ha : act ((s.opened r t).site r slot t w) (s.opened r t) = .ok a)
    (hb : (a.tile t).ctl.bundle = ((s.opened r t).tile t).ctl.bundle)
    (hc : (a.region r).cycle = ((s.opened r t).region r).cycle) :
    slotOp slot op t w enc act s = a.issued r t slot .seq :=
  slotOp_done slot op t w enc act s a r .seq (ho ▸ fits_opOf slot w) h he ha hb hc

/-- A slot operation whose effect is on its tile alone, the open bundle apart. -/
theorem slotOp_tile {s : State} (f : Tile → Tile) {slot : Slot} {t : TileId} {w : SlotWord} {r : RegionId} {op : Nat}
    {enc : Site → State → Option (Nat × Nat)} {act : Site → State → Act} (h : Issues s slot t w r) (ho : opOf w = op)
    (he : enc ((s.opened r t).site r slot t w) (s.opened r t) = none)
    (ha : act ((s.opened r t).site r slot t w) (s.opened r t) = .ok ((s.opened r t).modTile t f))
    (hf : (f ((s.opened r t).tile t)).ctl.bundle = ((s.opened r t).tile t).ctl.bundle) :
    slotOp slot op t w enc act s = ((s.opened r t).modTile t f).issued r t slot .seq :=
  slotOp_seq h ho he ha (by simpa using hf) rfl

/-! ### MFC and MTC -/

/-- Where no asynchronous job is in flight, none holds a scoreboard entry. -/
theorem Tile.asyncEntry_of_none {x : Tile} (h : x.vec.asyncs = []) (b : Bool) : x.asyncEntry b = none := by
  simp [Tile.asyncEntry, h]

@[simp] theorem Tile.before_vec (x : Tile) (n : Nat) : (x.before n).vec = x.vec := rfl

@[simp] theorem cregLatch_bundle (g : Region) (p : DWord) (n : Nat) (x : Tile) : (cregLatch g p n x).ctl.bundle = x.ctl.bundle := by
  unfold cregLatch
  split
  · rfl
  · split <;> rfl

@[simp] theorem cregWrite_bundle (now : Nat) (p : DWord) (n : Nat) (v : Word) (x : Tile) :
    (cregWrite now p n v x).ctl.bundle = x.ctl.bundle := by
  unfold cregWrite
  split <;> rfl

@[simp] theorem State.parityClean_tile (s : State) (p : ParityHit → Bool) (t : TileId) : (s.parityClean p).tile t = s.tile t := rfl

@[simp] theorem State.parityClean_region (s : State) (p : ParityHit → Bool) (r : RegionId) :
    (s.parityClean p).region r = s.region r := rfl

/-- No asynchronous job makes the read wait where none is in flight, or where the register is none that waits. -/
theorem mfc_wait_none {x : Tile} {n : Nat} (h : x.vec.asyncs = [] ∨ cregHeadroom n = false ∧ cregSummary n = false) :
    (if cregHeadroom n then x.asyncEntry false else if cregSummary n then x.asyncEntry true else none) = none := by
  rcases h with h | ⟨hh, hs⟩
  · simp [Tile.asyncEntry_of_none h]
  · simp [hh, hs]

/-- Settles O9: the read latches and writes its register; the write first makes the hidden parity agree. -/
theorem controlRegistersAreReadAndWritten : Obligations.ControlRegistersAreReadAndWritten := by
  unfold Obligations.ControlRegistersAreReadAndWritten
  intro s t w r h
  refine ⟨fun ho hd hz hw => ?_, fun ho hd hz hl => ?_⟩
  · refine congrArg Host.Outcome.next (slotOp_seq (op := 0x18) h ho (encoding_of_ok ho ?_) ?_ ?_ rfl)
    · simp [hd, zeroAt, hz]
    · dsimp only
      split
      · next e he => exact nomatch he.symm.trans (mfc_wait_none hw)
      · rfl
    · simp
  · refine congrArg Host.Outcome.next (slotOp_seq (op := 0x19) h ho (encoding_of_ok ho ?_) ?_ ?_ rfl)
    · simp [hd, zeroAt, hz]
    · exact if_neg (by simpa using hl)
    · simp

end Sys2Proof.Machine

namespace Sys2Proof.Machine
open Sys2Proof

/-! ### Sync operations and unit registers (10 R252; 05 R144; 07 R189; 09 R230; 11 R300) -/

/-- The object an operation names is the region's own, and its block is not stale. -/
theorem ownCheck_of_own {i : Site} {s : State} {o : BitVec 16} (k : Unit → Act)
    (h : (s.region i.r).ownsObj o.toNat = true ∧ s.stale 2 (o.toNat / 256) = false) : ownCheck i s o k = k () := by
  simp [ownCheck, h.1, h.2]

theorem noSplit_of_none {i : Site} {s : State} {o : BitVec 16} (k : Unit → Act) (h : (s.tile i.t).split = none) :
    noSplit i s o k = k () := by
  simp [noSplit, h]

@[simp] theorem sendSync_tile (i : Site) (o : BitVec 16) (k : SyncKind) (s : State) (t : TileId) :
    (sendSync i o k s).tile t = s.tile t := rfl

@[simp] theorem sendSync_cycle (i : Site) (o : BitVec 16) (k : SyncKind) (s : State) (r : RegionId) :
    ((sendSync i o k s).region r).cycle = (s.region r).cycle := by
  rw [sendSync, State.region_modRegion]
  split
  · next h => rw [h]
  · rfl

@[simp] theorem waitAs_bundle (i : Site) (run : Run) (s : State) (t : TileId) :
    ((waitAs i run s).tile t).ctl.bundle = (s.tile t).ctl.bundle := by
  rw [waitAs, Site.ctl, State.tile_modTile]
  split
  · next h => rw [h]
  · rfl

@[simp] theorem waitAs_region (i : Site) (run : Run) (s : State) (r : RegionId) : (waitAs i run s).region r = s.region r := rfl

/-- Settles O11: the checks pass, and the operation joins those on their way. -/
theorem syncOperationsReachTheirObject : Obligations.SyncOperationsReachTheirObject := by
  unfold Obligations.SyncOperationsReachTheirObject
  intro s t w r h
  refine ⟨fun ho hz hn hm => ?_, fun ho hz hn hm => ?_, fun ho hz hn hm => ?_, fun ho hz hm => ?_, fun ho hz hn hm hs => ?_,
    fun ho hz hn hm hs => ?_, fun q rest ho hz hz' hn hs => ?_, fun ho hz hn hm => ?_⟩
  · exact congrArg Host.Outcome.next (slotOp_seq (op := 0x28) h ho (encoding_of_ok ho (by simp [zeroAt, hz, hn]))
      (ownCheck_of_own _ hm) rfl (by simp))
  · exact congrArg Host.Outcome.next (slotOp_seq (op := 0x29) h ho (encoding_of_ok ho (by simp [zeroAt, hz, hn]))
      (ownCheck_of_own _ hm) rfl (by simp))
  · exact congrArg Host.Outcome.next (slotOp_seq (op := 0x2A) h ho (encoding_of_ok ho (by simp [zeroAt, hz, hn]))
      (ownCheck_of_own _ hm) (by simp) (by simp))
  · exact congrArg Host.Outcome.next (slotOp_seq (op := 0x2B) h ho (encoding_of_ok ho (by simp [zeroAt, hz]))
      (ownCheck_of_own _ hm) rfl (by simp))
  · exact congrArg Host.Outcome.next (slotOp_seq (op := 0x2C) h ho (encoding_of_ok ho (by simp [zeroAt, hz, hn]))
      ((ownCheck_of_own _ hm).trans (noSplit_of_none _ hs)) (by simp)
      (by simp))
  · exact congrArg Host.Outcome.next (slotOp_seq (op := 0x2D) h ho (encoding_of_ok ho (by simp [zeroAt, hz, hn]))
      ((ownCheck_of_own _ hm).trans (noSplit_of_none _ hs)) (by simp) (by simp))
  · refine congrArg Host.Outcome.next (slotOp_seq (op := 0x2E) h ho (encoding_of_ok ho (by simp [zeroAt, hz, hz', hn])) ?_
      (by simp) (by simp))
    dsimp only
    rw [State.site_t, hs]
    rfl
  · exact congrArg Host.Outcome.next (slotOp_seq (op := 0x2F) h ho (encoding_of_ok ho (by simp [zeroAt, hz, hn]))
      (ownCheck_of_own _ hm) rfl (by simp))

/-- Settles O12: each writes its own register. -/
theorem unitRegistersAreLoaded : Obligations.UnitRegistersAreLoaded := by
  unfold Obligations.UnitRegistersAreLoaded
  intro s t w r
  refine ⟨fun h ho hw hz => ?_, fun h ho hw hz => ?_, fun h ho hw hz => ?_, fun h ho hz => ?_, fun h ho hw hz => ?_,
    fun h ho hw hz => ?_, fun h ho hz => ?_, fun h ho hz => ?_, fun h ho hw hz => ?_⟩
  · exact congrArg Host.Outcome.next (slotOp_seq (op := 0x03) h ho (encoding_of_ok ho (by simp [zeroAt, hw, hz])) rfl (by simp) rfl)
  · exact congrArg Host.Outcome.next (slotOp_seq (op := 0x01) h ho (encoding_of_ok ho (by simp [zeroAt, hw, hz])) rfl (by simp) rfl)
  · exact congrArg Host.Outcome.next (slotOp_seq (op := 0x02) h ho (encoding_of_ok ho (by simp [zeroAt, hw, hz])) rfl (by simp) rfl)
  · exact congrArg Host.Outcome.next (slotOp_seq (op := 0x06) h ho (encoding_of_ok ho (by simp [zeroAt, hz])) rfl (by simp) rfl)
  · exact congrArg Host.Outcome.next (slotOp_seq (op := 0x01) h ho (encoding_of_ok ho (by simp [zeroAt, hw, hz])) rfl (by simp) rfl)
  · exact congrArg Host.Outcome.next (slotOp_seq (op := 0x02) h ho (encoding_of_ok ho (by simp [zeroAt, hw, hz])) rfl (by simp) rfl)
  · exact congrArg Host.Outcome.next (slotOp_seq (op := 0x06) h ho (encoding_of_ok ho (by simp [zeroAt, hz])) rfl (by simp) rfl)
  · exact congrArg Host.Outcome.next (slotOp_seq (op := 0x07) h ho (encoding_of_ok ho (by simp [zeroAt, hz])) rfl rfl (by simp))
  · exact congrArg Host.Outcome.next (slotOp_seq (op := 0x10) h ho (encoding_of_ok ho (by simp [zeroAt, hw, hz])) rfl (by simp) rfl)

end Sys2Proof.Machine

namespace Sys2Proof.Machine
open Sys2Proof

/-! ### Rows, NOP, END and CQRD (02 R52, R62; 10 R277) -/

/-- No entry that was busy bars the one row. -/
theorem rowCheck_of_free {i : Site} {s : State} {row : Nat} {write : Bool} (k : Unit → Act) (h : s.rowFree i.t row write) :
    rowCheck i s [(row, write)] k = k () := by
  simp [rowCheck, h]

theorem channelPhase_of_compute {i : Site} {s : State} (k : Unit → Act) (h : (s.region i.r).inExchange = false) :
    channelPhase i s k = k () := by
  simp [channelPhase, h]

theorem readRowFault_of_lt {row : Nat} (h : row < 768) : readRowFault row = none := if_pos h

theorem writeRowFault_of_lt {row : Nat} (h : row < 768) : writeRowFault row = none := if_pos h

theorem rowBufferOperations : Rules.RowBufferOperations := by
  intro s t w r h
  refine ⟨fun v u ho hz hrow hfree hread => ?_, fun ho hz hrow hfree => ?_, fun ho => ?_⟩
  · have hctl : (u.tile t).ctl = ((s.opened r t).tile t).ctl := by
      have := State.readRow_ctl (s.opened r t) r t
        ((((s.opened r t).tile t).ctl.reg (raOf w)) + simmOf w).toNat ((s.opened r t).region r).cycle
        (some (.s, ((s.opened r t).tile t).ctl.pc)) t
      rwa [hread] at this
    have hcyc : (u.region r).cycle = ((s.opened r t).region r).cycle := by
      have := State.readRow_cycle (s.opened r t) r t
        ((((s.opened r t).tile t).ctl.reg (raOf w)) + simmOf w).toNat ((s.opened r t).region r).cycle
        (some (.s, ((s.opened r t).tile t).ctl.pc)) r
      rwa [hread] at this
    refine congrArg Host.Outcome.next (slotOp_seq (op := 0x1A) h ho (encoding_of_ok ho (by simp [zeroAt,
        hz])) ?_ (by simp [hctl]) (by simp [hcyc]))
    dsimp only [rowOperand, State.site_t, State.site_w, State.site_now, State.site_mark, State.site_r]
    rw [readRowFault_of_lt hrow]
    dsimp only
    rw [rowCheck_of_free _ hfree, hread]
    rfl
  · refine congrArg Host.Outcome.next (slotOp_seq (op := 0x1B) h ho (encoding_of_ok ho (by simp [zeroAt, hz])) ?_ (by simp) (by simp))
    dsimp only [rowOperand, State.site_t, State.site_w, State.site_mark, State.site_r]
    rw [writeRowFault_of_lt hrow]
    exact rowCheck_of_free _ hfree
  · exact congrArg Host.Outcome.next (slotOp_core (op := 0x1D) _ h ho (encoding_of_ok ho rfl) rfl fun _ => rfl)

@[simp] theorem noteComplete_tile (r : RegionId) (s : State) (t : TileId) : (noteComplete r s).tile t = s.tile t := by
  unfold noteComplete
  dsimp only
  split
  · exact State.regionEvent_tile _ _ _ _
  · rfl

@[simp] theorem noteComplete_cycle (r : RegionId) (s : State) (q : RegionId) :
    ((noteComplete r s).region q).cycle = (s.region q).cycle := by
  unfold noteComplete
  dsimp only
  split
  · rw [State.regionEvent_cycle, State.region_modRegion]
    split
    · next h => rw [h]
    · rfl
  · rfl

@[simp] theorem returnCredit_tile (r : RegionId) (t : TileId) (x : RxPort) (s : State) (q : TileId) :
    (returnCredit r t x s).tile q = s.tile q := by
  unfold returnCredit
  split <;> rfl

@[simp] theorem returnCredit_cycle (r : RegionId) (t : TileId) (x : RxPort) (s : State) (q : RegionId) :
    ((returnCredit r t x s).region q).cycle = (s.region q).cycle := by
  unfold returnCredit
  split
  · rw [State.region_modRegion]
    split
    · next h => rw [h]
    · rfl
  · rfl

theorem popPort_of_nil {r : RegionId} {t : TileId} {q : Nat} {s : State} (h : ((s.tile t).rx q).buf = []) :
    popPort r t q s = none := by
  unfold popPort
  dsimp only
  rw [h]

theorem popPort_of_cons {r : RegionId} {t : TileId} {q : Nat} {s : State} {m : DWord} {rest : List DWord}
    (h : ((s.tile t).rx q).buf = m :: rest) :
    popPort r t q s = some (m, returnCredit r t ((s.tile t).rx q)
      (s.modTile t (fun y => { y with ports := y.ports.put q { (s.tile t).rx q with buf := rest } }))) := by
  unfold popPort
  dsimp only
  rw [h]

theorem nopEndAndCqrd : Rules.NopEndAndCqrd := by
  intro s t w r
  refine ⟨fun slot h ho => congrArg Host.Outcome.next (slotOp_seq (op := 0x00) h ho (encoding_of_ok ho rfl) rfl rfl rfl), fun h =>
    ⟨fun ho => ?_, fun ho hz hz' hrd hph => ?_⟩⟩
  · exact congrArg Host.Outcome.next (slotOp_seq (op := 0x1F) h ho (encoding_of_ok ho rfl) rfl (by simp) (by simp))
  have he : (zeroAt w 2 10 && zeroAt w 12 5 && rdOf w % 2 == 0) = true := by simp [zeroAt, hz, hz', hrd]
  refine ⟨fun hc => ?_, fun hb => ?_, fun m rest hc hb => ?_⟩
  · refine congrArg Host.Outcome.next (slotOp_core (op := 0x1E) _ h ho (encoding_of_ok ho he) ?_ fun _ => rfl)
    exact (channelPhase_of_compute _ hph).trans (if_pos hc)
  · refine congrArg Host.Outcome.next (slotOp_core (op := 0x1E) _ h ho (encoding_of_ok ho he) ?_ fun _ => rfl)
    refine (channelPhase_of_compute _ hph).trans ?_
    dsimp only [State.site_t, State.site_w, State.site_r]
    rw [popPort_of_nil hb]
    exact ite_self _
  · refine congrArg Host.Outcome.next (slotOp_seq (op := 0x1E) h ho (encoding_of_ok ho he) ?_ (by simp) (by simp))
    refine (channelPhase_of_compute _ hph).trans ?_
    dsimp only [State.site_t, State.site_w, State.site_r]
    rw [popPort_of_cons hb]
    exact if_neg (by simp [hc])

/-- Settles O10: a row is read or written where no entry bars it; NOP, END and CQRD by their cases. -/
theorem rowBufferNopEndAndCqrd : Obligations.RowBufferNopEndAndCqrd := ⟨rowBufferOperations, nopEndAndCqrd⟩

end Sys2Proof.Machine

namespace Sys2Proof.Machine
open Sys2Proof

/-! ### DMA and channel operations (10 R273 to R277; 11 R300) -/

theorem exchangePhase_of_exchange {i : Site} {s : State} {row : Nat} (k : Unit → Act) (h : (s.region i.r).inExchange = true) :
    exchangePhase i s row k = k () := by
  simp [exchangePhase, h]

theorem firstBadRead_of_le {row n : Nat} (h : row + n ≤ 768) : firstBadRead row n = none := if_pos h

theorem firstBadWrite_of_le {row n : Nat} (h : row + n ≤ 768) : firstBadWrite row n = none := if_pos h

theorem entryCheck_of_le {i : Site} {s : State} {n row : Nat} (k : Unit → Act) (h : n ≤ (s.tile i.t).freeEntries) :
    entryCheck i s n row k = k () := if_pos h

/-- A signal, where the register asks for one, goes to an object of the region. -/
theorem signal_owned {b c : Bool} (h : b = true → c = true) : (b && !c) = false := by
  cases b
  · rfl
  · rw [h rfl]; rfl

/-- A row DMA on a legal register starts with an entry over its rows. -/
theorem dmaIssue_row {i : Site} {op : DmaOp} {n row : Nat} {s : State} (hop : op = .rd ∨ op = .wr ∨ op = .acc)
    (hl : drLegal op ((s.tile i.t).dr.get (reg3Of i.w)) = true) (hrow : row + n ≤ 768)
    (hs : drSigen ((s.tile i.t).dr.get (reg3Of i.w)) = true →
      (s.region i.r).ownsObj (drSigobj ((s.tile i.t).dr.get (reg3Of i.w))).toNat = true)
    (he : 1 ≤ (s.tile i.t).freeEntries) :
    dmaIssue i op n row s = .ok (i.tile (startDma i op ((s.tile i.t).dr.get (reg3Of i.w)) n row s)
      (fun y => y.allocate row (row + n - 1) op.writesTile (s.tile i.t).ops)) := by
  unfold dmaIssue
  dsimp only
  rw [if_neg (by simp [hl]), firstBadRead_of_le hrow, firstBadWrite_of_le hrow, ite_self, ite_self]
  dsimp only
  rw [if_neg (by simp [signal_owned hs])]
  rcases hop with rfl | rfl | rfl <;> exact entryCheck_of_le _ he

theorem Tile.allocate_ctl (x : Tile) (a b : Nat) (w : Bool) (op : Nat) : (x.allocate a b w op).ctl = x.ctl := rfl

section
variable {s : State} {t : TileId} {w : SlotWord} {r : RegionId} (h : Issues s .x t w r)
include h

/-- DMARD, DMAWR and DMAACC. -/
theorem slotOp_dma {op : Nat} {d : DmaOp} (hop : d = .rd ∨ d = .wr ∨ d = .acc) (ho : opOf w = op)
    (hz : Word.bits w 10 2 = 0) (hz' : Word.bits w 18 1 = 0) (hrow : rowField w + nOf w ≤ 768)
    (hl : drLegal d (((s.opened r t).tile t).dr.get (reg3Of w)) = true)
    (hs : drSigen (((s.opened r t).tile t).dr.get (reg3Of w)) = true →
      ((s.opened r t).region r).ownsObj (drSigobj (((s.opened r t).tile t).dr.get (reg3Of w))).toNat = true)
    (he : 1 ≤ ((s.opened r t).tile t).freeEntries) :
    slotOp .x op t w (fun i _ => dmaEnc op i.w) (fun i s => dmaIssue i d (nOf i.w) (rowField i.w) s) s =
      (((s.opened r t).modTile t (fun y => { y with ops := y.ops + 1, dmas := y.dmas ++
          [{ id := y.ops, op := d, n := nOf w, row := rowField w, dr := ((s.opened r t).tile t).dr.get (reg3Of w),
             pas := none, data := none, pc := ((s.opened r t).tile t).ctl.pc }] })).modTile t
        (fun y => y.allocate (rowField w) (rowField w + nOf w - 1) d.writesTile ((s.opened r t).tile t).ops)).issued r t .x .seq := by
  refine slotOp_seq h ho (encoding_of_ok ho (by simp [zeroAt, hz, hz'])) (dmaIssue_row hop hl hrow hs he) ?_ rfl
  simp [Tile.allocate_ctl]

end

/-- A tile with one more DMA. -/
def Tile.withDma (y : Tile) (d : Dma) : Tile := { y with ops := y.ops + 1, dmas := y.dmas ++ [d] }

/-- The DMA an operation starts. -/
def newDma (i : Site) (op : DmaOp) (x : BitVec 128) (n row id : Nat) : Dma :=
  { id := id, op := op, n := n, row := row, dr := x, pas := none, data := none, pc := i.pc }

theorem startDma_tile (i : Site) (op : DmaOp) (x : BitVec 128) (n row : Nat) (s : State) (q : TileId) :
    (startDma i op x n row s).tile q =
      if q = i.t then (s.tile i.t).withDma (newDma i op x n row (s.tile i.t).ops) else s.tile q :=
  State.tile_modTile _ _ _ _

@[simp] theorem startDma_mem (i : Site) (op : DmaOp) (x : BitVec 128) (n row : Nat) (s : State) :
    (startDma i op x n row s).mem = s.mem := rfl

@[simp] theorem startDma_region (i : Site) (op : DmaOp) (x : BitVec 128) (n row : Nat) (s : State) (r : RegionId) :
    (startDma i op x n row s).region r = s.region r := rfl

/-- Opening a bundle leaves memory as it is. -/
@[simp] theorem State.opened_mem (s : State) (r : RegionId) (t : TileId) : (s.opened r t).mem = s.mem := by
  unfold State.opened
  split
  · rfl
  · unfold State.beginBundle
    dsimp only
    split
    · exact State.raise_mem _ _ _ _ _ _
    · split
      · exact (State.raise_mem _ _ _ _ _ _).trans rfl
      · rfl

/-- A declaration (09 R237; 11 R311). -/
def newDecl (i : Site) (x : BitVec 128) (item : BitVec 16) (id n row : Nat) (dma junk : Bool) (y : Tile) : Tile :=
  { y with
    ops := y.ops + 1,
    exch := { y.exch with decls := y.exch.decls ++ [{
      id := id, pc := i.pc, junk := junk, item := item, n := n, row := row, xv := x, dma := dma, written := [],
      key := y.vec.key, port := none, scale := none, events := Events.none_ }] } }

/-- An item beyond the sixteenth is declared with a hazard. -/
def declared (i : Site) (x : BitVec 128) (item : BitVec 16) (id n row : Nat) (dma : Bool) (s : State) : State :=
  (if decide (16 ≤ (s.tile i.t).exch.decls.length) = true then s.hazard i.r i.t i.mark hSlotConflict 0x32 else s).modTile i.t
    (newDecl i x item id n row dma (decide (16 ≤ (s.tile i.t).exch.decls.length)))

section
variable (i : Site) (x : BitVec 128) (item : BitVec 16) (id n row : Nat) (dma : Bool) (s : State)

/-- An item that is not declared yet is. -/
theorem declare_of_none (h : (s.tile i.t).decl item = none) :
    declare i x item id n row dma s = .ok (declared i x item id n row dma s) :=
  if_neg (by simp [h])

@[simp] theorem declared_mem : (declared i x item id n row dma s).mem = s.mem := by
  unfold declared; split <;> simp

@[simp] theorem declared_cycle (q : RegionId) : ((declared i x item id n row dma s).region q).cycle = (s.region q).cycle := by
  unfold declared; split <;> simp

theorem declared_tile (q : TileId) : (declared i x item id n row dma s).tile q =
    if q = i.t then newDecl i x item id n row dma (decide (16 ≤ (s.tile i.t).exch.decls.length)) (s.tile i.t) else s.tile q := by
  unfold declared; split <;> simp

end

section
variable {i : Site} {n row : Nat} {s : State}

/-- DMAXR starts its DMA and declares its item. -/
theorem dmaIssue_xr (hl : drLegal .xr ((s.tile i.t).dr.get (reg3Of i.w)) = true) (hrow : row + n ≤ 768)
    (hs : drSigen ((s.tile i.t).dr.get (reg3Of i.w)) = true →
      (s.region i.r).ownsObj (drSigobj ((s.tile i.t).dr.get (reg3Of i.w))).toNat = true)
    (hd : (s.tile i.t).decl (drItem ((s.tile i.t).dr.get (reg3Of i.w))) = none) :
    dmaIssue i .xr n row s = .ok (declared i 0 (drItem ((s.tile i.t).dr.get (reg3Of i.w))) (s.tile i.t).ops n row true
      (startDma i .xr ((s.tile i.t).dr.get (reg3Of i.w)) n row s)) := by
  have hd' : ((startDma i .xr ((s.tile i.t).dr.get (reg3Of i.w)) n row s).tile i.t).decl
      (drItem ((s.tile i.t).dr.get (reg3Of i.w))) = none := by
    rw [startDma_tile, if_pos rfl]
    exact hd
  unfold dmaIssue
  dsimp only
  rw [if_neg (by simp [hl]), firstBadRead_of_le hrow, firstBadWrite_of_le hrow, ite_self, ite_self]
  dsimp only
  rw [if_neg (by simp [signal_owned hs]), declare_of_none _ _ _ _ _ _ _ _ hd']
  rfl

/-- DMAZF starts where fewer than four are in flight. -/
theorem dmaIssue_zf (hl : drLegal .zf ((s.tile i.t).dr.get (reg3Of i.w)) = true)
    (hs : drSigen ((s.tile i.t).dr.get (reg3Of i.w)) = true →
      (s.region i.r).ownsObj (drSigobj ((s.tile i.t).dr.get (reg3Of i.w))).toNat = true)
    (hf : (s.tile i.t).zeroFills < 4) :
    dmaIssue i .zf 0 0 s = .ok (startDma i .zf ((s.tile i.t).dr.get (reg3Of i.w)) 0 0 s) := by
  unfold dmaIssue
  dsimp only
  rw [if_neg (by simp [hl]), if_pos rfl]
  dsimp only
  rw [if_neg (by simp [signal_owned hs]), if_neg (by omega)]

/-- The tile of a DMA with its item declared. -/
theorem declared_startDma_tile (x : BitVec 128) (item : BitVec 16) (op : DmaOp) (q : TileId) :
    (declared i 0 item (s.tile i.t).ops n row true (startDma i op x n row s)).tile q =
      if q = i.t then newDecl i 0 item (s.tile i.t).ops n row true (decide (16 ≤ (s.tile i.t).exch.decls.length))
        ((s.tile i.t).withDma (newDma i op x n row (s.tile i.t).ops))
      else s.tile q := by
  rw [declared_tile, startDma_tile, startDma_tile, if_pos rfl]
  split <;> rfl

end

/-- Settles O16: each starts its DMA where its register is legal and an entry is free. -/
theorem dmaOperationsStart : Obligations.DmaOperationsStart := by
  unfold Obligations.DmaOperationsStart
  intro s t w r h
  refine fun hs => ⟨fun hz hz' hrow => ⟨fun he => ⟨fun ho hl => ?_, fun ho hl => ?_, fun ho hl => ?_⟩, fun ho hl hph hd => ?_⟩,
    fun ho hz hl hph hf => ?_⟩
  · exact congrArg Host.Outcome.next (slotOp_dma h (.inl rfl) ho hz hz' hrow hl hs he)
  · exact congrArg Host.Outcome.next (slotOp_dma h (.inr (.inl rfl)) ho hz hz' hrow hl hs he)
  · exact congrArg Host.Outcome.next (slotOp_dma h (.inr (.inr rfl)) ho hz hz' hrow hl hs he)
  · have htile := declared_startDma_tile (i := (s.opened r t).site r .x t w) (n := nOf w) (row := rowField w) (s := s.opened r t)
      (((s.opened r t).tile t).dr.get (reg3Of w)) (drItem (((s.opened r t).tile t).dr.get (reg3Of w))) .xr
    have here := (htile t).trans (if_pos rfl)
    have hop := slotOp_seq (op := 0x15) (enc := fun i _ => dmaEnc 0x15 i.w) h ho (encoding_of_ok ho (by simp [zeroAt, hz, hz']))
      (act := fun i s => exchangePhase i s (rowField i.w) (fun _ => dmaIssue i .xr (nOf i.w) (rowField i.w) s))
      ((exchangePhase_of_exchange _ hph).trans
        (dmaIssue_xr (i := (s.opened r t).site r .x t w) (s := s.opened r t) hl hrow hs hd))
      (congrArg (fun x => x.ctl.bundle) here) (by simp)
    exact ⟨_, _, congrArg Host.Outcome.next hop, congrArg Tile.dmas here,
      ⟨_, congrArg (fun x => x.exch.decls) here, rfl, rfl, rfl, rfl, rfl, rfl, rfl⟩, by simp, fun q hq => (htile q).trans (if_neg hq)⟩
  · refine congrArg Host.Outcome.next (slotOp_seq (op := 0x14) h ho (encoding_of_ok ho (by simp [zeroAt, hz]))
      ((if_neg (by simp [hph])).trans (dmaIssue_zf hl hs hf)) ?_ rfl)
    simp

end Sys2Proof.Machine

namespace Sys2Proof.Machine
open Sys2Proof

/-! ### Channel operations (10 R273 to R277) -/

@[simp] theorem popPort_tile_ctl {r : RegionId} {t : TileId} {q : Nat} {s u : State} {m : DWord}
    (h : popPort r t q s = some (m, u)) (p : TileId) : (u.tile p).ctl = (s.tile p).ctl := by
  cases hb : ((s.tile t).rx q).buf with
  | nil => rw [popPort_of_nil hb] at h; cases h
  | cons a rest =>
    rw [popPort_of_cons hb] at h
    obtain ⟨-, rfl⟩ := Prod.mk.inj (Option.some.inj h)
    rw [returnCredit_tile, State.tile_modTile]
    split
    · next hp => rw [hp]
    · rfl

theorem popPort_cycle {r : RegionId} {t : TileId} {q : Nat} {s u : State} {m : DWord}
    (h : popPort r t q s = some (m, u)) (p : RegionId) : (u.region p).cycle = (s.region p).cycle := by
  cases hb : ((s.tile t).rx q).buf with
  | nil => rw [popPort_of_nil hb] at h; cases h
  | cons a rest =>
    rw [popPort_of_cons hb] at h
    obtain ⟨-, rfl⟩ := Prod.mk.inj (Option.some.inj h)
    rw [returnCredit_cycle, State.region_modTile]

/-- A change of a tile that keeps its open bundle keeps every open bundle. -/
theorem modTile_bundle {s : State} {t : TileId} {f : Tile → Tile} (hf : (f (s.tile t)).ctl.bundle = (s.tile t).ctl.bundle)
    (p : TileId) : ((s.modTile t f).tile p).ctl.bundle = (s.tile p).ctl.bundle := by
  rw [State.tile_modTile]
  split
  · next h => rw [h, hf]
  · rfl

/-- Feeding a port leaves open bundles and the region cycle as they are. -/
theorem feedPort_bundle (r : RegionId) (t : TileId) (q n : Nat) (s : State) (p : TileId) :
    ((feedPort r t q n s).tile p).ctl.bundle = (s.tile p).ctl.bundle := by
  induction n generalizing s with
  | zero => rfl
  | succ n ih =>
    unfold feedPort
    dsimp only
    split
    · split
      · rfl
      · next m u hp => rw [ih, modTile_bundle rfl, popPort_tile_ctl hp]
    · split
      · split
        · rfl
        · split
          · rfl
          · next m u hp => rw [ih, modTile_bundle rfl, popPort_tile_ctl hp]
      · split
        · split
          · split
            · rfl
            · next m u hp => rw [modTile_bundle rfl, popPort_tile_ctl hp]
          · rfl
        · rfl

theorem feedPort_cycle (r : RegionId) (t : TileId) (q n : Nat) (s : State) (p : RegionId) :
    ((feedPort r t q n s).region p).cycle = (s.region p).cycle := by
  induction n generalizing s with
  | zero => rfl
  | succ n ih =>
    unfold feedPort
    dsimp only
    split
    · split
      · rfl
      · next m u hp => rw [ih, State.region_modTile, popPort_cycle hp]
    · split
      · split
        · rfl
        · split
          · rfl
          · next m u hp => rw [ih, State.region_modTile, popPort_cycle hp]
      · split
        · split
          · split
            · rfl
            · next m u hp => rw [State.region_modTile, popPort_cycle hp]
          · rfl
        · rfl

/-- Settles O17: each by the state of its channel. -/
theorem channelOperations : Obligations.ChannelOperations := by
  unfold Obligations.ChannelOperations
  intro s t w r h
  refine fun hph => ⟨fun ho hz hp hout hcol => ⟨fun hst => ?_, fun hst => ?_⟩,
    fun ho hz hz' hra => ⟨fun hst hc => ?_, fun hst hc => ?_, fun hst => ?_⟩, fun ho hz => ⟨fun hst => ?_, fun hst => ?_⟩,
    fun ho hz hz' hrow he => ?_⟩
  · refine congrArg Host.Outcome.next (slotOp_seq (op := 0x20) h ho (encoding_of_ok ho (by simp [zeroAt, hz, hp]))
      ((channelPhase_of_compute _ hph).trans ((if_neg (by simp [hout])).trans ((if_neg (by simp [hcol])).trans ?_))) ?_ rfl)
    · dsimp only [State.site_t, State.site_w]
      rw [hst]
      rfl
    · simp
  · refine congrArg Host.Outcome.next (slotOp_seq (op := 0x20) h ho (encoding_of_ok ho (by simp [zeroAt, hz, hp]))
      ((channelPhase_of_compute _ hph).trans ((if_neg (by simp [hout])).trans ((if_neg (by simp [hcol])).trans ?_))) ?_ rfl)
    · dsimp only [State.site_t, State.site_w]
      rw [hst]
      rfl
    · simp
  · refine congrArg Host.Outcome.next (slotOp_seq (op := 0x21) h ho (encoding_of_ok ho (by simp [zeroAt, hz, hz', hra]))
      ((channelPhase_of_compute _ hph).trans ?_) ?_ rfl)
    · dsimp only [State.site_t, State.site_w]
      rw [hst]
      refine (if_pos hc).trans ?_
      rw [← hst]
      rfl
    · simp
  · refine congrArg Host.Outcome.next (slotOp_seq (op := 0x21) h ho (encoding_of_ok ho (by simp [zeroAt, hz, hz', hra]))
      ((channelPhase_of_compute _ hph).trans ?_) ?_ rfl)
    · dsimp only [State.site_t, State.site_w]
      rw [hst]
      exact if_neg (by omega)
    · simp
  · refine congrArg Host.Outcome.next (slotOp_seq (op := 0x21) h ho (encoding_of_ok ho (by simp [zeroAt, hz, hz', hra]))
      ((channelPhase_of_compute _ hph).trans ?_) ?_ rfl)
    · dsimp only [State.site_t, State.site_w]
      rw [hst]
      rfl
    · simp
  · refine congrArg Host.Outcome.next (slotOp_seq (op := 0x22) h ho (encoding_of_ok ho (by simp [zeroAt, hz]))
      ((channelPhase_of_compute _ hph).trans ?_) rfl rfl)
    dsimp only [State.site_t, State.site_w]
    rcases hst with hst | hst <;> rw [hst]
  · refine congrArg Host.Outcome.next (slotOp_seq (op := 0x22) h ho (encoding_of_ok ho (by simp [zeroAt, hz]))
      ((channelPhase_of_compute _ hph).trans ?_) ?_ rfl)
    · dsimp only [State.site_t, State.site_w]
      rcases hst with hst | hst <;> rw [hst] <;> rfl
    · simp
  · refine congrArg Host.Outcome.next (slotOp_seq (op := 0x23) h ho (encoding_of_ok ho (by simp [zeroAt, hz, hz']))
      ((channelPhase_of_compute _ hph).trans ?_) ?_ (feedPort_cycle _ _ _ _ _ _))
    · dsimp only [State.site_t, State.site_w]
      rw [writeRowFault_of_lt hrow]
      exact entryCheck_of_le _ he
    · rw [feedPort_bundle, modTile_bundle rfl]

end Sys2Proof.Machine

namespace Sys2Proof.Machine
open Sys2Proof

/-! ### Exchange operations (09 R230 to R243) -/

@[simp] theorem portBusy_tile (i : Site) (s : State) (q : TileId) : (portBusy i s).2.tile q = s.tile q := by
  unfold portBusy; split <;> simp

@[simp] theorem portBusy_cycle (i : Site) (s : State) (r : RegionId) : ((portBusy i s).2.region r).cycle = (s.region r).cycle := by
  unfold portBusy; split <;> simp

section
variable {i : Site} {x : BitVec 128} {n row : Nat} {s : State}

/-- An on-device send puts its rows on the mesh. -/
theorem sendOn_of_legal (hb : badDest s (s.region i.r) x = none) (hst : staleDest s i.r x = none)
    (hs : xrSigen x = true → (s.region i.r).ownsObj (xrSigobj x).toNat = true) (hf : s.rowFree i.t row false) :
    sendOn i x n row s = .ok (i.tile ((portBusy i s).2.modRegion i.r (fun g =>
      { g with packets := g.packets ++ sendPackets i (portBusy i s).2 x n row (portBusy i s).1 }))
      (fun y => { y with exch := { y.exch with sendFree := i.now + 16 * n } })) := by
  unfold sendOn
  dsimp only
  rw [hb]
  dsimp only
  rw [if_neg (by simp [signal_owned hs]), hst]
  exact rowCheck_of_free _ hf

/-- An off-device send goes to its gate. -/
theorem sendOff_of_legal (hp : s.portEnabled (xrPort x) = true) (hl : ((s.region i.r).lane (xrPort x)).isSome = true)
    (hn : (s.port (xrPort x)).nbrDev = xrRdev x) (hsp : n ≤ (s.tile i.t).spare (xrPort x)) (hrow : row + n ≤ 768)
    (hb : badTileId s (xrRtile x).toNat = false) (hst : staleLane s i.r (xrPort x) = none) (hf : s.rowFree i.t row false) :
    sendOff i x n row s = .ok (i.tile (portBusy i s).2 (fun y => { y with exch := { y.exch with
      sendFree := i.now + 16 * n,
      gates := y.exch.gates ++ [{ at_ := i.now, n := n, row := row, dst := 0, xr := x, got := [], pc := i.pc,
                                  junk := (portBusy i s).1 }] } })) := by
  unfold sendOff
  dsimp only
  rw [if_neg (by simp [hp, hn, Option.isSome_iff_ne_none.1 hl, hsp]), firstBadRead_of_le hrow]
  dsimp only
  rw [if_neg (by simp [hb]), hst]
  exact rowCheck_of_free _ hf

end

theorem sendsAreInjected : Rules.SendsAreInjected := by
  intro s t w r h
  refine fun ho hz hph hx hrow hf => ⟨fun hg hb hst hs => ?_, fun hg hp hl hn hsp hb hst => ?_⟩
  · refine congrArg Host.Outcome.next (slotOp_seq (op := 0x03) h ho (encoding_of_ok ho (by simp [zeroAt, hz]))
      ((exchangePhase_of_exchange _ hph).trans ((if_neg (by simp [hx])).trans ((if_neg (by simp [hg])).trans ?_))) ?_ ?_)
    · dsimp only [State.site_w]
      rw [firstBadRead_of_le hrow]
      exact sendOn_of_legal hb hst hs hf
    · simp
    · simp
  · refine congrArg Host.Outcome.next (slotOp_seq (op := 0x03) h ho (encoding_of_ok ho (by simp [zeroAt, hz]))
      ((exchangePhase_of_exchange _ hph).trans ((if_neg (by simp [hx])).trans ((if_pos hg).trans
        (sendOff_of_legal hp hl hn hsp hrow hb hst hf)))) ?_ ?_)
    · simp
    · simp

/-! ### Receives -/

/-- A receive a tile arms, with an undefined outcome where its slot is taken. -/
def Tile.withArmed (i : Site) (x : BitVec 128) (n row : Nat) (junk : Bool) (y : Tile) : Tile :=
  ({ y with exch := { y.exch with armed := y.exch.armed ++ [{
      at_ := i.now, xv := x, n := n, row := row, done := 0, base := none, key := y.vec.key, pc := i.pc, scale := none,
      got := [], junk := junk }] } } : Tile).expecting
    ((List.range (n * xvRows x)).map (fun k => (row + k, i.now + 16 * (k / xvRows x + 1) - 1 + k % xvRows x))) i

/-- No row of `n` from `row` on lies in an entry that ends before them or begins after them. -/
theorem entries_free {sb : Tab SbEntry} {row n : Nat} (h : ∀ e ∈ sb, e.2.last < row ∨ row + n ≤ e.2.first) :
    (List.range n).find? (fun k => sb.any (fun e => decide (e.2.first ≤ row + k) && decide (row + k ≤ e.2.last))) = none := by
  simp only [List.find?_eq_none, List.mem_range, List.any_eq_true, Bool.and_eq_true, decide_eq_true_eq, not_exists, not_and, Nat.not_le]
  intro k hk e he hle
  rcases h e he with h | h <;> omega

/-- What a warning that may be due leaves alone. -/
@[simp] theorem warned_tile (c : Prop) [Decidable c] (s : State) (r : RegionId) (t : TileId) (x : Option (Slot × BitVec 11)) (a b : Nat)
    (q : TileId) : (if c then s.hazard r t x a b else s).tile q = s.tile q := by
  split <;> simp

@[simp] theorem warned_cycle (c : Prop) [Decidable c] (s : State) (r : RegionId) (t : TileId) (x : Option (Slot × BitVec 11)) (a b : Nat)
    (q : RegionId) : ((if c then s.hazard r t x a b else s).region q).cycle = (s.region q).cycle := by
  split <;> simp

@[simp] theorem warned_mem (c : Prop) [Decidable c] (s : State) (r : RegionId) (t : TileId) (x : Option (Slot × BitVec 11)) (a b : Nat) :
    (if c then s.hazard r t x a b else s).mem = s.mem := by
  split <;> simp

/-- A state that differs in tile `t` alone, by `f`, with memory and the region cycles the same. -/
structure Differs (t : TileId) (f : Tile → Tile) (s u : State) : Prop where
  mem : u.mem = s.mem
  cycle : ∀ q, (u.region q).cycle = (s.region q).cycle
  tile : ∀ q, u.tile q = if q = t then f (s.tile t) else s.tile q

/-- A change of one tile after a warning. -/
theorem Differs.warned (c : Prop) [Decidable c] (s : State) (r : RegionId) (t p : TileId) (x : Option (Slot × BitVec 11)) (a b : Nat)
    (f : Tile → Tile) : Differs t f s ((if c then s.hazard r p x a b else s).modTile t f) where
  mem := by simp
  cycle q := by simp
  tile q := by simp

/-- A compiled receive is armed where no entry bars its rows. -/
theorem armReceive_of_free {i : Site} {x : BitVec 128} {n row : Nat} {s : State}
    (h : ∀ e ∈ ((s.tile i.t).before (s.startTile i.t).ops).sb, e.2.last < row ∨ row + n * xvRows x ≤ e.2.first) :
    ∃ (u : State) (junk : Bool), armReceive i x n row s = .ok u ∧ Differs i.t (Tile.withArmed i x n row junk) s u := by
  unfold armReceive
  dsimp only
  rw [entries_free h]
  exact ⟨_, _, rfl, Differs.warned _ _ _ _ _ _ _ _ _⟩

/-- A widening item's scale row is one that may be read. -/
theorem widenRow_legal {b : Bool} {row : Nat} (h : b = true → row < 768) :
    (if b = true then firstBadRead row 1 else none) = none := by
  split
  · next hb => exact firstBadRead_of_le (h hb)
  · rfl

theorem receivesAreArmedOrDeclared : Rules.ReceivesAreArmedOrDeclared := by
  intro s t w r h
  refine fun ho hz hph hx hrow hsc => ⟨fun hl hb hf => ?_, fun hl hd => ?_⟩
  · obtain ⟨u, junk, hu, hdiff⟩ := armReceive_of_free (i := (s.opened r t).site r .x t w) (n := nOf w) (s := s.opened r t) hf
    have here := (hdiff.tile t).trans (if_pos rfl)
    refine ⟨u, junk, congrArg Host.Outcome.next (slotOp_seq (op := 0x04) h ho (encoding_of_ok ho (by simp [zeroAt, hz]))
      ((exchangePhase_of_exchange _ hph).trans ((if_neg (by simp [hx])).trans ?_)) (by rw [here]; rfl) (hdiff.cycle r)),
      congrArg (fun x => x.exch.armed) here, by rw [hdiff.mem, State.opened_mem], fun q hq => (hdiff.tile q).trans (if_neg hq)⟩
    dsimp only [State.site_t, State.site_w]
    rw [firstBadWrite_of_le hrow]
    dsimp only
    split
    · next f hbad => exact nomatch hbad.symm.trans (widenRow_legal hsc)
    · exact (if_neg (by simp [hl])).trans ((if_neg (by simp [hb])).trans hu)
  · have htile := declared_tile ((s.opened r t).site r .x t w) (((s.opened r t).tile t).exch.xv.get (reg4Of w))
      (xvItem (((s.opened r t).tile t).exch.xv.get (reg4Of w))) ((s.opened r t).tile t).ops (nOf w) (rowField w) false (s.opened r t)
    have here := (htile t).trans (if_pos rfl)
    refine ⟨_, _, congrArg Host.Outcome.next (slotOp_seq (op := 0x04) h ho (encoding_of_ok ho (by simp [zeroAt, hz]))
      ((exchangePhase_of_exchange _ hph).trans ((if_neg (by simp [hx])).trans ?_)) (congrArg (fun x => x.ctl.bundle) here) (by simp)),
      congrArg (fun x => x.exch.decls) here, by simp, fun q hq => (htile q).trans (if_neg hq)⟩
    dsimp only [State.site_t, State.site_w]
    rw [firstBadWrite_of_le hrow]
    dsimp only
    split
    · next f hbad => exact nomatch hbad.symm.trans (widenRow_legal hsc)
    · exact (if_pos hl).trans (declare_of_none _ _ _ _ _ _ _ _ hd)

/-! ### Due marks and copies -/

theorem dueMarksAndCopies : Rules.DueMarksAndCopies := by
  intro s t w r h
  refine ⟨fun ho hz hph => ⟨fun d h0 hd => ?_, fun h1 hz' => ?_, fun h2 hz' hk => ?_⟩, fun ho hz hrow hdst hf => ?_⟩
  · refine congrArg Host.Outcome.next (slotOp_seq (op := 0x05) h ho (encoding_of_ok ho ?_)
      ((exchangePhase_of_exchange _ hph).trans ?_) (by simp) (by simp))
    · rw [State.site_w, h0]; simp [zeroAt, hz]
    · dsimp only [State.site_t, State.site_w]
      rw [h0, hd]
      rfl
  · refine congrArg Host.Outcome.next (slotOp_seq (op := 0x05) h ho (encoding_of_ok ho ?_)
      ((exchangePhase_of_exchange _ hph).trans ?_) (by simp) (by simp))
    · rw [State.site_w, h1]; simp [zeroAt, hz, hz']
    · dsimp only [State.site_t, State.site_w]
      rw [h1]
      rfl
  · refine congrArg Host.Outcome.next (slotOp_seq (op := 0x05) h ho (encoding_of_ok ho ?_)
      ((exchangePhase_of_exchange _ hph).trans ?_) (by simp) (by simp))
    · rw [State.site_w, h2]; simp [zeroAt, hz, hz', hk]
    · dsimp only [State.site_t, State.site_w]
      rw [h2]
      rfl
  · refine congrArg Host.Outcome.next (slotOp_seq (op := 0x08) h ho (encoding_of_ok ho (by simp [zeroAt, hz])) ?_ (by simp) rfl)
    dsimp only [State.site_t, State.site_w]
    rw [firstBadRead_of_le hrow]
    dsimp only
    rw [firstBadWrite_of_le hdst]
    refine (rowCheck_of_free _ hf).trans ?_
    simp only [Tile.expecting, List.map_map]
    rfl

/-- Settles O15: a send is injected, a receive is armed or declared, a mark is placed, a copy starts. -/
theorem exchangeOperationsStart : Obligations.ExchangeOperationsStart :=
  ⟨sendsAreInjected, receivesAreArmedOrDeclared, dueMarksAndCopies⟩

end Sys2Proof.Machine

namespace Sys2Proof.Machine
open Sys2Proof

/-! ### Passes, drains and jobs start (05 R144 to R162; 07 R189 to R205) -/

/-- No entry that was busy bars any of the rows. -/
theorem rowCheck_of_all {i : Site} {s : State} {rows : List (Nat × Bool)} (k : Unit → Act)
    (h : ∀ q ∈ rows, s.rowFree i.t q.1 q.2) : rowCheck i s rows k = k () := by
  have hnone : rows.find? (fun q => ((((s.tile i.t).before (s.startTile i.t).ops).blocking q.1 q.2)).isSome) = none := by
    rw [List.find?_eq_none]
    intro q hq
    rw [h q hq]
    simp
  unfold rowCheck
  dsimp only
  rw [hnone]

/-- A tile without the contents of its accumulator banks. -/
def Tile.bankless (x : Tile) : Tile := { x with matrix := { x.matrix with acc0 := [], acc1 := [], aud0 := [], aud1 := [] } }

/-- What a warning and undefined banks of tile `t` leave alone: every tile but for the contents of the banks of `t`, the
region cycles, and memory. -/
def State.seen (t : TileId) (s : State) (q : TileId) (r : RegionId) : Tile × Nat × Mem :=
  (if q = t then (s.tile q).bankless else s.tile q, (s.region r).cycle, s.mem)

theorem State.seen_hazard (s : State) (c : Prop) [Decidable c] (r : RegionId) (t p : TileId) (x : Option (Slot × BitVec 11)) (a b : Nat) :
    State.seen t (if c then s.hazard r p x a b else s) = State.seen t s := by
  funext q r'
  simp [State.seen]

theorem MatSt.setBank_bankless (x : Tile) (b c : Bool) (k : Bank) :
    ({ x with matrix := x.matrix.setBank b c k } : Tile).bankless = x.bankless := by
  unfold MatSt.setBank
  split <;> rfl

theorem seen_junkBank (r : RegionId) (t : TileId) (b : Bool) (s : State) : State.seen t (junkBank r t b s) = State.seen t s := by
  unfold junkBank
  dsimp only
  generalize hc : List.foldl (fun (a : Bank × State) k => junkCell k a.1 a.2) _ _ = c
  generalize ha : List.foldl (fun (a : Bank × State) i => junkAudit i a.1 a.2) c _ = a
  have hcell : State.seen t c.2 = State.seen t s := by
    rw [← hc]
    exact foldl_inv (P := fun a : Bank × State => State.seen t a.2) (f := fun a k => junkCell k a.1 a.2) (fun _ _ => rfl) _ _
  have haud : State.seen t a.2 = State.seen t s := by
    rw [← hcell, ← ha]
    exact foldl_inv (P := fun a : Bank × State => State.seen t a.2) (f := fun a k => junkAudit k a.1 a.2) (fun _ _ => rfl) _ _
  rw [← haud]
  funext q p
  unfold State.seen
  rw [State.tile_modTile, State.region_modTile]
  split
  · next h => rw [MatSt.setBank_bankless, h]; rfl
  · rfl

theorem seen_junkBanks (r : RegionId) (t : TileId) (b both : Bool) (s : State) :
    State.seen t (junkBanks r t b both s) = State.seen t s := by
  unfold junkBanks
  dsimp only
  split
  · rw [seen_junkBank, seen_junkBank]
  · exact seen_junkBank _ _ _ _

theorem State.seen_junk (c : Prop) [Decidable c] (r : RegionId) (t : TileId) (b both : Bool) (s : State) :
    State.seen t (if c then junkBanks r t b both s else s) = State.seen t s := by
  split
  · exact seen_junkBanks _ _ _ _ _
  · rfl

section
variable {t : TileId} {s u : State} (h : State.seen t u = State.seen t s)
include h

theorem State.seen_here : (u.tile t).bankless = (s.tile t).bankless := by
  simpa [State.seen] using congrArg Prod.fst (congrFun (congrFun h t) 0)

theorem State.seen_other {q : TileId} (hq : q ≠ t) : u.tile q = s.tile q := by
  simpa [State.seen, hq] using congrArg Prod.fst (congrFun (congrFun h q) 0)

theorem State.seen_cycle (r : RegionId) : (u.region r).cycle = (s.region r).cycle := by
  simpa [State.seen] using congrArg (fun x => x.2.1) (congrFun (congrFun h t) r)

theorem State.seen_mem : u.mem = s.mem := by
  simpa [State.seen] using congrArg (fun x => x.2.2) (congrFun (congrFun h t) 0)

/-- What follows for the same change of tile `t` in both. -/
theorem State.modTile_seen (f : Tile → Tile) : (u.modTile t f).mem = s.mem ∧ (∀ r, ((u.modTile t f).region r).cycle = (s.region r).cycle) ∧
    (∀ q, q ≠ t → (u.modTile t f).tile q = s.tile q) ∧ (u.modTile t f).tile t = f (u.tile t) :=
  ⟨by rw [State.modTile_mem, State.seen_mem h], fun r => by rw [State.region_modTile, State.seen_cycle h],
  fun q hq => by rw [State.tile_modTile, if_neg hq, State.seen_other h hq], by simp⟩

end

/-- What a start of a pass does: warnings and undefined banks, and then a change of its tile. -/
theorem startPass_spec (i : Site) (d : BitVec 128) (bank init : Bool) (s : State) :
    ∃ (V : State) (f : Tile → Tile), startPass i d bank init s = i.tile V f ∧ State.seen i.t V = State.seen i.t s ∧
      ∃ junk, ∀ x : Tile, (f x).ctl = x.ctl ∧ (f x).matrix.passNo = x.matrix.passNo + 1 ∧
        (f x).matrix.lastOp =
          some ((firstOperand (s.tile i.t).matrix.lastOp (mdRamp d) i.now).1 + mdCycles d * mdStretch d - 1) ∧
        ∃ ps, ps.length = x.matrix.passes.length ∧ (f x).matrix.passes = ps ++ [
          { md := d, bank := bank, init := init, first := (firstOperand (s.tile i.t).matrix.lastOp (mdRamp d) i.now).1,
            cycles := mdCycles d * mdStretch d, pc := i.pc, passNo := x.matrix.passNo, got := [], issue := i.now,
            junk := junk }] := by
  refine ⟨_, _, rfl, ?_, ?_⟩
  · rw [State.seen_junk, State.seen_hazard, State.seen_hazard]
  · refine ⟨_, fun x => ⟨rfl, ?_, rfl, _, ?_, rfl⟩⟩
    · rfl
    · exact List.length_map _

/-- The tile a drain or a job starts in: jobs it clashes with are undefined, and it takes its draws. -/
def Tile.entered (u : JobSetup) (at_ : Nat) (now : Nat) (x : Tile) : Tile :=
  takeDraws u (x.junkJobs (entersAt (u.begin_ now at_).groups))

@[simp] theorem takeDraws_ctl (u : JobSetup) (x : Tile) : (takeDraws u x).ctl = x.ctl := by
  unfold takeDraws; split <;> rfl

@[simp] theorem takeDraws_matrix (u : JobSetup) (x : Tile) : (takeDraws u x).matrix = x.matrix := by
  unfold takeDraws; split <;> rfl

@[simp] theorem takeDraws_jobs (u : JobSetup) (x : Tile) : (takeDraws u x).vec.jobs = x.vec.jobs := by
  unfold takeDraws; split <;> rfl

@[simp] theorem takeDraws_asyncs (u : JobSetup) (x : Tile) : (takeDraws u x).vec.asyncs = x.vec.asyncs := by
  unfold takeDraws; split <;> rfl

@[simp] theorem takeDraws_ops (u : JobSetup) (x : Tile) : (takeDraws u x).ops = x.ops := by
  unfold takeDraws; split <;> rfl

section
variable (u : JobSetup) (at_ now : Nat) (x : Tile)

@[simp] theorem Tile.entered_ctl : (x.entered u at_ now).ctl = x.ctl := takeDraws_ctl _ _

theorem Tile.entered_drains : (x.entered u at_ now).matrix.drains.length = x.matrix.drains.length := by
  rw [Tile.entered, takeDraws_matrix]
  exact List.length_map _

theorem Tile.entered_jobs : (x.entered u at_ now).vec.jobs.length = x.vec.jobs.length := by
  rw [Tile.entered, takeDraws_jobs]
  exact List.length_map _

theorem Tile.entered_valid : (x.entered u at_ now).matrix.valid = x.matrix.valid := by
  rw [Tile.entered, takeDraws_matrix]; rfl

theorem Tile.entered_init0 : (x.entered u at_ now).matrix.init0 = x.matrix.init0 := by
  rw [Tile.entered, takeDraws_matrix]; rfl

theorem Tile.entered_init1 : (x.entered u at_ now).matrix.init1 = x.matrix.init1 := by
  rw [Tile.entered, takeDraws_matrix]; rfl

end

/-- What a start of a drain does. -/
theorem startDrain_spec (i : Site) (u : JobSetup) (bank : Bool) (mode : BitVec 2) (s : State) :
    ∃ (V : State) (f : Tile → Tile), startDrain i u bank mode s = i.tile V f ∧ State.seen i.t V = State.seen i.t s ∧
      ∃ junk, ∀ x : Tile, (f x).ctl = (x.entered u (i.now + 2) i.now).ctl ∧ (f x).matrix.lastDrain = some i.now ∧
        (f x).matrix.drains = (x.entered u (i.now + 2) i.now).matrix.drains ++ [
          { job := { u.begin_ i.now (i.now + 2) with junk := junk }, at_ := i.now, bank := bank, mode := mode, rows := [],
            audit := (x.entered u (i.now + 2) i.now).matrix.valid.getLsbD (if bank then 1 else 0),
            col := (if bank then (x.entered u (i.now + 2) i.now).matrix.init1
              else (x.entered u (i.now + 2) i.now).matrix.init0).toNat % 32, noted := false }] := by
  refine ⟨_, _, rfl, ?_, ?_⟩
  · rw [State.seen_hazard, State.seen_junk, State.seen_hazard, State.seen_hazard]
  · exact ⟨_, fun x => ⟨rfl, rfl, rfl⟩⟩

/-- What a start of a static job does. -/
theorem startJob_spec (i : Site) (u : JobSetup) (s : State) :
    ∃ (V : State) (f : Tile → Tile), startJob i u s = i.tile V f ∧ State.seen i.t V = State.seen i.t s ∧
      ∃ junk, ∀ x : Tile, (f x).ctl = (x.entered u (i.now + 1) i.now).ctl ∧
        (f x).vec.jobs = (x.entered u (i.now + 1) i.now).vec.jobs ++ [{ u.begin_ i.now (i.now + 1) with junk := junk }] := by
  refine ⟨_, _, rfl, ?_, ?_⟩
  · rw [State.seen_hazard]
  · exact ⟨_, fun x => ⟨rfl, rfl⟩⟩

/-- What the contents of the banks do not enter is the same after a warning. -/
theorem State.seen_field {α : Type} {t : TileId} {V s : State} (h : State.seen t V = State.seen t s) (f : Tile → α)
    (hf : ∀ x : Tile, f x.bankless = f x) : f (V.tile t) = f (s.tile t) := by
  rw [← hf, State.seen_here h, hf]

/-- Settles O13: the checks pass and the pass or the drain joins those in flight. -/
theorem matrixOperationsStart : Obligations.MatrixOperationsStart := by
  unfold Obligations.MatrixOperationsStart
  intro s t w r h
  refine ⟨fun ho hz hl hrow => ?_, fun ho hz hm hb hl => ?_⟩
  · obtain ⟨V, f, hu, hseen, junk, hf⟩ := startPass_spec ((s.opened r t).site r .m t w) (((s.opened r t).tile t).matrix.md.get (reg3Of w))
      (Word.bit w 18) (Word.bit w 17) (s.opened r t)
    obtain ⟨hmem, hcyc, hoth, hhere⟩ := State.modTile_seen hseen f
    obtain ⟨hctl, hno, hlast, ps, hlen, hps⟩ := hf (V.tile t)
    have hctl' := State.seen_field (t := t) hseen (fun x => x.ctl) fun _ => rfl
    have hno' := State.seen_field (t := t) hseen (fun x => x.matrix.passNo) fun _ => rfl
    have hlen' := State.seen_field (t := t) hseen (fun x => x.matrix.passes.length) fun _ => rfl
    refine ⟨_, junk, congrArg Host.Outcome.next (slotOp_seq (op := 0x01) h ho (encoding_of_ok ho (zeroAt_of_eq hz))
      ((if_neg (by simp [hl])).trans ((rowCheck_of_all _ ?_).trans (congrArg Act.ok hu))) ?_ (hcyc r)), ⟨ps, ?_, ?_⟩, ?_, ?_, ?_, hoth⟩
    · intro q hq
      split at hq
      · next hc =>
        rw [List.mem_singleton] at hq
        subst hq
        exact hrow hc.2 hc.1
      · cases hq
    · exact (congrArg (fun x => x.ctl.bundle) hhere).trans (congrArg Ctl.bundle (hctl.trans hctl'))
    · exact hlen.trans hlen'
    · refine (congrArg (fun x => x.matrix.passes) hhere).trans (hps.trans ?_)
      rw [hno']
      rfl
    · exact (congrArg (fun x => x.matrix.passNo) hhere).trans (hno.trans (congrArg (· + 1) hno'))
    · exact (congrArg (fun x => x.matrix.lastOp) hhere).trans hlast
    · exact hmem.trans (State.opened_mem _ _ _)
  · obtain ⟨V, f, hu, hseen, junk, hf⟩ := startDrain_spec ((s.opened r t).site r .m t w)
      (jobSetup ((s.opened r t).site r .m t w) (Word.bits w 16 3) (s.opened r t)) (Word.bit w 21) (w.extractLsb' 19 2) (s.opened r t)
    obtain ⟨hmem, hcyc, hoth, hhere⟩ := State.modTile_seen hseen f
    obtain ⟨hctl, hlast, hds⟩ := hf (V.tile t)
    have hctl' := State.seen_field (t := t) hseen (fun x => x.ctl) fun _ => rfl
    have hlen' := State.seen_field (t := t) hseen (fun x => x.matrix.drains.length) fun _ => rfl
    have hvalid := State.seen_field (t := t) hseen (fun x => x.matrix.valid) fun _ => rfl
    have hinit0 := State.seen_field (t := t) hseen (fun x => x.matrix.init0) fun _ => rfl
    have hinit1 := State.seen_field (t := t) hseen (fun x => x.matrix.init1) fun _ => rfl
    rw [Tile.entered_ctl] at hctl
    rw [Tile.entered_valid, Tile.entered_init0, Tile.entered_init1] at hds
    rw [hvalid, hinit0, hinit1] at hds
    have henc : (zeroAt w 0 16 && decide (Word.bits w 19 2 ≤ 1) && !(Word.bit w 21 && Word.bits w 19 2 == 1)) = true := by
      cases hb21 : Word.bit w 21
      · simp [zeroAt, hz, hm]
      · simpa [zeroAt, hz, hm] using fun h1 => hb ⟨hb21, h1⟩
    refine ⟨_, junk, congrArg Host.Outcome.next (slotOp_seq (op := 0x02) h ho (encoding_of_ok ho henc)
      ((if_neg (by simp [hl])).trans (congrArg Act.ok hu)) ((congrArg (fun x => x.ctl.bundle) hhere).trans (congrArg Ctl.bundle (hctl.trans hctl'))) (hcyc r)),
      ⟨_, (Tile.entered_drains _ _ _ _).trans hlen', (congrArg (fun x => x.matrix.drains) hhere).trans hds⟩,
      (congrArg (fun x => x.matrix.lastDrain) hhere).trans hlast, hmem.trans (State.opened_mem _ _ _), hoth⟩

/-- Entries taken are no change of anything but the scoreboard. -/
theorem allocateAll_vec (rs : List (Nat × Nat × Bool)) (op : Nat) (y : Tile) :
    (rs.foldl (fun x q => x.allocate q.1 q.2.1 q.2.2 op) y).vec = y.vec :=
  foldl_inv (P := Tile.vec) (f := fun x q => x.allocate q.1 q.2.1 q.2.2 op) (fun _ _ => rfl) rs y

theorem allocateAll_ops (rs : List (Nat × Nat × Bool)) (op : Nat) (y : Tile) :
    (rs.foldl (fun x q => x.allocate q.1 q.2.1 q.2.2 op) y).ops = y.ops :=
  foldl_inv (P := Tile.ops) (f := fun x q => x.allocate q.1 q.2.1 q.2.2 op) (fun _ _ => rfl) rs y

theorem allocateAll_ctl (rs : List (Nat × Nat × Bool)) (op : Nat) (y : Tile) :
    (rs.foldl (fun x q => x.allocate q.1 q.2.1 q.2.2 op) y).ctl = y.ctl :=
  foldl_inv (P := Tile.ctl) (f := fun x q => x.allocate q.1 q.2.1 q.2.2 op) (fun _ _ => rfl) rs y

/-- A tile in which an asynchronous job starts, with an entry for each range. -/
def Tile.withAsync (u : JobSetup) (rs : List (Nat × Nat × Bool)) (x : Tile) : Tile :=
  rs.foldl (fun y q => y.allocate q.1 q.2.1 q.2.2 (takeDraws u x).ops)
    { takeDraws u x with ops := (takeDraws u x).ops + 1, vec := { (takeDraws u x).vec with
        asyncs := (takeDraws u x).vec.asyncs ++ [{ op := (takeDraws u x).ops, need := u.vcqNeed, vcq := [], setup := u }] } }

/-- Settles O14: the program is read from its row, the job starts, or its entries are taken. -/
theorem vectorOperationsStart : Obligations.VectorOperationsStart := by
  unfold Obligations.VectorOperationsStart
  intro s t w r h
  refine ⟨fun x u ho hz hrow hf hread => ?_, fun ho hz hl hrows => ?_, fun ho hz hl hlen he => ?_⟩
  · have hctl := State.readRow_ctl (s.opened r t) r t (rowField w) ((s.opened r t).site r .v t w).now ((s.opened r t).site r .v t w).mark t
    have hcyc := State.readRow_cycle (s.opened r t) r t (rowField w) ((s.opened r t).site r .v t w).now ((s.opened r t).site r .v t w).mark r
    rw [hread] at hctl hcyc
    refine congrArg Host.Outcome.next (slotOp_seq (op := 0x03) h ho (encoding_of_ok ho (zeroAt_of_eq hz)) ?_ (by simp [hctl]) hcyc)
    dsimp only [State.site_t, State.site_w, State.site_r]
    rw [readRowFault_of_lt hrow]
    dsimp only
    rw [rowCheck_of_free _ hf, hread]
    rfl
  · obtain ⟨V, f, hu, hseen, junk, hf⟩ := startJob_spec ((s.opened r t).site r .v t w)
      (jobSetup ((s.opened r t).site r .v t w) (reg3Of w) (s.opened r t)) (s.opened r t)
    obtain ⟨hmem, hcyc, hoth, hhere⟩ := State.modTile_seen hseen f
    obtain ⟨hctl, hjobs⟩ := hf (V.tile t)
    have hctl' := State.seen_field (t := t) hseen (fun x => x.ctl) fun _ => rfl
    have hlen' := State.seen_field (t := t) hseen (fun x => x.vec.jobs.length) fun _ => rfl
    rw [Tile.entered_ctl] at hctl
    refine ⟨_, junk, congrArg Host.Outcome.next (slotOp_seq (op := 0x04) h ho (encoding_of_ok ho (zeroAt_of_eq hz))
      ((if_neg (by simp [hl])).trans ((rowCheck_of_all _ hrows).trans (congrArg Act.ok hu)))
      ((congrArg (fun x => x.ctl.bundle) hhere).trans (congrArg Ctl.bundle (hctl.trans hctl'))) (hcyc r)),
      ⟨_, (Tile.entered_jobs _ _ _ _).trans hlen', (congrArg (fun x => x.vec.jobs) hhere).trans hjobs⟩,
      hmem.trans (State.opened_mem _ _ _), hoth⟩
  · have hbundle : ((((s.opened r t).tile t).withAsync (jobSetup ((s.opened r t).site r .v t w) (reg3Of w) (s.opened r t))
        ((jobSetup ((s.opened r t).site r .v t w) (reg3Of w) (s.opened r t)).begin_ ((s.opened r t).region r).cycle 0).ranges)).ctl.bundle =
        ((s.opened r t).tile t).ctl.bundle := by
      rw [Tile.withAsync, allocateAll_ctl, takeDraws_ctl]
    refine ⟨(s.opened r t).modTile t (Tile.withAsync (jobSetup ((s.opened r t).site r .v t w) (reg3Of w) (s.opened r t))
        ((jobSetup ((s.opened r t).site r .v t w) (reg3Of w) (s.opened r t)).begin_ ((s.opened r t).region r).cycle 0).ranges),
      congrArg Host.Outcome.next (slotOp_seq (op := 0x05) h ho (encoding_of_ok ho (zeroAt_of_eq hz))
        ((if_neg (by simp [hl])).trans ((if_neg (by simp; omega)).trans (entryCheck_of_le _ he))) ?_ ?_), ?_, ?_, rfl,
        (State.opened_mem _ _ _), fun q hq => by rw [State.tile_modTile, if_neg hq]⟩
    · rw [feedPort_bundle, modTile_bundle hbundle]
    · rw [feedPort_cycle]; rfl
    · rw [State.tile_modTile, if_pos rfl, Tile.withAsync, allocateAll_vec, takeDraws_asyncs, takeDraws_ops]
    · rw [State.tile_modTile, if_pos rfl, Tile.withAsync, allocateAll_ops, takeDraws_ops]

end Sys2Proof.Machine

namespace Sys2Proof.Machine
open Sys2Proof

/-! ### Channel events (10 R273 to R277) -/

theorem retryGate_of_none {r : RegionId} {t : TileId} {s : State} (h : (s.tile t).ctl.gate = none) : retryGate r t s = s := by
  unfold retryGate
  dsimp only
  rw [h]

theorem gatedChannelOperationsGoOn : Rules.GatedChannelOperationsGoOn := by
  intro s t r ch
  refine ⟨fun m hg => ⟨fun hst hc => ?_, fun hno => ?_⟩, fun d p pc hg => ⟨fun hst => ?_, fun hst => ?_⟩⟩
  all_goals
    unfold retryGate
    dsimp only
    rw [hg]
    dsimp only
  · exact if_pos ⟨hst, hc⟩
  · refine if_neg ?_
    rintro ⟨hst, hc⟩
    rcases hno with h | h
    · exact h hst
    · omega
  · exact if_pos hst
  · exact if_neg hst

/-- A channel reads as before where another tile's, or the same tile's, ports are changed. -/
theorem State.modRx_chan (s : State) (t u : TileId) (q : Nat) (f : RxPort → RxPort) (n : Nat) :
    ((s.modRx u q f).tile t).chan n = (s.tile t).chan n := by
  rw [State.modRx, State.tile_modTile]
  split
  · next h => rw [h]; rfl
  · rfl

/-- Two changes of a channel that agree on what it holds are one. -/
theorem State.modChan_congr {s : State} {t : TileId} {ch : BitVec 2} {f g : Chan → Chan}
    (h : f ((s.tile t).chan ch.toNat) = g ((s.tile t).chan ch.toNat)) : s.modChan t ch f = s.modChan t ch g := by
  unfold State.modChan State.modTile
  dsimp only
  rw [h]

theorem channelEvents : Rules.ChannelEvents := by
  intro s t ch r hmv
  refine ⟨fun hmid hst => ⟨fun hrank hb => ?_, fun hno => ?_⟩, fun m rest hmid hfl => ?_, fun hback hg => ?_,
      fun p src k hrx hmid hm hfl => ?_⟩
  · show execChanOpenRequest t ch s = _
    unfold execChanOpenRequest
    rw [hmv]
    dsimp only
    rw [if_neg (by simp [hmid, hst]), if_pos (by simp [hrank, hb])]
    refine congrArg (fun u => Host.Outcome.next (retryGate r t u)) (State.modChan_congr ?_)
    rw [State.modRx_chan, hst]
    rfl
  · show execChanOpenRequest t ch s = _
    unfold execChanOpenRequest
    rw [hmv]
    dsimp only
    rw [if_neg (by simp [hmid, hst]), if_neg ?_]
    rintro ⟨hrank, hb⟩
    rcases hno with h | ⟨b, h⟩
    · omega
    · rw [h] at hb; cases hb
  · show execChanMessageDelivery t ch s = _
    unfold execChanMessageDelivery
    rw [hmv]
    dsimp only
    rw [hfl]
    dsimp only
    rw [hmid]
    rfl
  · show execChanCreditReturn t ch s = _
    unfold execChanCreditReturn
    rw [hmv]
    dsimp only
    rw [if_pos hback, retryGate_of_none (by simpa [State.modChan] using hg)]
  · show execChanCloseMarker t p s = _
    unfold execChanCloseMarker
    rw [hmv]
    dsimp only
    rw [hrx]
    dsimp only
    rw [if_pos ⟨hmid, hm, hfl, rfl⟩]

/-- Settles O25: each event by what its channel, its port and its gate hold. -/
theorem channelEventsAct : Obligations.ChannelEventsAct := ⟨channelEvents, gatedChannelOperationsGoOn⟩

end Sys2Proof.Machine

namespace Sys2Proof.Machine
open Sys2Proof

/-! ### HALT_ENGAGE (03 R105) -/

/-- What of the state no change of a port touches: regions, tiles, objects, memory and the hub. -/
def State.offPort (s : State) : Tab Region × Tab Tile × Tab SyncObj × Mem × Hub := (s.regions, s.tiles, s.objs, s.mem, s.hub)

theorem State.offPort_eq {s u : State} (h : u.offPort = s.offPort) :
    u.regions = s.regions ∧ u.tiles = s.tiles ∧ u.objs = s.objs ∧ u.mem = s.mem ∧ u.hub = s.hub := by
  simpa only [State.offPort, Prod.mk.injEq] using h

/-- Dropping moves changes ports alone. -/
theorem dropMoves_offPort (r : RegionId) (gone : TxnKind × Txn → Bool) (s : State) :
    (dropMoves r gone s).offPort = s.offPort := by
  unfold dropMoves
  refine foldl_inv (P := State.offPort) (fun u p => ?_) _ _
  split
  · split <;> rfl
  · rfl

/-- Giving a mirror up changes the region's freewheel, and rows waiting in ports. -/
theorem fwAbandon_frame (r : RegionId) (all : Bool) (s : State) :
    (fwAbandon r all s).tiles = s.tiles ∧ (fwAbandon r all s).objs = s.objs ∧ (fwAbandon r all s).mem = s.mem ∧
      (fwAbandon r all s).hub = s.hub ∧ ∀ q, (fwAbandon r all s).region q =
        if q = r then { s.region r with fw := ((fwAbandon r all s).region r).fw } else s.region q := by
  obtain ⟨hreg, ht, ho, hm, hh⟩ := State.offPort_eq (dropMoves_offPort r isMirrorMove s)
  have hregion : ∀ q, (dropMoves r isMirrorMove s).region q = s.region q := State.region_of_regions hreg
  unfold fwAbandon
  dsimp only
  generalize dropMoves r isMirrorMove s = d at *
  split
  · refine ⟨by rw [State.modRegion_tiles, ht], by rw [State.modRegion_objs, ho], by rw [State.modRegion_mem, hm],
      by rw [State.modRegion_hub, hh], fun q => ?_⟩
    rw [State.region_modRegion, State.region_modRegion, hregion, hregion, if_pos rfl]
  · refine ⟨rfl, rfl, rfl, rfl, fun q => ?_⟩
    split
    · next h => rw [h]
    · rfl

/-- Settles O18: the region freezes, and its freewheel gives a mirror up that is not acknowledged. -/
theorem haltEngagesAfter24WallCycles : Obligations.HaltEngagesAfter24WallCycles := by
  unfold Obligations.HaltEngagesAfter24WallCycles
  intro s r w hw
  have hexec : exec (.haltEngage r) s = if w + 24 ≤ s.wall ∧ (s.region r).brake.halted = false then
      .next (fwAbandon r false (s.setRegion r { s.region r with brake := { (s.region r).brake with haltFrozen := true, halted := true } }))
      else .next s := by
    show execHaltEngage r s = _
    unfold execHaltEngage
    dsimp only
    rw [hw]
  refine ⟨fun hlt => ?_, fun hle hh => ?_⟩
  · rw [hexec, if_neg (by omega)]
  · obtain ⟨ht, ho, hm, hhub, hreg⟩ := fwAbandon_frame r false
      (s.setRegion r { s.region r with brake := { (s.region r).brake with haltFrozen := true, halted := true } })
    have here := (hreg r).trans (if_pos rfl)
    rw [State.region_setRegion, if_pos rfl] at here
    refine ⟨_, hexec.trans (if_pos ⟨hle, hh⟩), ?_, ?_, ?_, ?_, ht, ho, hm, hhub, fun q hq => ?_⟩
    · rw [here]; simp [Region.frozen]
    · rw [here]
    · rw [here]
    · rw [here]
    · rw [hreg, if_neg hq, State.region_setRegion, if_neg hq]

end Sys2Proof.Machine

namespace Sys2Proof.Machine
open Sys2Proof

/-! ### Rows that arrive (09 R235, R236, R240) -/

/-- A tile that moves between its bundles has no bundle open, and its region is not frozen. -/
theorem State.moving_some {s : State} {t : TileId} {r : RegionId} (h : s.moving t = some r) :
    s.between t = some r ∧ s.regionOf t = some r ∧ (s.region r).frozen = false := by
  unfold State.moving at h
  split at h
  · cases h
  · next q hq =>
    split at h
    · cases h
    · next hf =>
      obtain rfl := Option.some.inj h
      refine ⟨hq, ?_, by simpa using hf⟩
      unfold State.between at hq
      split at hq
      · cases hq
      · exact hq

/-- Two changes of a tile that agree on what it holds are one. -/
theorem State.modTile_congr {s : State} {t : TileId} {f g : Tile → Tile} (h : f (s.tile t) = g (s.tile t)) :
    s.modTile t f = s.modTile t g := by
  unfold State.modTile
  rw [h]

/-- The only armed receive, further on. -/
def Tile.armedAt (a : Armed) (k : Nat) (x : Tile) : Tile := { x with exch := { x.exch with armed := [{ a with done := k }] } }

theorem Tile.armedDone_of_one {x : Tile} {a : Armed} (h : x.exch.armed = [a]) (k : Nat) : x.armedDone a.at_ k = x.armedAt a k := by
  unfold Tile.armedDone Tile.armedAt
  dsimp only
  rw [h]
  simp

theorem compiledRowArrival_one {s : State} {t : TileId} {r : RegionId} (hmv : s.moving t = some r) {p : Packet}
    (hp : (s.region r).arrivals t (s.region r).cycle = [p]) : exec (.compiledRowArrival t) s =
      .next ((acceptRow r t (s.region r).cycle p s).modRegion r (fun h => h.dropArrivals t (s.region r).cycle)) := by
  obtain ⟨-, hr, hf⟩ := State.moving_some hmv
  show execCompiledRowArrival t s = _
  unfold execCompiledRowArrival
  rw [hr]
  dsimp only
  rw [if_neg (by simp [hf]), hp]
  rfl

/-- The receive armed for a cycle accepts the row that arrives in it. -/
theorem acceptRow_of_one {s : State} {t : TileId} {r : RegionId} {c : Nat} {p : Packet} {a : Armed} {k : Nat}
    (ha : (s.tile t).exch.armed = [a]) (hk : a.rowAt c = some k) (hd : a.done < k) : acceptRow r t c p s =
      if a.takes p k = false then (s.modTile t (Tile.armedAt a k)).raise r (some t) none fXunexpected (a.dest k + (p.src.toNat <<< 16))
      else if (s.tile t).receiveHeld a k then s.modTile t (Tile.armedAt a k)
      else match p.sig with
        | some o => (s.modTile t (Tile.armedAt a k)).modRegion r (fun g => { g with flights := g.flights ++
            [{ due := c + xvRows a.xv, obj := o, src := .tileSignal p.src, kind := .signal }] })
        | none => s.modTile t (Tile.armedAt a k) := by
  have hfind : (s.tile t).exch.armed.find? (fun a => (a.rowAt c).isSome && decide (a.done < (a.rowAt c).getD 0)) = some a := by
    rw [ha]
    simp [hk, hd]
  have hmod : s.modTile t (fun x => x.armedDone a.at_ k) = s.modTile t (Tile.armedAt a k) :=
    State.modTile_congr (Tile.armedDone_of_one ha k)
  unfold acceptRow
  dsimp only
  rw [hfind]
  dsimp only
  rw [hk]
  dsimp only [Option.getD_some]
  rw [hmod] <;> rfl

/-- The declaration of an item that is not a DMA's is the one its rows find. -/
theorem Tile.declOf_of_decl {x : Tile} {q : InRow} {d : Decl} (hq : q.decl = none) (hd : x.decl q.item = some d)
    (hdma : d.dma = false) : x.declOf q = some d := by
  unfold Tile.declOf
  rw [hq]
  dsimp only
  unfold Tile.decl at hd
  generalize x.exch.decls = l at hd
  induction l with
  | nil => cases hd
  | cons e l ih =>
    rw [List.find?_cons] at hd ⊢
    by_cases he : e.item = q.item
    · rw [show decide (e.item = q.item) = true by simp [he]] at hd
      obtain rfl := Option.some.inj hd
      simp [he, hdma]
    · rw [show decide (e.item = q.item) = false by simp [he]] at hd
      rw [show (e.item == q.item && !e.dma) = false by simp [he]]
      exact ih hd

/-- The only row for a tile is looked at once it is ready. -/
theorem lateItemRowWrite_one {s : State} {t : TileId} {r : RegionId} (hmv : s.moving t = some r) {q : InRow} {d : Decl}
    (hin : (s.region r).inRows = [q]) (hq : q.tile = t) (hn : q.decl = none) (hd : (s.tile t).decl q.item = some d)
    (hdma : d.dma = false) : exec (.lateItemRowWrite t q.item) s = .next
      (if d.n ≤ q.k then (takeInRow r t q s).raise r (some t) none fXunexpected ((d.row + q.k) % 1024)
      else if (s.tile t).granted q.who then noteInRow r t d q (writeLate r t d q.k q.data (takeInRow r t q s))
      else s) := by
  obtain ⟨hb, -, -⟩ := State.moving_some hmv
  have hof := Tile.declOf_of_decl hn hd hdma
  have hrows : (s.region r).rowsFor t = [q] := by simp [Region.rowsFor, hin, hq]
  have hready : (s.tile t).lateReady q = (decide (d.n ≤ q.k) || (s.tile t).granted q.who) := by
    unfold Tile.lateReady
    rw [hof]
  show execLateItemRowWrite t q.item s = _
  unfold execLateItemRowWrite
  rw [hb]
  dsimp only
  rw [hrows]
  by_cases hk : d.n ≤ q.k
  · rw [List.find?_cons_of_pos (by simp [hready, hk]), if_pos hk]
    dsimp only
    rw [hof]
    exact if_pos hk
  · rw [if_neg hk]
    cases hg : (s.tile t).granted q.who with
    | false =>
      rw [List.find?_cons_of_neg (by simp [hready, hk, hg])]
      rfl
    | true =>
      rw [List.find?_cons_of_pos (by simp [hready, hg])]
      dsimp only
      rw [hof]
      exact if_neg hk

/-- A row of an item that is not widened and not undefined is written in its place. -/
theorem writeLate_plain {r : RegionId} {t : TileId} {d : Decl} {k : Nat} {data : Row} {s : State}
    (hw : xvWiden d.xv = false) (hj : d.junk = false) :
    ∃ f : Tile → Tile, writeLate r t d k data s = (s.writeFree t (d.row + k) data).modTile t f ∧ ∀ x, (f x).tm = x.tm := by
  have hwid : d.widens = false := by simp [Decl.widens, hw]
  have hscales : ∃ v, d.scales r t s = (v, none, s) := by
    unfold Decl.scales
    split
    · exact ⟨_, rfl⟩
    · rw [hwid]; exact ⟨0, rfl⟩
  obtain ⟨v, hv⟩ := hscales
  have hrows : lateRows d t v k data = ([(d.row + k, data)], Events.none_) := by
    unfold lateRows
    rw [hwid]
    rfl
  unfold writeLate
  dsimp only
  rw [hv]
  dsimp only
  rw [hrows, hj]
  refine ⟨_, rfl, ?_⟩
  exact fun _ => rfl

@[simp] theorem itemSignal_of_none {r : RegionId} {t : TileId} {q : InRow} {s : State} (h : q.sig = none) :
    itemSignal r t q s = s := by
  unfold itemSignal
  rw [h]

theorem State.modLane_region (s : State) (p : PortId) (v : Lane) (f : LaneSt → LaneSt) (r : RegionId) :
    (s.modLane p v f).region r = s.region r := rfl

/-- What a row with no signal notes is its port. -/
theorem noteInRow_plain {r : RegionId} {t : TileId} {d : Decl} {q : InRow} {s : State} (hn : q.decl = none) (hs : q.sig = none) :
    ∃ f : Tile → Tile, noteInRow r t d q s = s.modTile t f ∧ ∀ x, (f x).tm = x.tm := by
  unfold noteInRow
  rw [hn, itemSignal_of_none hs]
  refine ⟨_, if_neg (by simp), ?_⟩
  exact fun _ => rfl

/-- A row taken out of its buffer: its request is gone, its space is freed. -/
theorem takeInRow_frame {r : RegionId} {t : TileId} {q : InRow} {s : State} (hn : q.decl = none) (hin : (s.region r).inRows = [q]) :
    ((takeInRow r t q s).region r).inRows = [] ∧ (takeInRow r t q s).mem = s.mem ∧
      ((takeInRow r t q s).tile t).tm = (s.tile t).tm ∧ ∀ z, z ≠ t → (takeInRow r t q s).tile z = s.tile z := by
  unfold takeInRow
  dsimp only
  rw [hn]
  have hfree : ∀ v : State, (v.region r).inRows = [q] → ((freeInRow r q v).region r).inRows = [] ∧ (freeInRow r q v).mem = v.mem ∧
      ∀ z, (freeInRow r q v).tile z = v.tile z := by
    intro v hv
    unfold freeInRow
    dsimp only
    split
    · refine ⟨?_, rfl, fun z => rfl⟩
      rw [State.modLane_region, State.region_modRegion, if_pos rfl, hv]
      simp
    · refine ⟨?_, rfl, fun z => rfl⟩
      rw [State.region_modRegion, if_pos rfl, hv]
      simp
  obtain ⟨h1, h2, h3⟩ := hfree (s.modTile t (fun x => x.dropReq q.who)) hin
  refine ⟨h1, h2, ?_, fun z hz => ?_⟩
  · show ((freeInRow r q _).tile t).tm = _
    rw [h3, State.tile_modTile, if_pos rfl]
    rfl
  · show (freeInRow r q _).tile z = _
    rw [h3, State.tile_modTile, if_neg hz]

/-- A row changed alone. -/
theorem Tile.row_of_tm {x y : Tile} {n : Nat} {v : Row} (h : y.tm = x.tm.put n v) (hw : x.tm.wf = true) :
    y.row n = v ∧ ∀ k, k ≠ n → y.row k = x.row k := by
  unfold Tile.row
  rw [h]
  refine ⟨Cells.get_put_same hw n v, fun k hk => ?_⟩
  rw [Cells.get_put _ _ _ _ 0 hw, if_neg hk]

/-- Settles O26: one row, one receive or one declaration at a time. -/
theorem rowsArriveOrFault : Obligations.RowsArriveOrFault := by
  unfold Obligations.RowsArriveOrFault
  intro s t r hmv
  refine ⟨fun p hp => ⟨fun ha => ?_, fun a k ha hk hd ht hs => ?_, fun a k ha hk hd ht => ?_⟩, fun a ha hd hc hno => ?_,
    fun q d hin hq hn hdecl hdma => ⟨fun hk => ?_, fun hk hg => ?_, fun hk hg hw hj hs htm => ?_⟩⟩
  · rw [compiledRowArrival_one hmv hp]
    have : acceptRow r t (s.region r).cycle p s = s.raise r (some t) none fXunexpected (p.srcRow % 1024 + (p.src.toNat <<< 16)) := by
      unfold acceptRow
      dsimp only
      rw [ha]
      rfl
    rw [this]
  · rw [compiledRowArrival_one hmv hp, acceptRow_of_one ha hk hd, if_neg (by simp [ht]), hs]
    dsimp only
    rw [ite_self]
    rfl
  · rw [compiledRowArrival_one hmv hp, acceptRow_of_one ha hk hd, if_pos ht]
    rfl
  · obtain ⟨-, hr, hf⟩ := State.moving_some hmv
    have hmissed : (s.region r).missed (s.tile t) t = [a] := by simp [Region.missed, ha, hd, hc, hno]
    show execArmedReceiveMissed t s = _
    unfold execArmedReceiveMissed
    rw [hr]
    dsimp only
    rw [if_neg (by simp [hf]), hmissed]
    dsimp only [List.foldl]
    rw [State.modTile_congr (Tile.armedDone_of_one ha (a.done + 1))]
    rfl
  · rw [lateItemRowWrite_one hmv hin hq hn hdecl hdma, if_pos hk]
  · rw [lateItemRowWrite_one hmv hin hq hn hdecl hdma, if_neg (by omega), hg]
    rfl
  · obtain ⟨f, hf, hfm⟩ := writeLate_plain (r := r) (t := t) (k := q.k) (data := q.data) (s := takeInRow r t q s) hw hj
    obtain ⟨h1, h2, h3, h4⟩ := takeInRow_frame (t := t) hn hin
    obtain ⟨e, he, hem⟩ := noteInRow_plain (r := r) (t := t) (d := d) (s := writeLate r t d q.k q.data (takeInRow r t q s)) hn hs
    have hu := lateItemRowWrite_one hmv hin hq hn hdecl hdma
    rw [if_neg (by omega), hg, if_pos rfl, he, hf] at hu
    have hrow := Tile.row_of_tm (x := s.tile t) (n := d.row + q.k) (v := q.data)
      (y := ((((takeInRow r t q s).writeFree t (d.row + q.k) q.data).modTile t f).modTile t e).tile t) (by
        rw [State.tile_modTile, if_pos rfl, hem, State.tile_modTile, if_pos rfl, hfm, State.writeFree, State.tile_modTile, if_pos rfl,
          Tile.setRow, h3]) htm
    refine ⟨_, hu, h1, h2, hrow.1, hrow.2, fun z hz => ?_⟩
    rw [State.tile_modTile, if_neg hz, State.tile_modTile, if_neg hz, State.writeFree, State.tile_modTile, if_neg hz, h4 z hz]

end Sys2Proof.Machine

namespace Sys2Proof.Machine
open Sys2Proof

/-! ### DMAs complete and scoreboard entries clear (11 R300; 02 R77) -/

section
variable {s : State} {t : TileId} {r : RegionId} {d : Dma} (hb : s.between t = some r)
  (hf : (s.tile t).dmas.find? (fun e => e.id == d.id) = some d)
include hb hf

/-- A translated DMA that nothing bars is performed, or ends at a stale unit. -/
theorem dmaComplete_eq {pas : List Nat} (hp : d.pas = some pas) (he : (s.tile t).earlier d = false)
    (hh : (s.region r).brake.haltFrozen = false) (hd : d.op = .rd → d.data = none) : exec (.dmaComplete t d.id) s =
      match d.staleUnit s with
      | some u => .next ((s.modDma t d.id (fun _ => none)).raise r (some t) (some (.x, d.pc)) fStaleUnit u)
      | none => .next (performDma r t d pas s) := by
  have hread : (d.op == .rd && d.data.isSome) = false := by
    by_cases h : d.op = .rd
    · simp [hd h]
    · simp [h]
  show execDmaComplete t d.id s = _
  unfold execDmaComplete
  rw [hb, hf]
  dsimp only
  rw [hp]
  dsimp only
  rw [if_neg (by simp [he, hh, hread])] <;> rfl

/-- An entry of the DMA whose bank cycles have come is served. -/
theorem scoreboardClear_granted {e : BitVec 4} {en : SbEntry} (hs : (s.tile t).sb.find e.toNat = some en) (ho : en.op = d.id)
    (hg : (s.tile t).opGranted d.id = true) : exec (.scoreboardClear t e) s =
      match d.op, d.data with
      | .rd, some rows => .next (clearOp r t d.id ((rows.zipIdx.foldl (fun s q => s.writeFree t (d.row + q.2) q.1) (dropOp t d.id s)).modDma t
          d.id (fun _ => none)))
      | .rd, none => .next (dropOp t d.id s)
      | _, some _ => .next (dropOp t d.id s)
      | _, none =>
        if d.pas.isNone then .next (dropOp t d.id s)
        else match captureRows r t (some (.x, d.pc)) ((List.range d.n).map (fun k => d.row + k)) (dropOp t d.id s) with
          | ((some (row, w), _), s) =>
            .next ((s.modDma t d.id (fun _ => none)).raise r (some t) (some (.x, d.pc)) fTmemPoison (row + (w <<< 16)))
          | ((none, rows), s) => .next (clearOp r t d.id (s.modDma t d.id (fun d => some { d with data := some rows }))) := by
  show execScoreboardClear t e s = _
  unfold execScoreboardClear
  rw [hb, hs]
  dsimp only
  rw [ho, if_neg (by simp [hg]), hf] <;> rfl

omit hf in
theorem scoreboardClear_waits {e : BitVec 4} {en : SbEntry} (hs : (s.tile t).sb.find e.toNat = some en) (ho : en.op = d.id)
    (hg : (s.tile t).opGranted d.id = false) : exec (.scoreboardClear t e) s = .next s := by
  show execScoreboardClear t e s = _
  unfold execScoreboardClear
  rw [hb, hs]
  dsimp only
  rw [ho, if_pos hg]

end

theorem dmasMoveTheirRows : Rules.DmasMoveTheirRows := by
  intro s t r d hb
  refine fun hf => ⟨fun pas hp he hh => ⟨fun n hs hd => ?_, fun hs => ⟨fun ho hd hm => ?_, fun l ho hd hm => ?_, fun rows ho hd => ?_,
    fun rows u ho hd ha => ?_, fun ho => ?_⟩⟩, fun e en hsb hop => ⟨fun hg => ?_, fun hg => ⟨fun rows ho hd => ?_,
    fun ho hd hp => ⟨fun rows u ht => ?_, fun row word rows u ht => ?_⟩⟩⟩⟩
  · rw [dmaComplete_eq hb hf hp he hh hd, hs]
  · rw [dmaComplete_eq hb hf hp he hh (fun _ => hd), hs, performDma, ho]
    dsimp only
    rw [show dmaRows s.mem pas = (none, pas.map s.mem.readRow) from Prod.ext hm rfl]
  · rw [dmaComplete_eq hb hf hp he hh (fun _ => hd), hs, performDma, ho]
    dsimp only
    rw [show dmaRows s.mem pas = (some l, pas.map s.mem.readRow) from Prod.ext hm rfl]
  · rw [dmaComplete_eq hb hf hp he hh (by simp [ho]), hs, performDma, ho]
    dsimp only
    rw [hd]
  · rw [dmaComplete_eq hb hf hp he hh (by simp [ho]), hs, performDma, ho]
    dsimp only
    rw [hd]
    dsimp only
    rw [ha]
  · rw [dmaComplete_eq hb hf hp he hh (by simp [ho]), hs, performDma, ho]
  · exact scoreboardClear_waits hb hsb hop hg
  · rw [scoreboardClear_granted hb hf hsb hop hg, ho, hd]
  · rw [scoreboardClear_granted hb hf hsb hop hg, hd]
    rcases ho with ho | ho
    all_goals
      rw [ho]
      dsimp only
      rw [if_neg (by simp [Option.isSome_iff_ne_none.1 hp]), ht]
  · rw [scoreboardClear_granted hb hf hsb hop hg, hd]
    rcases ho with ho | ho
    all_goals
      rw [ho]
      dsimp only
      rw [if_neg (by simp [Option.isSome_iff_ne_none.1 hp]), ht]

/-! ### Errors, sweeps and temperature (11 R303 to R309) -/

/-- A line poisoned is met first by a read of it alone. -/
theorem poisonedAt_poisonLine (m : Mem) (line : Nat) : (m.poisonLine line).poisonedAt (line * 64) 64 = some (line * 64) := by
  have hcount : (line * 64 + 64 + 63) / 64 - line * 64 / 64 = 1 := by omega
  have hline : line * 64 / 64 = line := by omega
  unfold Mem.poisonedAt
  rw [hcount, hline]
  simp [Mem.poisonLine]

section
variable {s : State} {addr : BitVec 40} (hc : (chanOf addr.toNat).isSome = true)
include hc

theorem memReadRetry_corrected (ok : Bool) (t : Option TileId) :
    exec (.memReadRetry addr ok t .corrected) s = .next (countCe addr.toNat s) := by
  show execMemReadRetry addr ok t s .corrected = _
  unfold execMemReadRetry
  dsimp only
  rw [if_neg (by simp [Option.isSome_iff_ne_none.1 hc]), if_pos rfl]

/-- A retry that succeeds is counted for the owner of the channel. -/
theorem memReadRetry_ok (t : Option TileId) : exec (.memReadRetry addr true t .uncorrectable) s =
    match s.chanOwner addr.toNat with
    | some r => .next (s.modRegion r (fun g => { g with mem := { g.mem with retry := Word.satAdd g.mem.retry 1 } }))
    | none => .next s := by
  show execMemReadRetry addr true t s .uncorrectable = _
  unfold execMemReadRetry
  dsimp only
  rw [if_neg (by simp [Option.isSome_iff_ne_none.1 hc]), if_neg (by simp), if_pos rfl] <;> rfl

/-- A line that fails and that no DMA reads is charged to the owner of its channel. -/
theorem memReadRetry_failed {r : RegionId} (hr : s.chanOwner addr.toNat = some r) :
    exec (.memReadRetry addr false none .uncorrectable) s =
      .next (({ s with mem := s.mem.poisonLine (addr.toNat / 64) } : State).raise r none none fMemUe addr.toNat) := by
  show execMemReadRetry addr false none s .uncorrectable = _
  unfold execMemReadRetry
  dsimp only
  rw [if_neg (by simp [Option.isSome_iff_ne_none.1 hc]), if_neg (by simp), if_neg (by simp), hr]

/-- A line that fails under a DMA ends it. -/
theorem memReadRetry_dma {t : TileId} {r : RegionId} {d : Dma} (hr : s.regionOf t = some r)
    (hd : (s.tile t).dmas.find? (fun d => (d.pas.getD []).any (fun pa =>
      decide (pa / 64 ≤ addr.toNat / 64) && decide (addr.toNat / 64 < (pa + 512) / 64))) = some d) :
    exec (.memReadRetry addr false (some t) .uncorrectable) s =
      .next ((({ s with mem := s.mem.poisonLine (addr.toNat / 64) } : State).modDma t d.id (fun _ => none)).raise r (some t)
        (some (.x, d.pc)) fMemUe addr.toNat) := by
  show execMemReadRetry addr false (some t) s .uncorrectable = _
  unfold execMemReadRetry
  dsimp only
  rw [if_neg (by simp [Option.isSome_iff_ne_none.1 hc]), if_neg (by simp), if_neg (by simp),
    show ({ s with mem := s.mem.poisonLine (addr.toNat / 64) } : State).regionOf t = some r from hr]
  dsimp only [State.tile] at hd ⊢
  rw [hd]

theorem patrolScrub_eq (found : ReadErr) : exec (.patrolScrub addr found) s =
    match found with
    | .clean => .next s
    | .corrected => .next (countCe addr.toNat s)
    | .uncorrectable => .next { s with mem := s.mem.poisonLine (addr.toNat / 64) } := by
  show execPatrolScrub addr found s = _
  unfold execPatrolScrub
  rw [if_neg (by simp [Option.isSome_iff_ne_none.1 hc])] <;> rfl

end

/-- What a corrected error counts for: the region that owns the channel. -/
theorem countCe_owned {s : State} {a : Nat} {r : RegionId} (h : s.chanOwner a = some r) :
    countCe a s = s.modRegion r (fun g => { g with mem := { g.mem with ce := Word.satAdd g.mem.ce 1 } }) := by
  unfold countCe
  rw [h]

theorem countCe_free {s : State} {a : Nat} (h : s.chanOwner a = none) :
    countCe a s = { s with mem := { s.mem with provCe := Word.satAdd s.mem.provCe 1 } } := by
  unfold countCe
  rw [h]

theorem memoryErrorsAndSweeps : Rules.MemoryErrorsAndSweeps := by
  intro s addr hc
  refine ⟨fun r hr => ⟨fun t => ?_, memReadRetry_failed hc hr, fun ok t => ?_, ?_⟩, fun hr => ⟨fun ok t => ?_, fun t => ?_, ?_⟩,
    fun t r d ht hd => memReadRetry_dma hc ht hd, fun ok t => ?_, patrolScrub_eq hc _, patrolScrub_eq hc _,
    poisonedAt_poisonLine _ _, fun page hp => ⟨if_pos hp, ?_, fun a => rfl⟩, fun m hm => if_neg (by simpa using hm), fun m => rfl⟩
  · rw [memReadRetry_ok hc, hr]
  · rw [memReadRetry_corrected hc, countCe_owned hr]
  · rw [patrolScrub_eq hc, countCe_owned hr]
  · rw [memReadRetry_corrected hc, countCe_free hr]
  · rw [memReadRetry_ok hc, hr]
  · rw [patrolScrub_eq hc, countCe_free hr]
  · exact if_pos (.inr rfl)
  · simp [Mem.marked, Mem.touch]

/-- Settles O29: a DMA by its kind and what it has; an error by what is found and whose the line is. -/
theorem dmasMoveRowsAndErrorsAreHandled : Obligations.DmasMoveRowsAndErrorsAreHandled := ⟨dmasMoveTheirRows, memoryErrorsAndSweeps⟩

end Sys2Proof.Machine

namespace Sys2Proof.Machine
open Sys2Proof

/-! ### Units and code blocks (01 R41 to R43; 02 R65) -/

/-- A unit comes back with the owner and the epoch it is brought with. -/
theorem bringRecord_get (k : Nat) (owner : RegionId) (epoch : Word) (s : State) :
    Tab.get UnitRec.reset (bringRecord k owner epoch s).units k =
      { Tab.get UnitRec.reset s.units k with owner := some owner, epoch := epoch } := by
  simp [bringRecord]

/-- A unit that comes back with the present epoch of its region is in service. -/
theorem compareUnit_same {cls idx : Nat} {r : RegionId} {epoch : Word} {s : State} {k : Nat} (hk : recordKey cls idx r = k)
    (he : epoch = (s.region r).epoch) : compareUnit cls idx r (bringRecord k r epoch s) = bringRecord k r epoch s := by
  unfold compareUnit
  dsimp only
  rw [hk, bringRecord_get]
  exact if_pos ⟨rfl, he⟩

/-- A unit's record, quarantined. -/
def State.apart (s : State) (k : Nat) : State :=
  { s with units := s.units.put k { Tab.get UnitRec.reset s.units k with quarantined := true } }

/-- One that comes back with another owner or epoch is quarantined. -/
theorem compareUnit_apart {cls idx : Nat} {r owner : RegionId} {epoch : Word} {s : State} {k : Nat} (hk : recordKey cls idx r = k)
    (he : ¬ (owner = r ∧ epoch = (s.region r).epoch)) :
    compareUnit cls idx r (bringRecord k owner epoch s) =
      if (s.region r).st = .granted ∧ (s.region r).brake.halted = false then
        (((bringRecord k owner epoch s).apart k).regionEvent r 2).raise r none none fStaleUnit (cls + (idx <<< 8))
      else ((bringRecord k owner epoch s).apart k).regionEvent r 2 := by
  have happart : ¬ ((Tab.get UnitRec.reset (bringRecord k owner epoch s).units k).owner = some r ∧
      (Tab.get UnitRec.reset (bringRecord k owner epoch s).units k).epoch = (s.region r).epoch) := by
    rw [bringRecord_get]
    rintro ⟨ho, hep⟩
    exact he ⟨Option.some.inj ho, hep⟩
  unfold compareUnit
  dsimp only
  rw [hk]
  exact if_neg happart

section
variable {s : State} {cls : BitVec 8} {idx : BitVec 16} {owner : RegionId} {epoch : Word} (h1 : 1 ≤ cls.toNat) (h6 : cls.toNat ≤ 6)
include h1 h6

/-- A unit that no region claims is parked. -/
theorem unitReturn_unclaimed (hc : s.claimants cls.toNat idx.toNat = []) : exec (.unitReturn cls idx owner epoch) s =
    .next (parkUnit (recordKey cls.toNat idx.toNat owner) (bringRecord (recordKey cls.toNat idx.toNat owner) owner epoch s)) := by
  show execUnitReturn cls idx s owner epoch = _
  unfold execUnitReturn
  dsimp only
  rw [hc, if_neg (by omega)]
  by_cases hcol : cls.toNat = 1
  · rw [if_pos hcol, recordKey, if_pos hcol]
    rfl
  · rw [if_neg hcol, recordKey, if_neg hcol]

/-- A unit of one region is compared, unless it is a column of another. -/
theorem unitReturn_claimed {r : RegionId} (hc : s.claimants cls.toNat idx.toNat = [r]) : exec (.unitReturn cls idx owner epoch) s =
    .next (if cls.toNat = 1 ∧ owner ≠ r then
        parkUnit (recordKey cls.toNat idx.toNat owner) (bringRecord (recordKey cls.toNat idx.toNat owner) owner epoch s)
      else compareUnit cls.toNat idx.toNat r (bringRecord (recordKey cls.toNat idx.toNat owner) owner epoch s)) := by
  show execUnitReturn cls idx s owner epoch = _
  unfold execUnitReturn
  dsimp only
  rw [hc, if_neg (by omega)]
  by_cases hcol : cls.toNat = 1
  · rw [if_pos hcol, recordKey, if_pos hcol]
    by_cases ho : owner = r
    · subst ho
      rw [if_pos (by simp), if_neg (by simp)]
    · rw [if_neg (by simpa using ho), if_pos ⟨hcol, ho⟩]
  · rw [if_neg hcol, recordKey, if_neg hcol, if_neg (fun h => hcol h.1)]
    rfl

end

theorem unitsAreComparedAndReloaded : Rules.UnitsAreComparedAndReloaded := by
  intro s cls idx r owner epoch h1 h6
  refine ⟨fun hc => ⟨unitReturn_unclaimed h1 h6 hc, ?_⟩, fun hc => ⟨fun hcol ho => ?_, fun ho he => ?_, fun hcol hap => ?_, fun hq => ?_,
    fun hq => ?_⟩⟩
  · show execUnitReload cls idx s = _
    unfold execUnitReload
    rw [hc]
    rfl
  · rw [unitReturn_claimed h1 h6 hc, if_pos ⟨hcol, ho⟩]
  · subst ho
    rw [unitReturn_claimed h1 h6 hc, if_neg (by simp), compareUnit_same rfl he]
  · have hk : recordKey cls.toNat idx.toNat r = recordKey cls.toNat idx.toNat owner := by
      by_cases h : cls.toNat = 1
      · rw [hcol h]
      · simp [recordKey, h]
    rw [unitReturn_claimed h1 h6 hc, if_neg (fun h => h.2 (hcol h.1)), compareUnit_apart hk hap]
    simp only [hk]
    exact ⟨fun hst => by rw [if_neg (fun h => hst h.1)]; rfl, fun hst hh => by rw [if_pos ⟨hst, hh⟩]; rfl⟩
  · show execUnitReload cls idx s = _
    unfold execUnitReload
    rw [hc]
    exact congrArg Host.Outcome.next (if_pos hq)
  · show execUnitReload cls idx s = _
    unfold execUnitReload
    rw [hc]
    exact congrArg Host.Outcome.next (if_neg (by simp [hq]))

/-- A walk that finds its address leaves the tiles as they are. -/
theorem engineWalk_tiles {s u : State} {r : RegionId} {va kind pa : Nat} (h : s.engineWalk r va kind = (some pa, u)) :
    u.tiles = s.tiles := by
  unfold State.engineWalk at h
  split at h
  · next p v hv =>
    simp only [Prod.mk.injEq, Option.some.injEq] at h
    obtain ⟨rfl, rfl⟩ := h
    exact (translationsAreCached s _ r va kind _ hv).2.2.2.2.2
  · cases h

theorem codeBlocksAreDelivered : Rules.CodeBlocksAreDelivered := by
  intro s u r slot t q b rest pa hq hleft hh hw hp hst
  have htile : u.tile t = s.tile t := State.tile_of_tiles (engineWalk_tiles hw) t
  have hexec : exec (.codeLoadBlock r slot t) s =
      if (s.tile t).takesCode q.desc.obj then
        (if rest.isEmpty then
          .next (if q.again then startDesc r slot.toNat (endDesc r slot.toNat q.desc (u.modTile t (fun x => x.writeBlock b (u.mem.readRow pa))))
            else endDesc r slot.toNat q.desc (u.modTile t (fun x => x.writeBlock b (u.mem.readRow pa))))
        else .next ((u.modTile t (fun x => x.writeBlock b (u.mem.readRow pa))).modRegion r (fun g =>
          { g with running := g.running.put slot.toNat { q with left := rest } })))
      else .next (u.raise r (some t) none fCodeload b) := by
    show execCodeLoadBlock r slot t s = _
    unfold execCodeLoadBlock
    rw [hq]
    dsimp only
    rw [hleft, List.find?_cons_of_pos (by simp [hh])]
    dsimp only
    rw [hw]
    dsimp only
    rw [hp, hst]
    dsimp only
    rw [htile, List.erase_cons_head]
  rw [hexec]
  refine ⟨fun ht => ⟨fun hr => ?_, fun hr ha => ?_⟩, fun ht => ?_⟩
  · rw [if_pos ht, if_neg (by simpa using hr)]
  · rw [if_pos ht, if_pos (by simp [hr]), if_neg (by simp [ha])]
  · rw [if_neg (by simp [ht])]

/-- Settles O30: a unit by what it comes back with, a block by what its tile may take. -/
theorem unitsAndCodeBlocksAreChecked : Obligations.UnitsAndCodeBlocksAreChecked := ⟨unitsAreComparedAndReloaded, codeBlocksAreDelivered⟩

end Sys2Proof.Machine

namespace Sys2Proof.Machine
open Sys2Proof

/-! ### The scrubber (02 R72 to R75) -/

theorem passDue_eq {s : State} {w : Nat} (h : s.tilesAt = some w) : s.passDue = decide (s.scrubPass * 2 ^ 29 ≤ s.wall - w) := by
  simp [State.passDue, State.scrubClock, h]

/-- A second upset of a thing that is upset makes it a double error. -/
theorem mem_addUpset_twice {α : Type} {same : α → Bool} {one two : α} {l : List α} (h1 : same one = true) (h2 : same two = true)
    (d : Bool) : two ∈ addUpset same one two d (addUpset same one two d l) := by
  have hany : (addUpset same one two d l).any same = true := by
    unfold addUpset
    rw [List.any_cons]
    split <;> simp [h1, h2]
  rw [addUpset, if_pos (by simp [hany])]
  exact List.mem_cons_self

/-- Falling behind leaves the counts of a tile's scrubber as they are. -/
theorem fallBehind_late (l : List Nat) (pass : Nat) (h : TileHw) : (l.foldl (fun h b => h.fallBehind pass b) h).late = h.late :=
  foldl_inv (P := TileHw.late) (f := fun h b => h.fallBehind pass b) (fun _ _ => rfl) l h

/-- What hazards of starved banks leave alone. -/
theorem hazards_frame (l : List Nat) (r : RegionId) (t : TileId) (c : Nat) (s : State) :
    let u := l.foldl (fun s b => s.hazard r t none c b) s
    u.hw = s.hw ∧ u.mem = s.mem ∧ u.objs = s.objs ∧ u.tiles = s.tiles := by
  have h := foldl_inv (P := fun u : State => (u.hw, u.mem, u.objs, u.tiles)) (f := fun (s : State) b => s.hazard r t none c b)
    (fun u b => by simp) l s
  simpa only [Prod.mk.injEq] using h

/-- What the end of a scrubber window leaves alone, and the scrubber it leaves. -/
theorem endWindow_frame (t : TileId) (s : State) (hw : (s.tileHw t).window + 1 = s.windowNo) (h0 : (s.tileHw t).window ≠ 0) :
    ((endWindow t s).tileHw t).window = s.windowNo ∧ (endWindow t s).mem = s.mem ∧ (endWindow t s).objs = s.objs ∧
      (endWindow t s).tiles = s.tiles ∧ ((endWindow t s).tileHw t).late =
        if (s.starvedBanks t (s.windowNo - 1)).isEmpty then (s.tileHw t).late
        else if (s.tileHw t).late = 0xFFFF then 0xFFFF else (s.tileHw t).late + 1 := by
  unfold endWindow
  dsimp only
  rw [if_pos ⟨hw, h0⟩]
  generalize hv : s.modHw t _ = v
  have hvhw : (v.tileHw t).window = s.windowNo ∧ (v.tileHw t).late =
      if (s.starvedBanks t (s.windowNo - 1)).isEmpty then (s.tileHw t).late
      else if (s.tileHw t).late = 0xFFFF then 0xFFFF else (s.tileHw t).late + 1 := by
    rw [← hv, State.tileHw_modHw, if_pos rfl]
    dsimp only
    rw [fallBehind_late]
    refine ⟨rfl, ?_⟩
    split
    · rfl
    · split
      · next hmax => exact hmax
      · rfl
  have hvrest : v.mem = s.mem ∧ v.objs = s.objs ∧ v.tiles = s.tiles := by
    rw [← hv]
    exact ⟨rfl, rfl, rfl⟩
  obtain ⟨hmem, hobjs, htiles⟩ := hvrest
  split
  · next r _ =>
    obtain ⟨h1, h2, h3, h4⟩ := hazards_frame (s.starvedBanks t (s.windowNo - 1)) r t hScrubStarved v
    have hhw : ((s.starvedBanks t (s.windowNo - 1)).foldl (fun s b => s.hazard r t none hScrubStarved b) v).tileHw t = v.tileHw t := by
      unfold State.tileHw
      rw [h1]
    rw [hhw]
    exact ⟨hvhw.1, h2.trans hmem, h3.trans hobjs, h4.trans htiles, hvhw.2⟩
  · exact ⟨hvhw.1, hmem, hobjs, htiles, hvhw.2⟩

/-- Settles O31: passes by the clock, rows by the window, upsets by what is upset already. -/
theorem theScrubberWalksAndWritesBack : Obligations.TheScrubberWalksAndWritesBack := by
  unfold Obligations.TheScrubberWalksAndWritesBack
  intro s t
  refine ⟨fun w hw => ⟨fun hle => ?_, fun hlt => ?_⟩, fun hn => ?_, fun h pass win b hp h0 => ⟨fun hlt => ?_, fun hle => ?_⟩,
    fun tm pm hwin => ?_, fun x row word hrow => ?_, fun x n high => mem_addUpset_twice (by simp) (by simp) _,
    fun hover h0 hnext => ?_, fun row hrow => ?_⟩
  · refine congrArg Host.Outcome.next (if_pos ?_)
    rw [passDue_eq hw]
    exact decide_eq_true hle
  · refine congrArg Host.Outcome.next (if_neg ?_)
    rw [passDue_eq hw]
    simpa using hlt
  · exact congrArg Host.Outcome.next (if_neg (by simp [State.passDue, State.scrubClock, hn]))
  · simp only [TileHw.walkRow, if_neg hp, Nat.sub_zero]
    rw [if_neg (by omega)]
  · simp only [TileHw.walkRow, if_neg hp, Nat.sub_zero]
    rw [if_pos (by omega)]
  · exact congrArg Host.Outcome.next (if_neg (ne_true_of_eq_false hwin))
  · simp only [Tile.struck, List.foldl, Tile.upset, if_pos hrow]
    exact mem_addUpset_twice (by simp) (by simp) _
  · have hexec : exec (.scrubWindow t [] []) s = .next (endWindow t (s.modTile t (fun x => x))) :=
      congrArg Host.Outcome.next (if_pos hover)
    obtain ⟨hw, hmem, hobjs, htiles, hlate⟩ := endWindow_frame t (s.modTile t (fun x => x)) hnext h0
    refine ⟨_, hexec, hw, hmem, hobjs, ?_, fun hs => ?_, fun hs => ?_⟩
    · rw [State.tile_of_tiles htiles, State.tile_modTile, if_pos rfl]
    · rw [hlate]
      exact if_pos (List.isEmpty_iff.2 hs)
    · rw [hlate]
      exact if_neg (fun h => hs (List.isEmpty_iff.1 h))
  · dsimp only
    unfold rewriteRow
    rw [hrow]
    simp

end Sys2Proof.Machine

namespace Sys2Proof.Machine
open Sys2Proof

/-! ### The array in time (05 R137, R141) -/

theorem mdPeriod_pos (d : BitVec 128) : 0 < mdPeriod d := by
  have : 0 < mdStretch d := by unfold mdStretch; split <;> omega
  exact Nat.mul_pos (by omega) this

/-- The group at a cycle is the one whose cycle it is. -/
theorem groupAt_eq_some {p : Pass} {c after g : Nat} :
    p.groupAt c after = some g ↔ c = p.first + after + g * mdPeriod p.md ∧ g < mdGroups p.md := by
  have hpos := mdPeriod_pos p.md
  unfold Pass.groupAt
  dsimp only
  constructor
  · intro h
    split at h
    · cases h
    · next hc =>
      split at h
      · next hq =>
        obtain rfl := Option.some.inj h
        have hdiv := Nat.div_add_mod' (c - (p.first + after)) (mdPeriod p.md)
        exact ⟨by omega, hq.2⟩
      · cases h
  · rintro ⟨rfl, hg⟩
    rw [if_neg (by omega), Nat.add_sub_cancel_left, Nat.mul_mod_left, Nat.mul_div_cancel _ hpos, if_pos ⟨rfl, hg⟩]

theorem mem_diagonal {rows n i j : Nat} : (i, j) ∈ diagonal rows n ↔ i < rows ∧ j < 32 ∧ i + j = n := by
  unfold diagonal
  simp only [List.mem_filterMap, List.mem_range]
  constructor
  · rintro ⟨k, hk, h⟩
    split at h
    · simp only [Option.some.injEq, Prod.mk.injEq] at h
      omega
    · cases h
  · rintro ⟨hi, hj, rfl⟩
    refine ⟨i, hi, ?_⟩
    rw [if_pos ⟨by omega, by omega⟩, Nat.add_sub_cancel_left]

theorem cellsTakeTheirGroups : Rules.CellsTakeTheirGroups := by
  intro p rows c i j g
  have hpos := mdPeriod_pos p.md
  have hmul : (g + 1) * mdPeriod p.md = g * mdPeriod p.md + mdPeriod p.md := Nat.succ_mul _ _
  have hcell : (i, j, g) ∈ p.updates rows c ↔
      ∃ n < rows + 31, p.groupAt c (updateLag p.md 0 n) = some g ∧ (i, j) ∈ diagonal rows n := by
    unfold Pass.updates
    rw [List.mem_flatMap]
    refine exists_congr fun n => ?_
    rw [List.mem_range]
    refine and_congr_right fun _ => ?_
    cases hg : p.groupAt c (updateLag p.md 0 n) with
    | none => simp
    | some k =>
      simp only [List.mem_map, Prod.mk.injEq, Option.some.injEq]
      constructor
      · rintro ⟨⟨a, b⟩, hd, rfl, rfl, rfl⟩
        exact ⟨rfl, hd⟩
      · rintro ⟨rfl, hd⟩
        exact ⟨(i, j), hd, rfl, rfl, rfl⟩
  rw [hcell]
  simp only [groupAt_eq_some, mem_diagonal, updateLag]
  constructor
  · rintro ⟨n, -, ⟨hc, hg⟩, hi, hj, rfl⟩
    exact ⟨hi, hj, hg, by omega⟩
  · rintro ⟨hi, hj, hg, hc⟩
    exact ⟨i + j, by omega, ⟨by omega, hg⟩, hi, hj, rfl⟩

/-! ### Passes, drains and jobs end -/

theorem unitsEndTheirWork : Rules.UnitsEndTheirWork := by
  intro s t r hmv
  refine ⟨fun p hp => ?_, fun d hd hn => ?_, fun j hj => ?_, fun j hj => ⟨fun hg => ?_, fun hg => ⟨fun jb u hu => ?_,
      fun jb c e u hu => ?_⟩⟩⟩
  · have hexec : exec (.matrixPassComplete t) s = .next (s.setTile t { s.tile t with matrix := { (s.tile t).matrix with
        passes := (s.tile t).matrix.passes.filter (fun p => !p.complete (gearRows ((s.region r).gear t)) (s.region r).cycle) } }) := by
      show execMatrixPassComplete t s = _
      unfold execMatrixPassComplete
      rw [hmv]
      rfl
    rw [hexec, hp]
    constructor
    · intro hlt
      rw [List.filter_cons_of_pos (by simpa [Pass.complete] using hlt), List.filter_nil, ← hp]
    · intro hle
      rw [List.filter_cons_of_neg (by simpa [Pass.complete] using hle), List.filter_nil]
  · have hexec : exec (.drainComplete t) s = .next (s.setTile t
        (((s.tile t).matrix.drains.filter (fun d => !d.noted && decide (d.job.ends ≤ (s.region r).cycle))).foldl (fun y d => y.jobOver d.job)
          { s.tile t with matrix := { (s.tile t).matrix with drains := (s.tile t).matrix.drains.map (fun d =>
            if d.job.ends ≤ (s.region r).cycle then { d with noted := true } else d) } })) := by
      show execDrainComplete t s = _
      unfold execDrainComplete
      rw [hmv]
    rw [hexec, hd]
    constructor
    · intro hlt
      rw [List.filter_cons_of_neg (by simp [hlt]), List.filter_nil, List.map_singleton, if_neg (by omega), ← hd]
      rfl
    · intro hle
      rw [List.filter_cons_of_pos (by simp [hn, hle]), List.filter_nil, List.map_singleton, if_pos hle]
      rfl
  · have hexec : exec (.vectorJobEnd t) s = .next (s.setTile t
        (((s.tile t).vec.jobs.filter (fun j => decide (j.ends ≤ (s.region r).cycle))).foldl Tile.jobOver
          { s.tile t with vec := { (s.tile t).vec with jobs := (s.tile t).vec.jobs.filter (fun j =>
            !decide (j.ends ≤ (s.region r).cycle)) } })) := by
      show execVectorJobEnd t s = _
      unfold execVectorJobEnd
      rw [hmv]
    rw [hexec, hj]
    constructor
    · intro hlt
      rw [List.filter_cons_of_pos (by simpa using hlt), List.filter_cons_of_neg (by simpa using hlt), List.filter_nil,
          List.filter_nil, ← hj]
      rfl
    · intro hle
      rw [List.filter_cons_of_neg (by simpa using hle), List.filter_cons_of_pos (by simpa using hle), List.filter_nil, List.filter_nil]
      rfl
  all_goals
    show execAsyncJobComplete t 0 s = _
    unfold execAsyncJobComplete
    rw [hmv]
    dsimp only
    rw [show (s.tile t).vec.asyncs[(0 : BitVec 1).toNat]? = some j from hj]
    dsimp only
  · rw [if_pos hg]
  · rw [if_neg (by simp [hg]), hu]
  · rw [if_neg (by simp [hg]), hu]

/-- Settles O32: a cell takes a group in one cycle, and work ends in the cycle the schedule gives. -/
theorem passesDrainsAndJobsComplete : Obligations.PassesDrainsAndJobsComplete := ⟨cellsTakeTheirGroups, unitsEndTheirWork⟩

end Sys2Proof.Machine

namespace Sys2Proof.Machine
open Sys2Proof

/-! ### The slots of a frame (12 R316 to R321) -/

@[simp] theorem Port.send_sentFlit (x : Port) (f : Flit) : (x.send f).sentFlit = f := by
  unfold Port.send
  dsimp only
  split <;> rfl

theorem Port.ackField_lt (x : Port) : x.ackField < 65536 := by
  have := x.rxSeq.isLt
  unfold Port.ackField
  split <;> omega

/-- A payload too long is cut. -/
theorem mkFlit_payload (type vl seq ack payload : Nat) : mkFlit type vl seq ack payload = mkFlit type vl seq ack (payload % 2 ^ 1952) := by
  unfold mkFlit
  rw [Nat.mod_mod]

theorem flType_ctrl (ack : Nat) (h : ack < 65536) (payload : Nat) : flType (mkFlit tCtrl 0 0 ack payload) = tCtrl := by
  rw [mkFlit_payload]
  exact flType_mkFlit (by decide) (by decide) (by decide) h (Nat.mod_lt _ (Nat.two_pow_pos _))

/-- A state that differs from `s` in port `p` alone. -/
structure OnPort (p : PortId) (q : Port) (s u : State) : Prop where
  port : u.port p = q
  regions : u.regions = s.regions
  tiles : u.tiles = s.tiles
  mem : u.mem = s.mem
  other : ∀ k, k ≠ p → u.port k = s.port k

theorem OnPort.refl (p : PortId) (s : State) : OnPort p (s.port p) s s := ⟨rfl, rfl, rfl, rfl, fun _ _ => rfl⟩

theorem OnPort.mod {p : PortId} {q q' : Port} {s u : State} (h : OnPort p q s u) (f : Port → Port) (hf : f q = q') :
    OnPort p q' s (u.modPort p f) where
  port := by rw [State.port_modPort, if_pos rfl, h.port, hf]
  regions := by rw [State.modPort_regions, h.regions]
  tiles := by rw [State.modPort_tiles, h.tiles]
  mem := by rw [State.modPort_mem, h.mem]
  other k hk := by rw [State.port_modPort, if_neg hk, h.other k hk]

/-- A sequenced flit is kept and leaves the port. -/
theorem OnPort.emitSeq {p : PortId} {q : Port} {s u : State} (h : OnPort p q s u) (type vl payload : Nat) :
    OnPort p (({ q with buf := q.buf ++ [(q.txSeq, mkFlit type vl q.txSeq.toNat q.ackField payload)], txSeq := q.txSeq + 1 } : Port).send
      (mkFlit type vl q.txSeq.toNat q.ackField payload)) s (emitSeq p type vl payload u) := by
  unfold Machine.emitSeq emit
  dsimp only
  rw [h.port]
  exact (h.mod _ rfl).mod _ rfl

/-- What a slot after the first does in a running port. -/
theorem sendSlot_of_running {p : PortId} {frac : BitVec 10} {s : State} (hr : (s.port p).running = true) (h0 : (s.port p).slot ≠ 0) :
    sendSlot p frac s = match (s.port p).resend with
      | (q, f) :: rest =>
        emit p (mkFlit (flType f) (flVl f) q.toNat (s.port p).ackField (flAt f 8 244))
          ((s.modPort p (fun x => { x with slot := (x.slot + 1) % 65 })).modPort p (fun x => { x with resend := rest }))
      | [] =>
        if 512 ≤ (s.port p).buf.length then
          emit p (mkFlit tHold 0 0 (s.port p).ackField 0) (s.modPort p (fun x => { x with slot := (x.slot + 1) % 65 }))
        else match slotLane ((s.frame.vlShare.drop (8 * p.toNat)).take 8) ((s.port p).slot - 1) 0 8 with
          | some v => sendLane p v (s.modPort p (fun x => { x with slot := (x.slot + 1) % 65 }))
          | none => emitSeq p tIdle 0 0 (s.modPort p (fun x => { x with slot := (x.slot + 1) % 65 })) := by
  unfold sendSlot
  dsimp only
  rw [if_neg (by simp [hr]), if_neg h0]
  rfl

/-- A lane that is not held gives the next 244 bytes it has. -/
theorem fillLane_of_long {p : PortId} {v : Lane} {s : State} (hh : s.partHeld p v = false) (hl : 244 ≤ ((s.port p).lane v).part.length) :
    fillLane p v 64 [] s = (((s.port p).lane v).part.take 244,
    s.modLane p v (fun l => { l with part := ((s.port p).lane v).part.drop 244 })) := by
  have hne : ((s.port p).lane v).part.isEmpty = false := by
    rw [List.isEmpty_eq_false_iff, ← List.length_pos_iff]
    omega
  have hfull : (([] : List Byte) ++ ((s.port p).lane v).part.take 244).length = 244 := by simp [hl]
  rw [fillLane]
  dsimp only [List.length_nil, Nat.sub_zero]
  rw [if_neg (by omega), if_neg (by simp [hne]), if_neg (by simp [hh]), fillLane]
  exact if_pos (by rw [hfull])

/-- A lane whose part-sent row is held gives nothing. -/
theorem fillLane_of_held {p : PortId} {v : Lane} {s : State} (hh : s.partHeld p v = true) (hne : ((s.port p).lane v).part ≠ []) :
    fillLane p v 64 [] s = ([], s) := by
  rw [fillLane]
  dsimp only [List.length_nil, Nat.sub_zero]
  rw [if_neg (by omega), if_neg (by simpa using hne), if_pos hh]

/-- A lane that gives nothing has IDLE sent. -/
theorem sendLane_of_nil {p : PortId} {v : Lane} {s : State} (h : ¬ ((s.port p).st = .up ∧ s.resets.warm = false) ∨
    fillLane p v 64 [] s = ([], s)) : sendLane p v s = emitSeq p tIdle 0 0 s := by
  have hq : (if (s.port p).st = .up ∧ s.resets.warm = false then fillLane p v 64 [] s else ([], s)) = ([], s) := by
    rcases h with h | h
    · exact if_neg h
    · rw [h, ite_self]
  unfold sendLane
  rw [hq]
  rfl

/-- A lane that gives bytes has them sent. -/
theorem sendLane_of_long {p : PortId} {v : Lane} {s : State} (hst : (s.port p).st = .up) (hw : s.resets.warm = false)
    (hh : s.partHeld p v = false) (hl : 244 ≤ ((s.port p).lane v).part.length) :
    sendLane p v s = emitSeq p tData v.toNat (leNat (((s.port p).lane v).part.take 244))
      (s.modLane p v (fun l => { l with part := ((s.port p).lane v).part.drop 244 })) := by
  have hne : (((s.port p).lane v).part.take 244).isEmpty = false := by
    rw [List.isEmpty_eq_false_iff, ← List.length_pos_iff, List.length_take]
    omega
  have hq : (if (s.port p).st = .up ∧ s.resets.warm = false then fillLane p v 64 [] s else ([], s)) =
      (((s.port p).lane v).part.take 244, s.modLane p v (fun l => { l with part := ((s.port p).lane v).part.drop 244 })) := by
    rw [if_pos ⟨hst, hw⟩, fillLane_of_long hh hl]
  unfold sendLane
  rw [hq]
  exact if_neg (by simp [hne])

/-- Whether a row is held does not depend on the slot. -/
theorem partHeld_of_slot (s : State) (p : PortId) (v : Lane) :
    (s.modPort p (fun x => { x with slot := (x.slot + 1) % 65 })).partHeld p v = s.partHeld p v := by
  unfold State.partHeld
  rw [State.port_modPort, if_pos rfl]
  rfl

/-- Settles O34: the slot's flit by the port's state, its resends, what it keeps, and what its lane has. -/
theorem slotsSendTheirFlit : Obligations.SlotsSendTheirFlit := by
  unfold Obligations.SlotsSendTheirFlit
  intro s p frac
  have hturn : OnPort p { s.port p with slot := ((s.port p).slot + 1) % 65 } s (s.modPort p (fun x => { x with slot := (x.slot + 1) % 65 })) :=
    (OnPort.refl p s).mod _ rfl
  have hsent : ∀ {q : Port} {u : State}, sendSlot p frac s = u → OnPort p q s u → ∃ u : State, exec (.frameSlotSend p frac) s = .next u ∧
      u.port p = q ∧ u.regions = s.regions ∧ u.tiles = s.tiles ∧ u.mem = s.mem ∧ ∀ k, k ≠ p → u.port k = s.port k :=
    fun he h => ⟨_, congrArg Host.Outcome.next he, h.port, h.regions, h.tiles, h.mem, h.other⟩
  refine ⟨fun hr => congrArg Host.Outcome.next (if_pos hr), fun hr => ⟨fun h0 => ⟨?_, ?_⟩, fun h0 => ⟨fun q f rest hres => ?_,
    fun hres hb => ?_, fun hres hb => ⟨fun hst => ?_, fun v hst hw hl => ⟨fun hh hlen => ?_, fun hh hne => ?_⟩⟩⟩⟩⟩
  · refine congrArg Host.Outcome.next ((if_neg (by simp [hr])).trans (if_pos h0))
  · unfold sendCtrl emit
    dsimp only
    rw [State.port_modPort, if_pos rfl, Port.send_sentFlit]
    exact flType_ctrl _ (Port.ackField_lt _) _
  all_goals
    have hslot := sendSlot_of_running (frac := frac) hr h0
    rw [hres] at hslot
    dsimp only at hslot
  · exact hsent hslot ((hturn.mod _ rfl).mod _ rfl)
  · rw [if_pos hb] at hslot
    exact hsent hslot (hturn.mod _ rfl)
  · rw [if_neg (by omega)] at hslot
    have hlane : ∀ v, sendLane p v (s.modPort p (fun x => { x with slot := (x.slot + 1) % 65 })) =
        emitSeq p tIdle 0 0 (s.modPort p (fun x => { x with slot := (x.slot + 1) % 65 })) := by
      intro v
      refine sendLane_of_nil (.inl ?_)
      rw [hturn.port]
      rintro ⟨hup, hwarm⟩
      rcases hst with hst | hst
      · exact hst hup
      · exact nomatch hst.symm.trans hwarm
    split at hslot
    · rw [hlane] at hslot
      exact hsent hslot (hturn.emitSeq _ _ _)
    · exact hsent hslot (hturn.emitSeq _ _ _)
  · rw [if_neg (by omega), hl] at hslot
    have hport := hturn.port
    have hturned : OnPort p _ s ((s.modPort p (fun x => { x with slot := (x.slot + 1) % 65 })).modLane p v (fun l =>
      { l with part := ((s.port p).lane v).part.drop 244 })) := hturn.mod _ rfl
    refine hsent (hslot.trans (sendLane_of_long (by rw [hport]; exact hst) hw (by rw [partHeld_of_slot]; exact hh) (by rw [hport]; exact hlen))) ?_
    rw [hport]
    exact hturned.emitSeq _ _ _
  · rw [if_neg (by omega), hl] at hslot
    refine hsent (hslot.trans (sendLane_of_nil (.inr (fillLane_of_held (by rw [partHeld_of_slot]; exact hh) ?_)))) (hturn.emitSeq _ _ _)
    rw [hturn.port]
    exact hne

end Sys2Proof.Machine

namespace Sys2Proof.Machine
open Sys2Proof

/-! ### Transactions received (12 R329 to R333) -/

@[simp] theorem popTxn_region (p : PortId) (v : Lane) (s : State) (r : RegionId) : (popTxn p v s).region r = s.region r := rfl

@[simp] theorem popTxn_obj (p : PortId) (v : Lane) (s : State) (o : BitVec 16) : (popTxn p v s).obj o = s.obj o := rfl

@[simp] theorem popTxn_admits (p : PortId) (v : Lane) (t : Txn) (s : State) : (popTxn p v s).admits p v t = s.admits p v t := rfl

section
variable {s : State} {p : PortId} {v : Lane} {t : Txn} {rest : List Txn} (hq : ((s.port p).lane v).rxq = t :: rest)
include hq

theorem headTxn_of_waits (hw : s.laneWaits p v = true) (want : Txn → Bool) : s.headTxn p v want = none := by
  unfold State.headTxn
  rw [hq]
  simp [hw]

theorem headTxn_of_want {want : Txn → Bool} (hw : s.laneWaits p v = false) (hc : want t = true) : s.headTxn p v want = some t := by
  unfold State.headTxn
  rw [hq]
  simp [hw, hc]

theorem headTxn_of_code {c : Nat} (hw : s.laneWaits p v = false) (hc : t.code = c) : s.headTxn p v (isCode c) = some t :=
  headTxn_of_want hq hw (by simp [isCode, hc])

theorem perform_of_waits (hw : s.laneWaits p v = true) (want : Txn → Bool) (act : RegionId → Txn → State → State) :
    perform p v want act s = s := by
  unfold perform
  rw [headTxn_of_waits hq hw]

theorem perform_of_none {c : Nat} (hw : s.laneWaits p v = false) (hc : t.code = c) (ha : s.admits p v t = none)
    (act : RegionId → Txn → State → State) : perform p v (isCode c) act s = dropTxn p v t (popTxn p v s) := by
  unfold perform
  rw [headTxn_of_code hq hw hc]
  dsimp only
  rw [popTxn_admits, ha]

theorem perform_of_want {want : Txn → Bool} {r : RegionId} (hw : s.laneWaits p v = false) (hc : want t = true)
    (ha : s.admits p v t = some r) (act : RegionId → Txn → State → State) :
    perform p v want act s = freeUnits p v t.units (act r t (popTxn p v s)) := by
  unfold perform
  rw [headTxn_of_want hq hw hc]
  dsimp only
  rw [popTxn_admits, ha]

theorem perform_of_some {c : Nat} {r : RegionId} (hw : s.laneWaits p v = false) (hc : t.code = c) (ha : s.admits p v t = some r)
    (act : RegionId → Txn → State → State) : perform p v (isCode c) act s = freeUnits p v t.units (act r t (popTxn p v s)) :=
  perform_of_want hq hw (by simp [isCode, hc]) ha act

theorem rowWr_of_waits (hw : s.laneWaits p v = true) : exec (.rowWr p v) s = .next s := by
  show execRowWr p v s = _
  unfold execRowWr
  rw [headTxn_of_waits hq hw]

theorem rowWr_of_none (hw : s.laneWaits p v = false) (hc : t.code = 1) (ha : s.admits p v t = none) :
    exec (.rowWr p v) s = .next (dropTxn p v t (popTxn p v s)) := by
  show execRowWr p v s = _
  unfold execRowWr
  rw [headTxn_of_code hq hw hc]
  dsimp only
  rw [popTxn_admits, ha]

end

/-- A request within one page is one piece. -/
theorem pieces_of_le {va n : Nat} (h : va % 0x200000 + n ≤ 0x200000) : pieces va n = [(va, n)] := by
  unfold pieces
  dsimp only
  rw [if_pos (by omega)]

section
variable {r : RegionId} {p : PortId} {dev : BitVec 16} {kind va n pa : Nat} {a u : State}

theorem translatePieces_one (h : a.translate r va kind = (.ok pa, u)) :
    translatePieces r p dev kind [(va, n)] a = (some [(pa, n)], u) := by
  rw [translatePieces, h]
  rfl

theorem translatePieces_fault {code detail : Nat} (h : a.translate r va kind = (.fault code detail, u)) :
    translatePieces r p dev kind [(va, n)] a =
      (none, rejectMem r p dev va kind code detail ((u.latchWalk r va code).raise r none none code detail)) := by
  rw [translatePieces, h]

theorem performPieces_write (h : u.staleAt pa = none) (b : List Byte) :
    performPieces r none [(pa, n)] b u = { u with mem := u.mem.write pa (b.take n) } := by
  rw [performPieces, h]
  rfl

theorem performPieces_acc {bf16 : Bool} {w : State} {b : List Byte} (h : u.staleAt pa = none)
    (ha : u.accumulate r bf16 pa (b.take n) = (none, w)) : performPieces r (some bf16) [(pa, n)] b u = w := by
  rw [performPieces, h]
  dsimp only
  rw [ha]
  rfl

end

/-- An arrival is refused by what its object, its region's releases and the cycle say. -/
theorem arriveRefused_touch (r : RegionId) (o q : BitVec 16) (s : State) : arriveRefused r o (touch r q s) = arriveRefused r o s := by
  have hreg : ((touch r q s).region r).releases = (s.region r).releases ∧ ((touch r q s).region r).cycle = (s.region r).cycle := by
    rw [touch, State.region_modRegion, if_pos rfl]
    exact ⟨rfl, rfl⟩
  have hobj : (touch r q s).obj o = s.obj o := rfl
  simp only [arriveRefused, Region.countCycle, hobj, hreg.1, hreg.2]

section
variable {r : RegionId} {p : PortId} {t : Txn} {a : State} (act : BitVec 16 → SigSrc → State → State)

theorem barrierMessage_foreign (h : (a.region r).ownsObj (BitVec.ofNat 16 (t.arg 0 16)).toNat = false) :
    barrierMessage p act r t a = misuse r (BitVec.ofNat 16 (t.arg 0 16)) (.remote t.sdev p) a := if_pos h

theorem barrierMessage_tag (h : (a.region r).ownsObj (BitVec.ofNat 16 (t.arg 0 16)).toNat = true)
    (ht : t.arg 32 32 ≠ (a.region r).tag.toNat) :
    barrierMessage p act r t a = tagFault r (BitVec.ofNat 16 (t.arg 0 16)) (t.arg 32 32) a :=
  (if_neg (ne_false_of_eq_true h)).trans (if_pos ht)

theorem barrierMessage_reaches (h : (a.region r).ownsObj (BitVec.ofNat 16 (t.arg 0 16)).toNat = true)
    (ht : t.arg 32 32 = (a.region r).tag.toNat) : barrierMessage p act r t a =
      reach r (BitVec.ofNat 16 (t.arg 0 16)) (.remote t.sdev p) (act (BitVec.ofNat 16 (t.arg 0 16)) (.remote t.sdev p)) a :=
  (if_neg (ne_false_of_eq_true h)).trans (if_neg (not_not_intro ht))

end

/-- What an operation does at an object whose block is not quarantined. -/
theorem reach_of_fit {r : RegionId} {o : BitVec 16} {a : State} (src : SigSrc) (k : State → State) (h : a.stale 2 (o.toNat / 256) = false) :
    reach r o src k a = k (touch r o a) := if_neg (ne_true_of_eq_false h)

/-- What an arrival from a port does at its object. -/
def childAct (p : PortId) (r : RegionId) (t : Txn) (o : BitVec 16) (src : SigSrc) (s : State) : State :=
  if arriveRefused r o s || decide (16 ≤ (s.obj o).children.length) then misuse r o src s
  else arrive r o src none none (s.setObj o
    { s.obj o with children := (s.obj o).children ++ [{ port := p, dev := t.sdev, obj := BitVec.ofNat 16 (t.arg 16 16) }] })

/-- What a release from a port does at its object. -/
def parentAct (r : RegionId) (o : BitVec 16) (src : SigSrc) (s : State) : State :=
  if (s.obj o).bar = false then misuse r o src s
  else releaseBarrier r o (s.region r).countCycle (s.setObj o ((s.obj o).stamp s src))

section
variable {s : State} {p : PortId} {v : Lane} {t : Txn} {rest : List Txn} {r : RegionId} (hq : ((s.port p).lane v).rxq = t :: rest)
  (hw : s.laneWaits p v = false) (ha : s.admits p v t = some r)
include hq hw ha

theorem barArr_of_some (hc : t.code = 5) :
    exec (.barArr p v) s = .next (freeUnits p v t.units (barrierMessage p (childAct p r t) r t (popTxn p v s))) :=
  congrArg Host.Outcome.next (perform_of_some hq hw hc ha _)

theorem barRel_of_some (hc : t.code = 6) :
    exec (.barRel p v) s = .next (freeUnits p v t.units (barrierMessage p (parentAct r) r t (popTxn p v s))) :=
  congrArg Host.Outcome.next (perform_of_some hq hw hc ha _)

end

section
variable {r : RegionId} {o : BitVec 16} {p : PortId} {v : Lane} {t : Txn} {s : State} (src : SigSrc)

/-- A barrier's arrival from a port, where the object takes it: the child is recorded. -/
theorem childAct_of_taken (h : arriveRefused r o s = false) (hch : (s.obj o).children.length < 16) :
    childAct p r t o src (touch r o (popTxn p v s)) = arrive r o src none none ((touch r o (popTxn p v s)).setObj o { s.obj o with
      children := (s.obj o).children ++ [{ port := p, dev := t.sdev, obj := BitVec.ofNat 16 (t.arg 16 16) }] }) := by
  have href : arriveRefused r o (touch r o (popTxn p v s)) = false := (arriveRefused_touch r o o _).trans h
  have hlen : decide (16 ≤ ((touch r o (popTxn p v s)).obj o).children.length) = false := decide_eq_false (Nat.not_le_of_lt hch)
  unfold childAct
  rw [href, hlen]
  exact if_neg Bool.false_ne_true

theorem touch_countCycle (a : State) : ((touch r o a).region r).countCycle = (a.region r).cycle := by
  rw [touch, State.region_modRegion, if_pos rfl]
  rfl

/-- A barrier's release from a port. -/
theorem parentAct_of_bar (h : (s.obj o).bar = true) : parentAct r o src (touch r o (popTxn p v s)) =
    releaseBarrier r o (s.region r).cycle ((touch r o (popTxn p v s)).setObj o ((s.obj o).stamp s src)) := by
  unfold parentAct
  rw [touch_countCycle]
  exact if_neg (ne_false_of_eq_true h)

end

/-- Settles O37: by what the lane's head is, what its region admits, and whose the object is. -/
theorem transactionsActOnTheirRegion : Obligations.TransactionsActOnTheirRegion := by
  unfold Obligations.TransactionsActOnTheirRegion
  intro s p v t rest hq
  refine ⟨fun hw => ⟨?_, ?_, rowWr_of_waits hq hw⟩, fun hst => ?_, fun hw ha => ⟨fun hc => rowWr_of_none hq hw hc ha,
      fun hc => ?_, fun hc => ?_,
    fun hc => ?_, fun hc => ?_, fun hc => ?_, fun hc => ?_, fun hc => ?_⟩, fun r hw ha => ⟨fun hc hr => ?_, fun va pa u hva hpage =>
      ⟨fun hc htr hst => ?_, fun w hc htr hst hacc => ?_, fun code detail hc htr => ?_⟩, fun hc => ?_,
      fun _ ho => ⟨fun hc => ?_, fun hc => ?_⟩,
      fun ho ht => ⟨fun hc => ?_, fun hc => ?_⟩, fun ho ht => ⟨fun hc hfit hno hch => ?_, fun hc hfit hbar => ?_, fun hc hfit => ?_⟩,
      fun hc => ?_, fun hc => ?_⟩⟩
  · exact congrArg Host.Outcome.next (perform_of_waits hq hw _ _)
  · exact congrArg Host.Outcome.next (perform_of_waits hq hw _ _)
  · unfold State.admits
    split
    · rfl
    · exact if_pos hst
  iterate 7 exact congrArg Host.Outcome.next (perform_of_none hq hw hc ha _)
  · show execRowWr p v s = _
    unfold execRowWr
    rw [headTxn_of_code hq hw hc]
    dsimp only
    rw [popTxn_admits, ha]
    exact if_pos hr
  · subst hva
    refine congrArg Host.Outcome.next ((perform_of_some hq hw hc ha _).trans (congrArg _ ?_))
    unfold remoteMem
    rw [pieces_of_le hpage]
    dsimp only
    rw [show (if false = true then kAcc else kWrite) = kWrite from rfl, translatePieces_one htr]
    exact performPieces_write hst _
  · subst hva
    refine congrArg Host.Outcome.next ((perform_of_some hq hw hc ha _).trans (congrArg _ ?_))
    unfold remoteMem
    rw [pieces_of_le hpage]
    dsimp only
    rw [show (if true = true then kAcc else kWrite) = kAcc from rfl, translatePieces_one htr]
    exact performPieces_acc hst hacc
  · subst hva
    refine congrArg Host.Outcome.next ((perform_of_some hq hw hc ha _).trans (congrArg _ ?_))
    unfold remoteMem
    rw [pieces_of_le hpage]
    dsimp only
    rw [show (if false = true then kAcc else kWrite) = kWrite from rfl, translatePieces_fault htr]
  · exact congrArg Host.Outcome.next (perform_of_some hq hw hc ha _)
  · rw [barArr_of_some hq hw ha hc, barrierMessage_foreign (a := popTxn p v s) _ ho]
  · rw [barRel_of_some hq hw ha hc, barrierMessage_foreign (a := popTxn p v s) _ ho]
  · rw [barArr_of_some hq hw ha hc, barrierMessage_tag (a := popTxn p v s) _ ho ht]
  · rw [barRel_of_some hq hw ha hc, barrierMessage_tag (a := popTxn p v s) _ ho ht]
  · rw [barArr_of_some hq hw ha hc, barrierMessage_reaches (a := popTxn p v s) _ ho ht,
        reach_of_fit (a := popTxn p v s) _ _ hfit, childAct_of_taken _ hno hch]
  · rw [barRel_of_some hq hw ha hc, barrierMessage_reaches (a := popTxn p v s) _ ho ht,
        reach_of_fit (a := popTxn p v s) _ _ hfit, parentAct_of_bar _ hbar]
  · rw [barRel_of_some hq hw ha hc, barrierMessage_reaches (a := popTxn p v s) _ ho ht]
    exact congrArg (fun u => Host.Outcome.next (freeUnits p v t.units u)) (if_pos (eq_true_of_ne_false hfit))
  · exact congrArg Host.Outcome.next (perform_of_some hq hw hc ha _)
  · exact congrArg Host.Outcome.next (perform_of_some hq hw hc ha _)

end Sys2Proof.Machine

namespace Sys2Proof.Machine
open Sys2Proof

/-! ### Moves of the derailleur and the freewheel -/

section
variable {s : State} {p : PortId} {v : Lane} {t : Txn} {rest : List Txn} {r : RegionId} (hq : ((s.port p).lane v).rxq = t :: rest)
  (hw : s.laneWaits p v = false) (ha : s.admits p v t = some r) (hc : t.code = 9)
include hq hw ha hc

theorem drlPerform {done : Bool} (h1 : t.flags.testBit 1 = false) (h0 : t.flags.testBit 0 = done) (act : RegionId → Txn → State → State) :
    perform p v (isDrl done) act s = freeUnits p v t.units (act r t (popTxn p v s)) :=
  perform_of_want hq hw (by simp [isDrl, hc, h1, h0]) ha act

theorem takeMove_eq {k : MoveKind} (h1 : t.flags.testBit 1 = true) (hk : moveKind t.flags = k) (act : RegionId → Txn → State → State) :
    takeMove k p v act s = freeUnits p v t.units
      (if (s.region r).takesMove p t && decide (t.flags < 64) then act r t (popTxn p v s) else fwDrop r (popTxn p v s)) :=
  perform_of_want hq hw (by simp [isMove, hc, h1, hk]) ha _

theorem takeMove_of_refused {k : MoveKind} (h1 : t.flags.testBit 1 = true) (hk : moveKind t.flags = k)
    (hr : (s.region r).takesMove p t = false) (act : RegionId → Txn → State → State) :
    takeMove k p v act s = freeUnits p v t.units (fwDrop r (popTxn p v s)) := by
  rw [takeMove_eq hq hw ha hc h1 hk act, hr]
  exact congrArg _ (if_neg Bool.false_ne_true)

theorem takeMove_of_taken {k : MoveKind} (h1 : t.flags.testBit 1 = true) (h64 : t.flags < 64) (hk : moveKind t.flags = k)
    (hr : (s.region r).takesMove p t = true) (act : RegionId → Txn → State → State) :
    takeMove k p v act s = freeUnits p v t.units (act r t (popTxn p v s)) := by
  rw [takeMove_eq hq hw ha hc h1 hk act, hr]
  exact congrArg _ (if_pos (decide_eq_true h64))

theorem drlMove_eq (h1 : t.flags.testBit 1 = false) (h0 : t.flags.testBit 0 = false) : exec (.drlMove p v) s =
    .next (freeUnits p v t.units (
      if (s.region r).drl.strange t then drlDrop r eDigest (popTxn p v s)
      else if (s.region r).drl.scrSize < t.arg 0 32 * 64 + t.len ∨ t.len = 0 ∨ t.len % 64 ≠ 0 then drlDrop r eRange (popTxn p v s)
      else { popTxn p v s with mem := (popTxn p v s).mem.write ((s.region r).drl.scrBase + t.arg 0 32 * 64) t.data })) :=
  congrArg Host.Outcome.next (drlPerform hq hw ha hc h1 h0 _)

theorem drlMoveDone_eq (h1 : t.flags.testBit 1 = false) (h0 : t.flags.testBit 0 = true) : exec (.drlMoveDone p v) s =
    .next (freeUnits p v t.units (
      if (s.region r).drl.strange t then drlDrop r eDigest (popTxn p v s)
      else drlProgress r ((popTxn p v s).modRegion r (fun g => { g with drl := { g.drl with
        dones := (p.toNat, t.arg 32 16) :: g.drl.dones } })))) :=
  congrArg Host.Outcome.next (drlPerform hq hw ha hc h1 h0 _)

end

theorem derailleurMovesLand : Rules.DerailleurMovesLand := by
  intro s p v t rest r hq hw ha hc h1
  refine ⟨fun h0 => ⟨fun hs => ?_, fun hs hlen => ?_, fun hs hlen hpos hal => ?_⟩, fun h0 => ⟨fun hs => ?_, fun hs => ?_⟩,
    fun hrun hlate => if_pos ⟨hrun, hlate⟩, fun hrun hearly => if_neg (fun h => Nat.not_le_of_lt hearly h.2)⟩
  · rw [drlMove_eq hq hw ha hc h1 h0, if_pos hs]
  · rw [drlMove_eq hq hw ha hc h1 h0, if_neg (ne_true_of_eq_false hs), if_pos (.inl hlen)]
  · have hfits : ¬((s.region r).drl.scrSize < t.arg 0 32 * 64 + t.len ∨ t.len = 0 ∨ t.len % 64 ≠ 0) := by
      rintro (h | h | h)
      · exact Nat.not_le_of_lt h hlen
      · exact hpos h
      · exact h hal
    rw [drlMove_eq hq hw ha hc h1 h0, if_neg (ne_true_of_eq_false hs), if_neg hfits]
  · rw [drlMoveDone_eq hq hw ha hc h1 h0, if_pos hs]
  · rw [drlMoveDone_eq hq hw ha hc h1 h0, if_neg (ne_true_of_eq_false hs)]

theorem restoreTimeout_eq {s : State} {r : RegionId} {q : Restore} (hq : (s.region r).fw.restore = some q) (hne : q.silent ≠ []) :
    exec (.restoreTimeout r) s = if q.since + 1250000 ≤ s.beats then .next (fwFinish r eNores s) else .next s := by
  have hsil : q.silent.isEmpty = false := List.isEmpty_eq_false_iff.2 hne
  show execRestoreTimeout r s = _
  unfold execRestoreTimeout
  rw [hq]
  simp only [hsil, true_and]

theorem freewheelMovesLand : Rules.FreewheelMovesLand := by
  intro s p v t rest r hq hw ha hc h1 h64
  refine ⟨fun hr => ⟨fun hk => ?_, fun hk => ?_⟩, fun hr => ⟨fun hk => ?_, fun hk => ?_, fun hk => ?_, fun hk => ?_,
      fun hk => ?_, fun hk => ?_,
    fun hk hres => ?_, fun hk hres => ?_⟩, fun q hres hne => ⟨fun hlate => ?_, fun hearly => ?_⟩⟩
  · exact congrArg Host.Outcome.next (takeMove_of_refused hq hw ha hc h1 hk hr _)
  · exact congrArg Host.Outcome.next (takeMove_of_refused hq hw ha hc h1 hk hr _)
  · exact congrArg Host.Outcome.next (takeMove_of_taken hq hw ha hc h1 h64 hk hr _)
  · exact congrArg Host.Outcome.next (takeMove_of_taken hq hw ha hc h1 h64 hk hr _)
  · exact congrArg Host.Outcome.next (takeMove_of_taken hq hw ha hc h1 h64 hk hr _)
  · exact congrArg Host.Outcome.next (takeMove_of_taken hq hw ha hc h1 h64 hk hr _)
  · exact congrArg Host.Outcome.next (takeMove_of_taken hq hw ha hc h1 h64 hk hr _)
  · exact congrArg Host.Outcome.next (takeMove_of_taken hq hw ha hc h1 h64 hk hr _)
  · refine congrArg Host.Outcome.next ((takeMove_of_taken hq hw ha hc h1 h64 hk hr _).trans (congrArg _ (if_pos ?_)))
    rwa [popTxn_region]
  · refine congrArg Host.Outcome.next ((takeMove_of_taken hq hw ha hc h1 h64 hk hr _).trans (congrArg _ (if_neg ?_)))
    simp [hres]
  · rw [restoreTimeout_eq hres hne, if_pos hlate]
  · rw [restoreTimeout_eq hres hne, if_neg (Nat.not_le_of_lt hearly)]

/-- Settles O38: a move is performed on the region that its lane admits it to. -/
theorem stateMovesLand : Obligations.StateMovesLand := ⟨derailleurMovesLand, freewheelMovesLand⟩

end Sys2Proof.Machine

namespace Sys2Proof.Machine
open Sys2Proof

/-! ### Engines of a region -/

section
variable {s : State} {r : RegionId}

theorem updEnd_of_done {u : State}
    (h : overBlocks (updShard r (s.region r).upd.step.toNat) (s.region r).upd.blocks.zipIdx s = (none, u)) :
    updEnd r s = updStep1 r (landSignal r (s.region r).upd.doneObj .engine (u.modRegion r (fun h =>
      { h with upd := { h.upd with step := h.upd.step + 1, doneBlocks := (s.region r).upd.blocks.length } }))) := by
  unfold updEnd
  dsimp only
  rw [h]

theorem updEnd_of_trouble {e : Trouble} {u : State}
    (h : overBlocks (updShard r (s.region r).upd.step.toNat) (s.region r).upd.blocks.zipIdx s = (some e, u)) :
    updEnd r s = updTrouble r (s.region r).upd.step.toNat e u := by
  unfold updEnd
  dsimp only
  rw [h]

theorem updateStepsRun : Rules.UpdateStepsRun := by
  intro s r hg hh
  refine ⟨fun hp hm => ⟨fun hd hc => if_pos ⟨hg, hh, hp, hm, hd, hc⟩, fun hor => if_neg ?_⟩, fun _ hm => if_neg ?_,
    fun hp => ⟨fun he => if_neg ?_, fun he => ⟨fun u hu => ?_, fun e u hu => ?_⟩⟩⟩
  · rintro ⟨-, -, -, -, hd, hc⟩
    rcases hor with h | h
    · exact hd h
    · exact Bool.false_ne_true (h.symm.trans hc)
  · exact fun h => Bool.false_ne_true (hm.symm.trans h.2.2.2.1)
  · exact fun h => Bool.false_ne_true (h.2.2.2.symm.trans he)
  · exact (if_pos ⟨hg, hh, hp, he⟩).trans (congrArg Host.Outcome.next (updEnd_of_done hu))
  · exact (if_pos ⟨hg, hh, hp, he⟩).trans (congrArg Host.Outcome.next (updEnd_of_trouble hu))

theorem fwStall_eq {b : Nat} (hb : (s.region r).fw.startBeat = some b) (hm : (s.region r).fw.st = .mirroring)
    (hs : (s.region r).fw.stalled = false) : exec (.fwStall r) s =
      if b + (s.region r).fw.limit ≤ s.beats then
        .next ((s.modRegion r (fun g => { g with fw := { g.fw with stalled := true } })).fwEvent r 0)
      else .next s := by
  have hmir : (s.region r).fw.mirrors = true := by simp [Fw.mirrors, hm]
  show execFwStall r s = _
  unfold execFwStall
  dsimp only
  rw [hb]
  simp only [hmir, hs, true_and]

theorem mirrorsBeginAndStall : Rules.MirrorsBeginAndStall := by
  intro s r
  refine ⟨fun hr => ⟨fun hre hv hc => if_pos ?_, fun hor => if_neg ?_, fun hre ha hor => if_pos ?_⟩, fun hr => ⟨if_neg ?_, if_neg ?_⟩,
    fun b hb hm hs => ⟨fun hlate => ?_, fun hearly => ?_⟩⟩
  · simp [hr, hre, hv, hc]
  · rcases hor with h | h | h
    · simp [h]
    · simp [h]
    · exact fun hall => h (beq_iff_eq.1 (Bool.and_eq_true_iff.1 hall).2)
  · rcases hor with h | h <;> simp [hr, hre, ha, h]
  · simp [hr]
  · simp [hr]
  · exact (fwStall_eq hb hm hs).trans (if_pos hlate)
  · exact (fwStall_eq hb hm hs).trans (if_neg (Nat.not_le_of_lt hearly))

section
variable (hh : (s.region r).brake.halted = false)
include hh

section
variable {w : DWord × DWord} {later : List (DWord × DWord)} {u : State} (hw : (s.region r).exp.want = w :: later)
  (hr : (s.region r).exp.running = false)
include hw hr

theorem exportStart_noRing (hring : s.ringHeld (s.region r).exp = false) : exec (.exportStart r) s =
    .next ((s.modRegion r (fun g => { g with exp := { g.exp with want := later } })).fwEvent r 3) := by
  show execExportStart r s = _
  unfold execExportStart
  dsimp only
  rw [hw]
  dsimp only
  rw [if_neg (by simp [hr, hh])]
  exact if_pos hring

variable (hring : s.ringHeld (s.region r).exp = true)
include hring

theorem exportStart_noMap {e : Trouble} (hread : (s.modRegion r (fun g => { g with exp := { g.exp with want := later } })).readVa r
    (s.region r).exp.mapVa.toNat (128 * (s.region r).upd.blocks.length) = (.error e, u)) :
    exec (.exportStart r) s = .next (engineFault r e (u.fwEvent r 3)) := by
  show execExportStart r s = _
  unfold execExportStart
  dsimp only
  rw [hw]
  dsimp only
  rw [if_neg (by simp [hr, hh])]
  refine (if_neg (ne_false_of_eq_true hring)).trans ?_
  rw [hread]

theorem exportStart_map {b : List Byte} (hread : (s.modRegion r (fun g => { g with exp := { g.exp with want := later } })).readVa r
    (s.region r).exp.mapVa.toNat (128 * (s.region r).upd.blocks.length) = (.ok b, u)) :
    exec (.exportStart r) s = if ((s.region r).upd.blocks.zip (cutBlocks (s.region r).upd.blocks.length b)).all (fun q => mapLegal q.1 q.2) then
        .next (u.modRegion r (fun g => { g with exp := { g.exp with
          running := true, cur := w.1, curBeat := w.2, map := cutBlocks (s.region r).upd.blocks.length b,
          left := exportPlan (s.region r).upd.blocks } }))
      else .next (u.fwEvent r 3) := by
  show execExportStart r s = _
  unfold execExportStart
  dsimp only
  rw [hw]
  dsimp only
  rw [if_neg (by simp [hr, hh])]
  refine (if_neg (ne_false_of_eq_true hring)).trans ?_
  rw [hread]

end

section
variable {q : Nat × Nat} {rest : List (Nat × Nat)} (hr : (s.region r).exp.running = true) (hl : (s.region r).exp.left = q :: rest)
include hr hl

theorem exportRecord_noRing (hring : s.ringHeld (s.region r).exp = false) : exec (.exportRecord r) s = .next (endExport r s) := by
  show execExportRecord r s = _
  unfold execExportRecord
  dsimp only
  rw [hl]
  dsimp only
  rw [if_neg (by simp [hr, hh])]
  exact if_pos hring

theorem exportRecord_data (hring : s.ringHeld (s.region r).exp = true) (hk : q.2 ≠ 7) {data : List Byte}
    (hd : s.readPa (quarterBase (blkChan ((s.region r).upd.blocks.getD q.1 0)) (((s.region r).exp.cur.toNat + 1) % 2) +
        blkArrayOff ((s.region r).upd.blocks.getD q.1 0) q.2)
      (4 * (blkArrays ((s.region r).upd.blocks.getD q.1 0)).getD q.2 0) = .ok data) :
    let x := (s.region r).exp
    let rec_ := recordHeader s r q.1 q.2 data ++ data ++ List.replicate (up64 data.length - data.length) 0
    exec (.exportRecord r) s =
      if x.size < (x.head.toNat + x.size - x.tail.toNat % x.size) % x.size + rec_.length then .next s
      else .next ((ringWrite x.base x.size x.head.toNat rec_ s).modRegion r (fun g => { g with exp := { g.exp with
        left := rest, head := BitVec.ofNat 32 ((x.head.toNat + rec_.length) % x.size) } })) := by
  intro x rec_
  show execExportRecord r s = _
  unfold execExportRecord
  dsimp only
  rw [hl]
  dsimp only
  rw [if_neg (by simp [hr, hh])]
  refine (if_neg (ne_false_of_eq_true hring)).trans ?_
  rw [if_neg hk, hd]

end

end

theorem exportsWriteTheirRecords : Rules.ExportsWriteTheirRecords := by
  intro s r hh
  refine ⟨fun w later hw hr => ⟨exportStart_noRing hh hw hr, fun e u hring => exportStart_noMap hh hw hr hring, fun b u hring hread =>
      ⟨fun hall => ?_, fun hall => ?_⟩⟩, fun q rest hr hl => exportRecord_noRing hh hr hl, fun i k rest data hr hl hk hring hd =>
      ⟨fun hroom => ?_, fun hroom => ?_⟩, fun hr hl => ?_⟩
  · exact (exportStart_map hh hw hr hring hread).trans (if_pos hall)
  · exact (exportStart_map hh hw hr hring hread).trans (if_neg (ne_true_of_eq_false hall))
  · exact (exportRecord_data hh hr hl hring hk hd).trans (if_pos hroom)
  · exact (exportRecord_data hh hr hl hring hk hd).trans (if_neg (Nat.not_lt_of_le hroom))
  · refine if_pos ⟨hr, ?_⟩
    rw [hl]
    rfl

end

/-- Settles O39: each engine's command, by the conditions it waits for. -/
theorem trainingStepsRun : Obligations.TrainingStepsRun := ⟨updateStepsRun, mirrorsBeginAndStall, exportsWriteTheirRecords⟩

end Sys2Proof.Machine

namespace Sys2Proof.Machine
open Sys2Proof

/-! ### Beats and the cadence -/

/-- A region no grant made has nothing to count in a beat. -/
theorem Region.reset_onBeat (wall : Nat) : Region.reset.onBeat wall = Region.reset := rfl

theorem Tab.find_mapVals {α β : Type} (f : Nat → α → β) (m : Tab α) (k : Nat) :
    Tab.find (Tab.mapVals f m) k = (Tab.find m k).map (f k) := by
  induction m with
  | nil => rfl
  | cons c m ih =>
    obtain ⟨a, b⟩ := c
    show (if k < a then none else if k = a then some (f a b) else Tab.find (Tab.mapVals f m) k) =
      (if k < a then none else if k = a then some b else Tab.find m k).map (f k)
    split
    · rfl
    · split
      · next h => rw [h]; rfl
      · exact ih

/-- Only a frame that takes the cadence from a port, or its own, changes the run of edges; never the counters. -/
theorem State.watchCadence_counters (s : State) : s.watchCadence.beat = s.cad.beat ∧ s.watchCadence.lap = s.cad.lap := by
  unfold State.watchCadence
  dsimp only
  split
  · exact ⟨rfl, rfl⟩
  · split <;> exact ⟨rfl, rfl⟩

theorem markBeat_window (s : State) : (markBeat s).power.window = if s.cad.beat.toNat % 1024 = 0 then 1 else s.power.window := by
  unfold markBeat
  split <;> rfl

theorem markBeat_ports {s : State} {p : Nat} {x : Port} (h : s.ports.find p = some x) :
    (markBeat s).ports.find p = some { x with helloDue := x.helloDue || decide (s.cad.beat.toNat % 1024 = 0) } := by
  unfold markBeat
  split
  · next hm =>
    rw [hm]
    show Tab.find (Tab.mapVals (fun (_ : Nat) (x : Port) => { x with helloDue := true }) s.ports) p = _
    rw [Tab.find_mapVals, h]
    simp
  · next hm =>
    rw [h, decide_eq_false hm, Bool.or_false]

/-- The end of a power window touches the ports and the window alone. -/
theorem markBeat_frame (s : State) : markBeat s = { s with ports := (markBeat s).ports, power := (markBeat s).power } := by
  unfold markBeat
  split <;> rfl

/-- The state after a beat in which the hub runs, before the end of a power window. -/
def beaten (s : State) : State :=
  { s with
    beats := s.beats + 1, beatAt := s.wall, cad := s.watchCadence.advance
    regions := Tab.mapVals (fun (_ : Nat) (g : Region) => g.onBeat s.wall) s.regions }

section
variable {s : State} (hdue : s.beatAt + (10 - s.power.cur.toNat) ≤ s.wall)
include hdue

theorem State.beatDue_of_le : ¬s.beatDue = false := by
  have : s.beatDue = true := decide_eq_true hdue
  simp [this]

theorem beatBoundary_of_stopped (hhub : s.hubRuns = false) :
    exec .beatBoundary s = .next { s with beats := s.beats + 1, beatAt := s.wall } :=
  (if_neg (State.beatDue_of_le hdue)).trans (if_pos hhub)

theorem beatBoundary_of_runs (hhub : s.hubRuns = true) (hcad : s.cadStopped = false) :
    exec .beatBoundary s = .next (markBeat (beaten s)) := by
  refine (if_neg (State.beatDue_of_le hdue)).trans ((if_neg (ne_false_of_eq_true hhub)).trans (congrArg (fun u => Host.Outcome.next (markBeat u)) ?_))
  have hnot : ¬({ s with beats := s.beats + 1, beatAt := s.wall } : State).cadStopped = true := ne_true_of_eq_false hcad
  rw [if_neg hnot]
  rfl

end

theorem beatsAreCounted : Rules.BeatsAreCounted := by
  intro s
  refine ⟨fun hearly => if_pos (decide_eq_false (Nat.not_le_of_lt hearly)), fun hdue hhub => beatBoundary_of_stopped hdue hhub,
    fun hdue hhub hcad => ⟨_, beatBoundary_of_runs hdue hhub hcad, ?_⟩⟩
  obtain ⟨hbeat, hlap⟩ := s.watchCadence_counters
  have hbeat' : (beaten s).cad.beat = s.cad.beat + 1 := congrArg (· + 1) hbeat
  have hlap' : (beaten s).cad.lap = if s.cad.beat = 0xFFFFFFFFFFFF then s.cad.lap + 1 else s.cad.lap := by
    show (if s.watchCadence.beat = _ then s.watchCadence.lap + 1 else s.watchCadence.lap) = _
    rw [hbeat, hlap]
    rfl
  have hregion (r : RegionId) : (beaten s).region r = (s.region r).onBeat s.wall :=
    Tab.get_mapVals (f := fun (_ : Nat) (g : Region) => g.onBeat s.wall) (fun _ => Region.reset_onBeat s.wall) s.regions r.toNat
  have hwindow := markBeat_window (beaten s)
  have hports := fun p x => markBeat_ports (s := beaten s) (p := p) (x := x)
  have hframe := markBeat_frame (beaten s)
  rw [hbeat'] at hwindow hports
  generalize markBeat (beaten s) = u at *
  have hur (r : RegionId) : u.region r = (s.region r).onBeat s.wall := by rw [hframe]; exact hregion r
  refine ⟨?_, ?_, ?_, ?_, ?_, ?_, ?_, ?_, fun r => ?_, hwindow, fun p x hx => ⟨_, hports p x hx, rfl⟩⟩
  · rw [hframe]; rfl
  · rw [hframe]; exact hbeat'
  · rw [hframe]; exact hlap'
  · rw [hframe]; rfl
  · rw [hframe]; rfl
  · rw [hframe]; rfl
  · rw [hframe]; rfl
  · rw [hframe]; rfl
  · rw [hur]; exact ⟨rfl, rfl, rfl, rfl⟩

section
variable {s : State} {beat : BitVec 48} {lap : BitVec 16} {n : Nat} {old new : List (BitVec 48 × BitVec 16 × Nat)}

/-- The value loaded is the last one accepted before this beat. -/
theorem Cadence.loadable_of_split {c : Cadence} {now : Nat} (hp : c.pending = old ++ (beat, lap, n) :: new) (hn : n < now)
    (hnew : ∀ q ∈ new, now ≤ q.2.2) : c.loadable now = some (beat, lap, n) := by
  have hnil : new.filter (fun q => decide (q.2.2 < now)) = [] :=
    List.filter_eq_nil_iff.2 fun q hq => by simpa using hnew q hq
  unfold Cadence.loadable
  rw [hp, List.filter_append, List.filter_cons, hnil]
  simp [hn]

theorem Cadence.loadable_of_none {c : Cadence} {now : Nat} (h : ∀ q ∈ c.pending, now ≤ q.2.2) : c.loadable now = none := by
  have hnil : c.pending.filter (fun q => decide (q.2.2 < now)) = [] :=
    List.filter_eq_nil_iff.2 fun q hq => by simpa using h q hq
  unfold Cadence.loadable
  rw [hnil]
  rfl

/-- The limit brakes are part of the regions. -/
theorem relimitAll_rest (s : State) : { relimitAll s with regions := [] } = { s with regions := [] } :=
  foldl_inv (P := fun u : State => { u with regions := [] }) (f := fun s r => relimit r s) (fun _ _ => rfl) _ _

/-- The counters take a value; the power window and the brakes follow them. -/
theorem loadBeats_frame (s : State) : (loadBeats beat lap s).cad = { s.cad with beat := beat, lap := lap } ∧
    (loadBeats beat lap s).tiles = s.tiles ∧ (loadBeats beat lap s).mem = s.mem := by
  unfold loadBeats
  dsimp only
  rw [markBeat_frame]
  generalize hu : ({ s with
    cad := { s.cad with beat := beat, lap := lap }, power := { s.power with skip := true },
    regions := Tab.mapVals (fun (_ : Nat) (g : Region) => { g with brake := { g.brake with dutyOn := false } }) s.regions } : State) = u
  refine ⟨(congrArg State.cad (relimitAll_rest u)).trans ?_, (congrArg State.tiles (relimitAll_rest u)).trans ?_,
    (congrArg State.mem (relimitAll_rest u)).trans ?_⟩
  · rw [← hu]
  · rw [← hu]
  · rw [← hu]

end

section
variable {s : State} {beat : BitVec 48} {lap : BitVec 16} {n : Nat}

theorem cadenceLoadBeat_of_none (h : s.cad.loadable s.beats = none) : exec .cadenceLoadBeat s = .next s := by
  show execCadenceLoadBeat s = _
  unfold execCadenceLoadBeat
  rw [h]

theorem cadenceLoadBeat_of_some (h : s.cad.loadable s.beats = some (beat, lap, n)) : exec .cadenceLoadBeat s =
    if s.pinCadence = false ∨ s.cad.qualifies = false ∨ s.cadStopped = true then .next s
    else .next (loadBeats beat lap { s with cad := { s.cad with
      pending := s.cad.pending.filter (fun p => decide (s.beats ≤ p.2.2)), locked := true } }) := by
  show execCadenceLoadBeat s = _
  unfold execCadenceLoadBeat
  rw [h]

theorem cadenceLoss_of_due (h : s.lossDue = true) : exec .cadenceLoss s =
    if s.cad.locked then .next (({ s with cad := { s.cad with edges := 0, good := 0, holdover := true } }).cadEvent 0)
    else .next { s with cad := { s.cad with edges := 0, good := 0 } } :=
  if_neg (ne_false_of_eq_true h)

theorem cadenceRecover_of_holdover (h : s.cad.holdover = true) (err : BitVec 48) : exec (.cadenceRecover err) s =
    if 4096 < err.toNat then .next (({ (s.draw 16).2 with cad := { s.cad with
      holdover := false, silent := 0, phase := (s.draw 16).1, locked := false, good := 0 } } : State).cadEvent 1)
    else .next { (s.draw 16).2 with cad := { s.cad with holdover := false, silent := 0, phase := (s.draw 16).1 } } :=
  if_neg (ne_false_of_eq_true h)

end

theorem theCadenceLoadsAndHolds : Rules.TheCadenceLoadsAndHolds := by
  intro s
  refine ⟨fun beat lap n old new hp hn hnew hframe hsrc hcad => ?_, fun h => cadenceLoadBeat_of_none (Cadence.loadable_of_none h),
    fun hframe hsrc hhold => ?_, fun err hhold => ?_, fun err hhold => if_pos hhold⟩
  · have hload := cadenceLoadBeat_of_some (Cadence.loadable_of_split hp hn hnew)
    refine ⟨fun hedges => ?_, fun hedges => hload.trans (if_pos (.inr (.inl (decide_eq_false (Nat.not_le_of_lt hedges)))))⟩
    have hport : s.frame.source ≠ 1#2 := hsrc
    have hgo : ¬(s.pinCadence = false ∨ s.cad.qualifies = false ∨ s.cadStopped = true) := by
      simp [State.pinCadence, Cadence.qualifies, hframe, hport, hedges, hcad]
    obtain ⟨hc, htiles, hmem⟩ := loadBeats_frame (beat := beat) (lap := lap) { s with cad := { s.cad with
      pending := s.cad.pending.filter (fun p => decide (s.beats ≤ p.2.2)), locked := true } }
    refine ⟨_, hload.trans (if_neg hgo), ?_⟩
    rw [hc]
    exact ⟨rfl, rfl, rfl, fun q => by simp, htiles, hmem⟩
  · have hport : s.frame.source ≠ 1#2 := hsrc
    have hdue : s.lossDue = true := by simp [State.lossDue, hframe, hport, hhold]
    exact ⟨fun hl => (cadenceLoss_of_due hdue).trans (if_pos hl),
      fun hl => (cadenceLoss_of_due hdue).trans (if_neg (ne_true_of_eq_false hl))⟩
  · by_cases herr : 4096 < err.toNat
    · refine ⟨_, (cadenceRecover_of_holdover hhold err).trans (if_pos herr), ?_⟩
      refine ⟨?_, ?_, ?_, ?_, ?_, ?_, fun h => absurd herr (Nat.not_lt_of_le h), fun _ => ⟨?_, ?_⟩⟩ <;> simp [State.cadEvent, State.draw]
    · refine ⟨_, (cadenceRecover_of_holdover hhold err).trans (if_neg herr), ?_⟩
      exact ⟨rfl, rfl, rfl, rfl, rfl, rfl, fun _ => ⟨rfl, rfl⟩, fun h => absurd h herr⟩

/-- Settles O40: the beat's counters and the values loaded into them are frames around `markBeat` and `relimitAll`. -/
theorem beatsAndTheCadence : Obligations.BeatsAndTheCadence := ⟨beatsAreCounted, theCadenceLoadsAndHolds⟩

end Sys2Proof.Machine

namespace Sys2Proof.Machine
open Sys2Proof

/-! ### The power manager -/

/-- What of the state no brake and no event touches. -/
def State.steady (s : State) : Power × Tab Tile × Mem := (s.power, s.tiles, s.mem)

theorem overLimit_steady (r : RegionId) (s : State) : (overLimit r s).steady = s.steady := by
  unfold overLimit State.steady
  dsimp only
  split <;> split <;> simp

theorem windowEvents_steady (s : State) : (windowEvents s).steady = s.steady := by
  unfold windowEvents
  refine foldl_inv (P := State.steady) (fun e u => ?_) _ _
  split
  · exact overLimit_steady _ _
  · rfl

theorem relimitAll_steady (s : State) : (relimitAll s).steady = s.steady :=
  foldl_inv (P := State.steady) (f := fun s r => relimit r s) (fun _ _ => rfl) _ _

theorem windowBrakes_steady (s : State) : (windowBrakes s).steady = s.steady := relimitAll_steady _

/-- The power manager's state but for the step that is due. -/
def State.unchanged (s : State) : Power × Tab Tile × Mem := ({ s.power with change := none }, s.tiles, s.mem)

theorem stepTo_unchanged (k : Nat) (s : State) : (stepTo k s).unchanged = s.unchanged := by
  unfold stepTo
  dsimp only
  split <;> rfl

theorem powerDecide_unchanged (s : State) : (powerDecide s).unchanged = s.unchanged := by
  rcases powerDecide_cases s with ⟨h, -⟩ | ⟨h, -⟩ | h | ⟨who, f, h, -⟩
  · rw [h, stepTo_unchanged]
  · rw [h, stepTo_unchanged]
  · rw [h, stepTo_unchanged]
  · rw [h, stepTo_unchanged]
    rfl

/-- The power manager's state but for the boundaries whose skew is marked. -/
def State.unskewed (s : State) : Power × Tab Tile × Mem := ({ s.power with skewVolt := 0, skewTemp := 0 }, s.tiles, s.mem)

theorem skewBoundary_unskewed (s : State) (b : Nat) : (skewBoundary s b).unskewed = s.unskewed := by
  unfold skewBoundary State.unskewed
  dsimp only
  split
  · split <;> simp
  · split <;> rfl

theorem skewBoundaries_unskewed (s : State) : ((List.range 3).foldl skewBoundary s).unskewed = s.unskewed :=
  foldl_inv (P := State.unskewed) (f := skewBoundary) skewBoundary_unskewed _ _

/-- What is left of a power window once its sample, if it counts, is taken and decided on. -/
def closeWindow (s : State) : State := windowEvents (windowBrakes (windowSettings s))

theorem closeWindow_steady (s : State) : (closeWindow s).steady = (windowSettings s).steady :=
  (windowEvents_steady _).trans (windowBrakes_steady _)

theorem setRegulators_vset {s : State} :
    (setRegulators s).power.vset = s.setpointsAt (min (s.power.change.getD 3).toNat s.power.cur.toNat) := by
  unfold setRegulators
  dsimp only
  cases s.power.change with
  | some k => rfl
  | none =>
    have hle : min 3 s.power.cur.toNat = s.power.cur.toNat := Nat.min_eq_right (by have := s.power.cur.isLt; omega)
    exact congrArg s.setpointsAt hle.symm

theorem windowSettings_vset (s : State) : (windowSettings s).power.vset =
    (windowSettings s).setpointsAt (min (s.power.change.getD 3).toNat s.power.cur.toNat) :=
  setRegulators_vset

/-- A window closed: its settings are in force, and its step and sample are as they were decided and taken. -/
theorem closeWindow_power (s : State) : (closeWindow s).power = (windowSettings s).power := congrArg Prod.fst (closeWindow_steady s)

theorem closeWindow_vset (s : State) : (closeWindow s).power.vset =
    (closeWindow s).setpointsAt (min (s.power.change.getD 3).toNat s.power.cur.toNat) := by
  unfold State.setpointsAt
  rw [closeWindow_power]
  exact windowSettings_vset s

/-- The state in which a window that counts is closed. -/
def decided (p : PowerSample) (s : State) : State := (List.range 3).foldl skewBoundary (powerDecide (takeSample p s))

/-- What of the power manager's state neither the decision nor the skew marks change. -/
def Power.sampled (x : Power) : Power := { x with change := none, skewVolt := 0, skewTemp := 0 }

theorem sampled_of_unskewed {u v : State} (h : u.unskewed = v.unskewed) :
    u.power.sampled = v.power.sampled ∧ u.tiles = v.tiles ∧ u.mem = v.mem :=
  ⟨congrArg (fun x => x.1.sampled) h, congrArg (fun x => x.2.1) h, congrArg (fun x => x.2.2) h⟩

theorem sampled_of_unchanged {u v : State} (h : u.unchanged = v.unchanged) :
    u.power.sampled = v.power.sampled ∧ u.tiles = v.tiles ∧ u.mem = v.mem :=
  ⟨congrArg (fun x => x.1.sampled) h, congrArg (fun x => x.2.1) h, congrArg (fun x => x.2.2) h⟩

theorem decided_frame (p : PowerSample) (s : State) : (decided p s).power.sampled = (takeSample p s).power.sampled ∧
    (decided p s).tiles = s.tiles ∧ (decided p s).mem = s.mem := by
  obtain ⟨hskew, hskewTiles, hskewMem⟩ := sampled_of_unskewed (skewBoundaries_unskewed (powerDecide (takeSample p s)))
  obtain ⟨hdec, hdecTiles, hdecMem⟩ := sampled_of_unchanged (powerDecide_unchanged (takeSample p s))
  exact ⟨hskew.trans hdec, hskewTiles.trans hdecTiles, hskewMem.trans hdecMem⟩

theorem powerWindow_of_skip {s : State} (hw : s.power.window ≠ 0) (hs : s.power.skip = true) (p : PowerSample) :
    exec (.powerWindow p) s = .next (closeWindow s) := (if_neg hw).trans (if_pos hs)

theorem powerWindow_of_counts {s : State} (hw : s.power.window ≠ 0) (hs : s.power.skip = false) (p : PowerSample) :
    exec (.powerWindow p) s = .next (closeWindow (decided p s)) := (if_neg hw).trans (if_neg (ne_true_of_eq_false hs))

theorem clockStepChange_eq {s : State} {k : BitVec 2} (h : s.power.change = some k) : exec .clockStepChange s =
    if s.power.skip = false ∧ s.power.window = 0 ∧ 128 ≤ s.cad.beat.toNat % 1024 then
      .next { s with power := { s.power with cur := k, change := none, vset := s.setpointsAt k.toNat } }
    else .next s := by
  show execClockStepChange s = _
  unfold execClockStepChange
  rw [h]
  rfl

theorem clockCeilEvent_eq {s : State} {k : BitVec 2} {beat : BitVec 48} {lap : BitVec 16} (h : s.power.pend = some (k, beat, lap)) :
    exec .clockCeilEvent s =
      if 0 ≤ bdiff s.cad.beat beat then .next { s with power := { s.power with ceil := k, pend := none } } else .next s := by
  show execClockCeilEvent s = _
  unfold execClockCeilEvent
  rw [h]

theorem thePowerManagerDecides : Rules.ThePowerManagerDecides := by
  intro s
  refine ⟨fun p hw => if_pos hw, fun p hw => ?_, fun k hk => ⟨fun hskip hwin hbeat => ?_, fun hbeat => ?_⟩, fun k beat lap hp =>
    ⟨fun hdue => ?_, fun hearly => ?_⟩⟩
  · cases hs : s.power.skip with
    | true =>
      refine ⟨_, powerWindow_of_skip hw hs p, ?_⟩
      have hset := closeWindow_vset s
      have hrest := congrArg Prod.snd (closeWindow_steady s)
      have hpower := closeWindow_power s
      generalize closeWindow s = u at *
      rw [hpower] at hset ⊢
      exact ⟨rfl, rfl, rfl, rfl, rfl, congrArg Prod.fst hrest, congrArg Prod.snd hrest, hset, nofun, fun _ => ⟨rfl, rfl, rfl⟩⟩
    | false =>
      refine ⟨_, powerWindow_of_counts hw hs p, ?_⟩
      obtain ⟨hdec, htiles, hmem⟩ := decided_frame p s
      have hset := closeWindow_vset (decided p s)
      have hrest := congrArg Prod.snd (closeWindow_steady (decided p s))
      have hpower := closeWindow_power (decided p s)
      generalize decided p s = v at *
      have hcur : v.power.cur = s.power.cur := (congrArg Power.cur hdec :)
      have hcap : v.power.capNext.getD v.power.cap = s.power.capNext.getD s.power.cap :=
        (congrArg (fun x => x.capNext.getD x.cap) hdec :)
      generalize closeWindow v = u at *
      rw [hpower] at hset ⊢
      rw [hcur] at hset
      exact ⟨rfl, rfl, hcur, hcap, rfl, (congrArg Prod.fst hrest).trans htiles, (congrArg Prod.snd hrest).trans hmem, hset,
        fun _ => ⟨(congrArg Power.now hdec :), (congrArg Power.temps hdec :), (congrArg Power.vcore hdec :)⟩, nofun⟩
  · exact (clockStepChange_eq hk).trans (if_pos ⟨hskip, hwin, hbeat⟩)
  · exact (clockStepChange_eq hk).trans (if_neg fun h => Nat.not_le_of_lt hbeat h.2.2)
  · exact (clockCeilEvent_eq hp).trans (if_pos hdue)
  · exact (clockCeilEvent_eq hp).trans (if_neg (Int.not_le.2 hearly))

/-! ### Regulators and parity -/

section
variable {s : State} {h : ParityHit} (hhub : s.hubRuns = true)
include hhub

theorem paritySweep_eq (hits : List ParityHit) : exec (.paritySweep hits) s =
    .next (((s.parity.filter (fun h => h.region.isSome)) ++ hits.filter (fun h => s.parityLegal h && !s.parity.contains h)).foldl
      (fun s h => parityHit h s)
      { s with parity := s.parity ++ hits.filter (fun h => s.parityLegal h && !s.parity.contains h) }) :=
  if_pos hhub

section
variable (hold : ∀ q ∈ s.parity, q.region = none)
include hold

theorem paritySweep_of_illegal (hl : s.parityLegal h = false) : exec (.paritySweep [h]) s = .next s := by
  have hnone : s.parity.filter (fun h => h.region.isSome) = [] :=
    List.filter_eq_nil_iff.2 fun q hq => by simp [hold q hq]
  rw [paritySweep_eq hhub, hnone]
  simp [hl]

theorem paritySweep_of_fresh (hl : s.parityLegal h = true) (hnew : h ∉ s.parity) :
    exec (.paritySweep [h]) s = .next (parityHit h { s with parity := s.parity ++ [h] }) := by
  have hnone : s.parity.filter (fun h => h.region.isSome) = [] :=
    List.filter_eq_nil_iff.2 fun q hq => by simp [hold q hq]
  have hfresh : [h].filter (fun h => s.parityLegal h && !s.parity.contains h) = [h] := by simp [hl, hnew]
  rw [paritySweep_eq hhub, hnone, hfresh]
  rfl

end

theorem paritySweep_of_standing {r : RegionId} (hs : s.parity = [h]) (hr : h.region = some r) :
    exec (.paritySweep []) s = .next (parityHit h s) := by
  have hone : s.parity.filter (fun h => h.region.isSome) = [h] := by simp [hs, hr]
  rw [paritySweep_eq hhub, hone]
  simp

end

section
variable {s : State} {h : ParityHit}

theorem parityHit_of_region {r : RegionId} (hr : h.region = some r) (hg : (s.region r).st = .granted) (hh : (s.region r).halting = false) :
    parityHit h s = s.raise r h.tile none fCfgParity h.loc.toNat := by
  unfold parityHit
  rw [hr]
  exact if_pos ⟨hg, hh⟩

theorem parityHit_of_unit (hr : h.region = none) (hp : hitPort h = none) : parityHit h s =
    { ({ s with hub := { s.hub with parityLoc := h.loc } } : State).hubEvent 1 with
      stopped := h.loc :: (({ s with hub := { s.hub with parityLoc := h.loc } } : State).hubEvent 1).stopped } := by
  unfold parityHit
  rw [hr]
  dsimp only
  rw [hp]

theorem parityHit_of_port {p : PortId} (hr : h.region = none) (hp : hitPort h = some p) (hlt : p.toNat < 12) :
    parityHit h s = failPort p (({ s with hub := { s.hub with parityLoc := h.loc } } : State).hubEvent 1) := by
  unfold parityHit
  rw [hr]
  dsimp only
  rw [hp]
  exact if_pos hlt

end

theorem regulatorsAndParityAreReported : Rules.RegulatorsAndParityAreReported := by
  intro s
  refine ⟨fun reg hreg => ⟨fun hbad => if_pos (.inr hbad), fun hbad => if_neg ?_⟩, fun reg => rfl, fun ha => if_pos ha,
    fun ha => if_neg (ne_true_of_eq_false ha), rfl, fun hhub h hold hnew => ⟨fun hl => paritySweep_of_illegal hhub hold hl,
      fun r hl hr hg hh => ?_, fun hl hr => ⟨fun hp => ?_, fun p hp hlt => ?_⟩⟩, fun hhub h r hs hr hg hh => ?_⟩
  · rintro (h | h)
    · exact Nat.not_lt_of_le hreg h
    · exact Bool.false_ne_true (hbad.symm.trans h)
  · exact (paritySweep_of_fresh hhub hold hl hnew).trans (congrArg Host.Outcome.next (parityHit_of_region hr hg hh))
  · refine (paritySweep_of_fresh hhub hold hl hnew).trans (congrArg Host.Outcome.next ((parityHit_of_unit hr hp).trans ?_))
    rw [State.hubEvent_stopped]
  · exact (paritySweep_of_fresh hhub hold hl hnew).trans (congrArg Host.Outcome.next (parityHit_of_port hr hp (Nat.lt_succ_of_le hlt)))
  · exact (paritySweep_of_standing hhub hs hr).trans (congrArg Host.Outcome.next (parityHit_of_region hr hg hh))

/-- Settles O41: a window that counts is one decision between frames; a sweep takes the mismatches one by one. -/
theorem powerManagerAndReports : Obligations.PowerManagerAndReports := ⟨thePowerManagerDecides, regulatorsAndParityAreReported⟩

end Sys2Proof.Machine

namespace Sys2Proof.Machine
open Sys2Proof

/-! ### Power-on -/

theorem cutRevoke_resets (s : State) : (cutRevoke s).resets = s.resets := by
  unfold cutRevoke
  split
  · rfl
  · dsimp only
    split <;> rfl

theorem cutRevoke_pulse (s : State) : (cutRevoke s).fuses.pulse = s.fuses.pulse ∧ (cutRevoke s).fuses.entries = s.fuses.entries := by
  unfold cutRevoke
  split
  · exact ⟨rfl, rfl⟩
  · dsimp only
    split <;> exact ⟨rfl, rfl⟩

theorem cutRevoke_of_none {s : State} (h : s.fuses.revokePulse = none) : cutRevoke s = s := by
  unfold cutRevoke
  rw [h]

theorem cutRetire_resets (s : State) : (cutRetire s).resets = s.resets := by
  unfold cutRetire
  split <;> rfl

theorem cutRetire_revoked (s : State) : (cutRetire s).fuses.revoked = s.fuses.revoked := by
  unfold cutRetire
  split <;> rfl

theorem cutRetire_of_none {s : State} (h : s.fuses.pulse = none) : cutRetire s = s := by
  unfold cutRetire
  rw [h]

/-- The state after power-on over a backup domain that is cleared or stands. -/
def poweredOn (lost : Bool) (straps : BitVec 4) (s : State) : State :=
  beginOrder .powerOn (if lost then [1, 2, 3, 4, 5, 6, 7, 8] else [2, 3, 4, 5, 6, 7, 8]) (coldClear (recordReset .powerOn
    { unpowered s with resets :=
      { (if lost then { s.resets with count := 0, cause := 0, history := 0 } else s.resets) with
        pwrgood := true, straps := straps, vbkupLost := lost, backupOk := true } }))

theorem pwrgoodRise_of_low {s : State} (h : s.resets.pwrgood = false) (lost : Bool) (straps : BitVec 4) :
    exec (.pwrgoodRise lost straps) s = .next (poweredOn (lost || !s.resets.backupOk) straps s) := if_neg (ne_true_of_eq_false h)

/-- The state after PWRGOOD fell, the fuse pulses in progress cut. -/
def poweredOff (s : State) : State :=
  { coldClear (unpowered s) with resets := { (coldClear (unpowered s)).resets with
    pwrgood := false, thermHold := false, thermCool := false, thermPulsed := false, thermtrip := false } }

theorem pwrgoodFall_of_high {s : State} (h : s.resets.pwrgood = true) :
    exec .pwrgoodFall s = .next (poweredOff (cutRetire (cutRevoke s))) := if_neg (ne_false_of_eq_true h)

theorem powerOnClearsTheDevice : Rules.PowerOnClearsTheDevice := by
  intro s
  refine ⟨fun lost straps hp => ?_, fun lost straps hp => if_pos hp, fun hp => ?_, rfl⟩
  · refine ⟨_, pwrgoodRise_of_low hp lost straps, rfl, rfl, rfl, rfl, rfl, rfl, rfl, rfl, rfl, rfl, rfl, rfl, rfl, fun hlost => ?_,
      fun hl hok => ?_⟩
    · have hb : (lost || !s.resets.backupOk) = true := by rcases hlost with h | h <;> simp [h]
      have hhist : 0#8 ||| (1#8 <<< 0) = 1 := by decide
      rw [hb]
      exact ⟨rfl, hhist, rfl⟩
    · have hb : (lost || !s.resets.backupOk) = false := by simp [hl, hok]
      rw [hb]
      exact ⟨rfl, rfl, rfl⟩
  · have hres : (cutRetire (cutRevoke s)).resets = s.resets := (cutRetire_resets _).trans (cutRevoke_resets s)
    have hretire (h : s.fuses.pulse = none) : (cutRetire (cutRevoke s)).fuses.entries = s.fuses.entries := by
      rw [cutRetire_of_none ((cutRevoke_pulse s).1.trans h), (cutRevoke_pulse s).2]
    have hrevoke (h : s.fuses.revokePulse = none) : (cutRetire (cutRevoke s)).fuses.revoked = s.fuses.revoked := by
      rw [cutRetire_revoked, cutRevoke_of_none h]
    refine ⟨_, pwrgoodFall_of_high hp, ?_⟩
    generalize cutRetire (cutRevoke s) = u at *
    exact ⟨rfl, rfl, rfl, rfl, rfl, rfl, rfl, (congrArg Resets.count hres :), (congrArg Resets.cause hres :),
      (congrArg Resets.history hres :), hretire, hrevoke⟩

/-! ### Rails -/

theorem Draw.all_bind {α β : Type} {d : Draw α} {f : α → Draw β} {P : β → Prop} (h : ∀ a n, P (f a n).1) (n : Nat) : P ((d >>= f) n).1 :=
  h (d n).1 (d n).2

theorem Draw.all_pure {α : Type} {a : α} {P : α → Prop} (h : P a) (n : Nat) : P ((pure a : Draw α) n).1 := h

/-- What the region manager loses of a region is not its section. -/
theorem drawRegion_cfg (g : Region) (n : Nat) : (drawRegion g n).1.cfg = g.cfg := by
  revert n
  unfold drawRegion
  iterate 20 refine Draw.all_bind (P := fun x : Region => x.cfg = g.cfg) fun _ => ?_
  exact Draw.all_pure (P := fun x : Region => x.cfg = g.cfg) rfl

theorem State.drawn_inv {α β : Type} {P : State → β} {d : Draw α} {put : α → State → State} (hput : ∀ a u, P (put a u) = P u)
    (hfree : ∀ (u : State) n, P { u with free := n } = P u) (s : State) : P (s.drawn d put) = P s :=
  (hput _ _).trans (hfree _ _)

/-- What the hub's rail does not feed. -/
def State.offHub (s : State) : State :=
  { s with
    hub := Hub.reset, frame := State.reset.frame, ident := State.reset.ident, cad := Cadence.reset, power := Power.reset,
    regions := [], free := 0
    resets := { s.resets with blkResult := 0, blk := none } }

theorem State.offHub_free (s : State) (n : Nat) : ({ s with free := n } : State).offHub = s.offHub := rfl

/-- The hub's registers undefined, before those of its region managers. -/
def scrambleDevice (s : State) : State :=
  let s := s.drawn (drawHub s) (fun x s => { s with hub := x })
  let s := s.drawn (drawFrame s.frame) (fun x s => { s with frame := x })
  let s := s.drawn drawIdent (fun x s => { s with ident := x })
  let s := s.drawn drawCad (fun x s => { s with cad := x })
  let s := s.drawn (drawPower s.power) (fun x s => { s with power := x })
  s.drawn (drawBits 2) (fun x s => { s with resets := { s.resets with blkResult := x, blk := none } })

/-- A region manager's registers undefined. -/
def scrambleRegion (s : State) (r : RegionId) : State := s.drawn (drawRegion (s.region r)) (fun g s => s.setRegion r g)

theorem scrambleHub_eq (s : State) : scrambleHub s = allRegions.foldl scrambleRegion (scrambleDevice s) := rfl

theorem scrambleDevice_inv {β : Type} {P : State → β} (hhub : ∀ (u : State) x, P { u with hub := x } = P u)
    (hframe : ∀ (u : State) x, P { u with frame := x } = P u) (hident : ∀ (u : State) x, P { u with ident := x } = P u)
    (hcad : ∀ (u : State) x, P { u with cad := x } = P u) (hpower : ∀ (u : State) x, P { u with power := x } = P u)
    (hblk : ∀ (u : State) x, P { u with resets := { u.resets with blkResult := x, blk := none } } = P u)
    (hfree : ∀ (u : State) n, P { u with free := n } = P u) (s : State) : P (scrambleDevice s) = P s := by
  unfold scrambleDevice
  dsimp only
  rw [State.drawn_inv (fun x u => hblk u x) hfree, State.drawn_inv (fun x u => hpower u x) hfree,
    State.drawn_inv (fun x u => hcad u x) hfree, State.drawn_inv (fun x u => hident u x) hfree,
    State.drawn_inv (fun x u => hframe u x) hfree, State.drawn_inv (fun x u => hhub u x) hfree]

theorem scrambleHub_offHub (s : State) : (scrambleHub s).offHub = s.offHub := by
  rw [scrambleHub_eq]
  refine (foldl_inv (P := State.offHub) (f := scrambleRegion) (fun u r => ?_) _ _).trans ?_
  · exact State.drawn_inv (P := State.offHub) (by intros; rfl) State.offHub_free u
  · exact scrambleDevice_inv (fun _ _ => rfl) (fun _ _ => rfl) (fun _ _ => rfl) (fun _ _ => rfl) (fun _ _ => rfl) (fun _ _ => rfl)
      State.offHub_free s

theorem State.drawn_setRegion (s : State) (q r : RegionId) (d : Draw Region) :
    (s.drawn d (fun g s => s.setRegion q g)).region r = if r = q then (d s.free).1 else s.region r := State.region_setRegion _ _ _ _

theorem scrambleRegion_cfg (s : State) (q r : RegionId) : ((scrambleRegion s q).region r).cfg = (s.region r).cfg := by
  unfold scrambleRegion
  rw [State.drawn_setRegion]
  split
  · next h => exact (drawRegion_cfg _ _).trans (by rw [h])
  · rfl

theorem scrambleHub_cfg (s : State) (r : RegionId) : ((scrambleHub s).region r).cfg = (s.region r).cfg := by
  rw [scrambleHub_eq]
  refine (foldl_inv (P := fun u : State => (u.region r).cfg) (f := scrambleRegion) (fun u q => scrambleRegion_cfg u q r) _ _).trans ?_
  exact scrambleDevice_inv (P := fun u : State => (u.region r).cfg) (fun _ _ => rfl) (fun _ _ => rfl) (fun _ _ => rfl) (fun _ _ => rfl)
    (fun _ _ => rfl) (fun _ _ => rfl) (fun _ _ => rfl) s

theorem scrambleMemory_ctl (s : State) (t u : TileId) : ((scrambleMemory s t).tile u).ctl = (s.tile u).ctl := by
  unfold scrambleMemory
  refine State.drawn_inv (P := fun x : State => (x.tile u).ctl) ?_ (fun _ _ => rfl) s
  intro q x
  rw [State.tile_modTile]
  split
  · next h => rw [h]
  · rfl

/-- What the rails of the dies do not feed. -/
def State.offDie (s : State) : Mem × Tab Region × Fuses := (s.mem, s.regions, s.fuses)

theorem scrambleMemory_rest (s : State) (t : TileId) : (scrambleMemory s t).offDie = s.offDie ∧ (scrambleMemory s t).objs = s.objs := by
  unfold scrambleMemory
  exact ⟨State.drawn_inv (P := State.offDie) (by intros; rfl) (by intros; rfl) s,
    State.drawn_inv (P := State.objs) (by intros; rfl) (by intros; rfl) s⟩

theorem scrambleTile_offDie (s : State) (t : TileId) : (scrambleTile s t).offDie = s.offDie := by
  unfold scrambleTile
  refine (State.drawn_inv (P := State.offDie) (by intros; rfl) (by intros; rfl) _).trans ?_
  exact State.drawn_inv (P := State.offDie) (by intros; rfl) (by intros; rfl) _

theorem scrambleTile_tile (s : State) {t u : TileId} (h : u ≠ t) : (scrambleTile s t).tile u = s.tile u := by
  unfold scrambleTile
  refine (State.drawn_inv (P := fun x : State => x.tile u) (by intros; rfl) (by intros; rfl) _).trans ?_
  exact State.drawn_inv (P := fun x : State => x.tile u) (by intro x v; exact (State.tile_modTile v t u _).trans (if_neg h)) (by intros; rfl) _

theorem scrambleObjs_rest (d : Nat) (s : State) (u : TileId) :
    (scrambleObjs d s).offDie = s.offDie ∧ (scrambleObjs d s).tile u = s.tile u := by
  unfold scrambleObjs
  exact ⟨State.drawn_inv (P := State.offDie) (by intros; rfl) (by intros; rfl) s,
    State.drawn_inv (P := fun x : State => x.tile u) (by intros; rfl) (by intros; rfl) s⟩

theorem scrambleDie_eq (d : Nat) (s : State) :
    scrambleDie d s = scrambleObjs d ((s.tilesWhere (fun c => s.dieOf c == d)).foldl scrambleTile s) := rfl

theorem scrambleTiles_tile (l : List TileId) {u : TileId} (h : u ∉ l) (s : State) : (l.foldl scrambleTile s).tile u = s.tile u := by
  induction l generalizing s with
  | nil => rfl
  | cons t l ih =>
    obtain ⟨hne, hl⟩ := not_or.1 (fun hor => h (List.mem_cons.2 hor))
    rw [List.foldl_cons, ih hl, scrambleTile_tile s hne]

theorem colOf_tileAt {c w : Nat} (hc : c < 128) (hw : w < 48) : colOf (tileAt c w) = c := by
  unfold colOf tileAt
  rw [BitVec.toNat_ofNat]
  omega

theorem col_of_mem_tilesWhere {s : State} {p : Nat → Bool} {t : TileId} (hcols : s.columns ≤ 128) (h : t ∈ s.tilesWhere p) :
    p (colOf t) = true := by
  unfold State.tilesWhere at h
  simp only [List.mem_flatMap, List.mem_filter, List.mem_range, List.mem_map] at h
  obtain ⟨c, ⟨hc, hp⟩, w, hw, rfl⟩ := h
  rw [colOf_tileAt (Nat.lt_of_lt_of_le hc hcols) hw]
  exact hp

/-- Ports that fail one after the other: each is down or has failed. -/
theorem failPorts_port (l : List PortId) {p : PortId} (s : State) :
    let u := l.foldl (fun s p => if (s.port p).st = .down then s else failPort p s) s
    ((s.port p).st = .failed → (u.port p).st = .failed) ∧ ((s.port p).st ≠ .down → p ∈ l → (u.port p).st = .failed) := by
  induction l generalizing s with
  | nil => exact ⟨id, fun _ h => absurd h List.not_mem_nil⟩
  | cons q l ih =>
    obtain ⟨hkeep, hfail⟩ := ih (if (s.port q).st = .down then s else failPort q s)
    by_cases hq : (s.port q).st = .down
    · rw [if_pos hq] at hkeep hfail
      rw [List.foldl_cons, if_pos hq]
      refine ⟨hkeep, fun hd hp => hfail hd ?_⟩
      rcases List.mem_cons.1 hp with rfl | hp
      · exact absurd hq hd
      · exact hp
    · have hport := failPort_port q p s
      rw [if_neg hq] at hkeep hfail
      rw [List.foldl_cons, if_neg hq]
      by_cases hpq : p = q
      · have hst : ((failPort q s).port p).st = .failed := by rw [hport, if_pos hpq]; rfl
        exact ⟨fun _ => hkeep hst, fun _ _ => hkeep hst⟩
      · rw [if_neg hpq] at hport
        rw [hport] at hkeep hfail
        refine ⟨hkeep, fun hd hp => hfail hd ?_⟩
        exact (List.mem_cons.1 hp).resolve_left hpq

theorem failPorts_rest (l : List PortId) (s : State) :
    let u := l.foldl (fun s p => if (s.port p).st = .down then s else failPort p s) s
    u.mem = s.mem ∧ u.objs = s.objs := by
  have h := foldl_inv (P := fun u : State => (u.mem, u.objs)) (f := fun s p => if (s.port p).st = .down then s else failPort p s)
    (fun u p => by
      split
      · rfl
      · rw [failPort_eq, State.portEvent_mem, State.portEvent_objs]; rfl) l s
  exact ⟨congrArg Prod.fst h, congrArg Prod.snd h⟩

theorem mem_allPorts {p : PortId} (h : p.toNat ≤ 11) : p ∈ allPorts := by
  unfold allPorts
  refine List.mem_map.2 ⟨p.toNat, List.mem_range.2 (Nat.lt_succ_of_le h), ?_⟩
  exact (BitVec.ofNat_toNat 4 p).trans (BitVec.setWidth_eq p)

section
variable {s : State} (hp : s.resets.pwrgood = true)
include hp

theorem rail_vsram : exec (.railOutOfTolerance .vsram) s = .next ((s.tilesWhere (fun _ => true)).foldl scrambleMemory s) :=
  if_neg (ne_false_of_eq_true hp)

theorem rail_vhub : exec (.railOutOfTolerance .vhub) s = .next (scrambleHub s) := if_neg (ne_false_of_eq_true hp)

theorem rail_vcore (n : BitVec 2) :
    exec (.railOutOfTolerance (.vcore n)) s = .next (scrambleDie n.toNat s) := if_neg (ne_false_of_eq_true hp)

theorem rail_serdes : exec (.railOutOfTolerance .serdes) s =
    .next (allPorts.foldl (fun s p => if (s.port p).st = .down then s else failPort p s) s) := if_neg (ne_false_of_eq_true hp)

end

theorem railsLoseWhatTheyFeed : Rules.RailsLoseWhatTheyFeed := by
  intro s
  refine ⟨fun hp rail => if_pos hp, fun hp => ⟨if_neg (ne_false_of_eq_true hp), if_neg (ne_false_of_eq_true hp),
      if_neg (ne_false_of_eq_true hp),
    ⟨_, if_neg (ne_false_of_eq_true hp), rfl, rfl, rfl, rfl, rfl, rfl⟩, ⟨_, rail_vhub hp, ?_⟩, ⟨_, rail_vsram hp, ?_⟩,
    fun n => ⟨_, rail_vcore hp n, ?_⟩, ⟨_, rail_serdes hp, ?_⟩⟩⟩
  · have hrest := scrambleHub_offHub s
    have hcfg := scrambleHub_cfg s
    generalize scrambleHub s = u at *
    exact ⟨(congrArg State.tiles hrest :), (congrArg State.mem hrest :), (congrArg State.objs hrest :), (congrArg State.ports hrest :),
      (congrArg State.fuses hrest :), (congrArg (fun u => u.resets.count) hrest :), (congrArg (fun u => u.resets.cause) hrest :),
      (congrArg (fun u => u.resets.history) hrest :), hcfg⟩
  · have hrest := foldl_inv (P := State.offDie) (fun u t => (scrambleMemory_rest u t).1) (s.tilesWhere (fun _ => true)) s
    have hobjs := foldl_inv (P := State.objs) (fun u t => (scrambleMemory_rest u t).2) (s.tilesWhere (fun _ => true)) s
    have hctl := fun u => foldl_inv (P := fun x : State => (x.tile u).ctl) (fun x t => scrambleMemory_ctl x t u) (s.tilesWhere (fun _ => true)) s
    generalize (s.tilesWhere (fun _ => true)).foldl scrambleMemory s = u at *
    exact ⟨congrArg Prod.fst hrest, congrArg (fun x => x.2.1) hrest, hobjs, hctl⟩
  · rw [scrambleDie_eq]
    have hrest := foldl_inv (P := State.offDie) scrambleTile_offDie (s.tilesWhere (fun c => s.dieOf c == n.toNat)) s
    have htiles := fun u => scrambleTiles_tile (s.tilesWhere (fun c => s.dieOf c == n.toNat)) (u := u) (s := s)
    generalize (s.tilesWhere (fun c => s.dieOf c == n.toNat)).foldl scrambleTile s = v at *
    have hobjs := scrambleObjs_rest n.toNat v
    generalize scrambleObjs n.toNat v = w at *
    have hw := (hobjs 0).1.trans hrest
    refine ⟨congrArg Prod.fst hw, congrArg (fun x => x.2.1) hw, fun t hcols hdie => (hobjs t).2.trans (htiles t fun hmem => hdie ?_)⟩
    exact beq_iff_eq.1 (col_of_mem_tilesWhere hcols hmem)
  · obtain ⟨hmem, hobjs⟩ := failPorts_rest allPorts s
    exact ⟨hmem, hobjs, fun p hd hle => (failPorts_port allPorts s).2 hd (mem_allPorts hle)⟩

/-- Settles O43: power-on clears by what each step of the clearing leaves; a rail by what its draws leave. -/
theorem powerOnAndRails : Obligations.PowerOnAndRails := ⟨powerOnClearsTheDevice, railsLoseWhatTheyFeed⟩

end Sys2Proof.Machine

namespace Sys2Proof.Machine
open Sys2Proof

/-! ### What stopping a region leaves -/

/-- The frame, the resets and where each region stands. -/
def State.shell (s : State) : FrameSt × Resets × (RegionId → RState) := (s.frame, s.resets, fun q => (s.region q).st)

/-- What of the state a command's completion, an event and the queues of a lane leave alone. -/
def State.base (s : State) : (FrameSt × Resets × (RegionId → RState)) × Mem × (RegionId → Drl) :=
  (s.shell, s.mem, fun q => (s.region q).drl)

theorem State.shell_of_base {s u : State} (h : u.base = s.base) : u.shell = s.shell := congrArg Prod.fst h

theorem State.shell_of_parts {s u : State} (hf : u.frame = s.frame) (hr : u.resets = s.resets)
    (hg : ∀ q, (u.region q).st = (s.region q).st) : u.shell = s.shell := by
  unfold State.shell
  rw [hf, hr, funext hg]

theorem State.base_of_parts {s u : State} (hf : u.frame = s.frame) (hr : u.resets = s.resets) (hm : u.mem = s.mem)
    (hg : ∀ q, (u.region q).st = (s.region q).st ∧ (u.region q).drl = (s.region q).drl) : u.base = s.base := by
  unfold State.base
  rw [State.shell_of_parts hf hr fun q => (hg q).1, hm, funext fun q => (hg q).2]

theorem State.shell_modRegion {r : RegionId} {f : Region → Region} (h : ∀ g, (f g).st = g.st) (s : State) :
    (s.modRegion r f).shell = s.shell := by
  refine State.shell_of_parts rfl rfl fun q => ?_
  rw [State.region_modRegion]
  split
  · next hq => rw [hq]; exact h _
  · rfl

theorem State.base_modRegion {r : RegionId} {f : Region → Region} (h : ∀ g, (f g).st = g.st ∧ (f g).drl = g.drl) (s : State) :
    (s.modRegion r f).base = s.base := by
  refine State.base_of_parts rfl rfl rfl fun q => ?_
  rw [State.region_modRegion]
  split
  · next hq => rw [hq]; exact h _
  · exact ⟨rfl, rfl⟩

@[simp] theorem State.msixSend_base (s : State) (a b : Nat) : (s.msixSend a b).base = s.base :=
  State.base_of_parts (by simp) (by simp) (by simp) (fun q => by simp)

@[simp] theorem State.hubEvent_base (s : State) (b : Nat) : (s.hubEvent b).base = s.base := State.msixSend_base _ _ _

@[simp] theorem State.fwEvent_base (s : State) (r : RegionId) (b : Nat) : (s.fwEvent r b).base = s.base := by
  unfold State.fwEvent
  rw [State.msixSend_base, State.msixSend_base]
  exact State.base_modRegion (by intro; exact ⟨rfl, rfl⟩) s

@[simp] theorem State.mbxDoneVf_base (s : State) (r : RegionId) : (s.mbxDoneVf r).base = s.base := by
  unfold State.mbxDoneVf
  rw [State.msixSend_base]
  exact State.base_modRegion (by intro; exact ⟨rfl, rfl⟩) s

@[simp] theorem State.complete_base (s : State) (f code : Nat) (res : Option Word) : (s.complete f code res).base = s.base := by
  unfold State.complete
  split
  · rfl
  · dsimp only
    split
    · rw [State.hubEvent_base]; rfl
    · rw [State.mbxDoneVf_base]; rfl

@[simp] theorem State.done_base (s : State) (f code : Nat) : (s.done f code).base = s.base := State.complete_base _ _ _ _

@[simp] theorem State.finish_base (s : State) (f op code : Nat) : (s.finish f op code).base = s.base := by
  unfold State.finish
  split
  · exact State.done_base _ _ _
  · rfl

@[simp] theorem State.doneAll_base (s : State) (fs : List Nat) (code : Nat) : (s.doneAll fs code).base = s.base :=
  foldl_inv (P := State.base) (f := fun s f => s.done f code) (fun u f => u.done_base f code) _ _

@[simp] theorem haltNow_base (r : RegionId) (s : State) : (haltNow r s).base = s.base := State.base_modRegion (by intro; exact ⟨rfl, rfl⟩) s

@[simp] theorem State.modLane_base (s : State) (p : PortId) (v : Lane) (f : LaneSt → LaneSt) : (s.modLane p v f).base = s.base := rfl

@[simp] theorem dropMoves_base (r : RegionId) (gone : TxnKind × Txn → Bool) (s : State) : (dropMoves r gone s).base = s.base := by
  unfold dropMoves
  refine foldl_inv (P := State.base) (fun u p => ?_) _ _
  split
  · split <;> rfl
  · rfl

@[simp] theorem fwAbandon_base (r : RegionId) (all : Bool) (s : State) : (fwAbandon r all s).base = s.base := by
  unfold fwAbandon
  dsimp only
  split
  · exact (State.base_modRegion (by intro; exact ⟨rfl, rfl⟩) _).trans (dropMoves_base _ _ _)
  · rfl

@[simp] theorem endExport_base (r : RegionId) (s : State) : (endExport r s).base = s.base := by
  unfold endExport
  split
  · rw [State.fwEvent_base]
    exact State.base_modRegion (by intro; exact ⟨rfl, rfl⟩) s
  · rfl

@[simp] theorem fwFinish_base (r : RegionId) (code : Nat) (s : State) : (fwFinish r code s).base = s.base := by
  unfold fwFinish
  split
  · rfl
  · exact (State.finish_base _ _ _ _).trans (State.base_modRegion (by intro; exact ⟨rfl, rfl⟩) s)

@[simp] theorem emptyInbound_base (r : RegionId) (p : PortId) (s : State) : (emptyInbound r p s).base = s.base := by
  unfold emptyInbound
  dsimp only
  split
  · rfl
  · split <;> rfl

@[simp] theorem flushLane_base (r : RegionId) (p : PortId) (s : State) : (flushLane r p s).base = s.base := by
  unfold flushLane
  dsimp only
  split
  · exact emptyInbound_base r p s
  · split
    · exact emptyInbound_base r p s
    · exact (State.modLane_base _ _ _ _).trans (emptyInbound_base r p s)

theorem State.dropped_base (s : State) (a b : Tab Tile) (c : Tab SyncObj) :
    ({ s with tiles := a, undo := b, objs := c } : State).base = s.base := rfl

@[simp] theorem clearUnits_base (r : RegionId) (s : State) : (clearUnits r s).base = s.base := by
  unfold clearUnits
  dsimp only
  rw [State.base_modRegion (by intro; exact ⟨rfl, rfl⟩), State.dropped_base]
  exact foldl_inv (P := State.base) (f := fun s p => flushLane r p s) (fun u p => flushLane_base r p u) _ _

theorem veilBank_shell (r : RegionId) (bank : Nat) (s : State) : (veilBank r bank s).shell = s.shell :=
  foldl_inv (P := State.shell) (f := fun s c => s.veil (quarterBase c bank) (quarterBase c (bank + 1))) (fun _ _ => rfl) _ _

/-- The end of a derailleur run that is not running is nothing. -/
theorem drlEnd_of_idle {r : RegionId} {s : State} (h : (s.region r).drl.st ≠ .running) (code : Nat) : drlEnd r code s = s := if_pos h

theorem drlEnd_shell (r : RegionId) (code : Nat) (s : State) : (drlEnd r code s).shell = s.shell := by
  have hmark : (s.modRegion r (fun g => { g with drl := { g.drl with
      st := if code = eOk then .done else .failed, released := false, arrived := false } })).shell = s.shell :=
    State.shell_modRegion (by intro; rfl) s
  unfold drlEnd
  dsimp only
  split
  · rfl
  · generalize s.modRegion r _ = v at hmark
    have hveil : (if code = eOk then v else veilBank r ((s.region r).upd.step.toNat % 2) v).shell = s.shell := by
      split
      · exact hmark
      · exact (veilBank_shell _ _ _).trans hmark
    generalize (if code = eOk then v else veilBank r ((s.region r).upd.step.toNat % 2) v) = w at hveil ⊢
    split
    · exact (State.shell_of_base (State.finish_base _ _ _ _)).trans hveil
    · exact hveil

@[simp] theorem State.freeHandles_base (s : State) (f : Nat) : (s.freeHandles f).base = s.base := rfl

theorem doneOps_base (r : RegionId) (s : State) : (revokedOps.foldl (fun s op => s.doneAll (s.inFlightOf op r) eState) s).base = s.base :=
  foldl_inv (P := State.base) (f := fun s op => s.doneAll (s.inFlightOf op r) eState) (fun u _ => State.doneAll_base u _ _) _ _

/-- What a region's stop does after its derailleur run has ended. -/
def stopTail (r : RegionId) (s : State) : State :=
  let s := fwFinish r eState s
  let s := s.modRegion r (fun g => { g with
    loading := none, upd := { g.upd with armed := false, phase := .idle, startMet := false, disarm := false, seen := none } })
  let s := revokedOps.foldl (fun s op => s.doneAll (s.inFlightOf op r) eState) (dropMoves r isAnyMove s)
  (s.done (1 + r.toNat) eState).freeHandles (1 + r.toNat)

theorem stopTail_base (r : RegionId) (s : State) : (stopTail r s).base = s.base := by
  unfold stopTail
  dsimp only
  rw [State.freeHandles_base, State.done_base, doneOps_base, dropMoves_base, State.base_modRegion (by intro; exact ⟨rfl,
      rfl⟩), fwFinish_base]

theorem stopRegion_eq (r : RegionId) (s : State) :
    stopRegion r s = stopTail r (drlEnd r eState (endExport r (fwAbandon r true (haltNow r s)))) := rfl

theorem beforeDrlEnd_base (r : RegionId) (s : State) : (endExport r (fwAbandon r true (haltNow r s))).base = s.base := by
  rw [endExport_base, fwAbandon_base, haltNow_base]

theorem stopRegion_shell (r : RegionId) (s : State) : (stopRegion r s).shell = s.shell := by
  rw [stopRegion_eq, State.shell_of_base (stopTail_base _ _), drlEnd_shell, State.shell_of_base (beforeDrlEnd_base _ _)]

theorem stopRegion_base {r : RegionId} {s : State} (h : (s.region r).drl.st ≠ .running) : (stopRegion r s).base = s.base := by
  have hdrl : ((endExport r (fwAbandon r true (haltNow r s))).region r).drl = (s.region r).drl :=
    congrFun (congrArg (fun b => b.2.2) (beforeDrlEnd_base r s)) r
  rw [stopRegion_eq, stopTail_base, drlEnd_of_idle (by rw [hdrl]; exact h), beforeDrlEnd_base]

/-- What a region has lost before it is left unconfigured. -/
def regionCleared (r : RegionId) (s : State) : State := if (s.region r).cfg.isSome then clearUnits r (stopRegion r s) else s

theorem dropRegion_eq (r : RegionId) (s : State) : dropRegion r s = (regionCleared r s).modRegion r (fun g =>
    { g.revoked with cfg := none, st := .unconfigured, digest := 0 }) := rfl

theorem regionCleared_shell (r : RegionId) (s : State) : (regionCleared r s).shell = s.shell := by
  unfold regionCleared
  split
  · rw [State.shell_of_base (clearUnits_base _ _), stopRegion_shell]
  · rfl

theorem regionCleared_base {r : RegionId} {s : State} (h : (s.region r).drl.st ≠ .running) : (regionCleared r s).base = s.base := by
  unfold regionCleared
  split
  · rw [clearUnits_base, stopRegion_base h]
  · rfl

theorem dropRegion_st (r q : RegionId) (s : State) :
    ((dropRegion r s).region q).st = if q = r then .unconfigured else (s.region q).st := by
  rw [dropRegion_eq, State.region_modRegion]
  split
  · rfl
  · exact congrFun (congrArg (fun x => x.2.2) (regionCleared_shell r s)) q

theorem dropRegion_frame (r : RegionId) (s : State) : (dropRegion r s).frame = s.frame ∧ (dropRegion r s).resets = s.resets :=
  ⟨(congrArg (fun x => x.1) (regionCleared_shell r s) :), (congrArg (fun x => x.2.1) (regionCleared_shell r s) :)⟩

/-- Memory, and no derailleur run. -/
theorem dropRegion_mem {r : RegionId} {s : State} (h : ∀ q, (s.region q).drl.st ≠ .running) :
    (dropRegion r s).mem = s.mem ∧ ∀ q, ((dropRegion r s).region q).drl.st ≠ .running := by
  have hbase := regionCleared_base (h r)
  have hdrl (q : RegionId) : ((regionCleared r s).region q).drl = (s.region q).drl := congrFun (congrArg (fun b => b.2.2) hbase) q
  refine ⟨(congrArg (fun b => b.2.1) hbase :), fun q => ?_⟩
  rw [dropRegion_eq, State.region_modRegion]
  split
  · next hq =>
    show ((regionCleared r s).region r).drl.st ≠ .running
    rw [hdrl]
    exact h r
  · rw [hdrl]
    exact h q

theorem dropRegions_frame (l : List RegionId) (s : State) :
    (l.foldl (fun s r => dropRegion r s) s).frame = s.frame ∧ (l.foldl (fun s r => dropRegion r s) s).resets = s.resets :=
  ⟨foldl_inv (P := State.frame) (f := fun s r => dropRegion r s) (fun u r => (dropRegion_frame r u).1) l s,
    foldl_inv (P := State.resets) (f := fun s r => dropRegion r s) (fun u r => (dropRegion_frame r u).2) l s⟩

theorem dropRegions_mem (l : List RegionId) {s : State} (h : ∀ q, (s.region q).drl.st ≠ .running) :
    (l.foldl (fun s r => dropRegion r s) s).mem = s.mem := by
  induction l generalizing s with
  | nil => rfl
  | cons r l ih =>
    obtain ⟨hmem, hidle⟩ := dropRegion_mem (r := r) h
    rw [List.foldl_cons, ih hidle, hmem]

theorem dropRegions_st (l : List RegionId) {q : RegionId} (s : State) (h : (s.region q).st = .unconfigured ∨ q ∈ l) :
    ((l.foldl (fun s r => dropRegion r s) s).region q).st = .unconfigured := by
  induction l generalizing s with
  | nil => exact h.resolve_right List.not_mem_nil
  | cons r l ih =>
    rw [List.foldl_cons]
    refine ih _ ?_
    rw [dropRegion_st]
    by_cases hq : q = r
    · exact .inl (if_pos hq)
    · rw [if_neg hq]
      exact h.imp_right fun hm => (List.mem_cons.1 hm).resolve_left hq

theorem mem_allRegions (r : RegionId) : r ∈ allRegions :=
  List.mem_map.2 ⟨r.toNat, List.mem_range.2 r.isLt, (BitVec.ofNat_toNat 6 r).trans (BitVec.setWidth_eq r)⟩

/-! ### Resets -/

/-- A trip and a pulse of COLD_RST_N touch the thermal hold alone. -/
theorem thermCheck_cases (s : State) : thermCheck s = s ∨
    thermCheck s = { s with resets := { s.resets with thermHold := false, thermtrip := false } } := by
  unfold thermCheck
  split
  · exact .inr rfl
  · exact .inl rfl

theorem fuses_of_idle {s : State} (h : s.pulsing = false) : { s.fuses with pulse := none, revokePulse := none } = s.fuses := by
  obtain ⟨h1, h2⟩ := Bool.or_eq_false_iff.1 h
  cases hf : s.fuses with
  | mk => simp_all

section
variable {s : State} (hp : s.resets.pwrgood = true)
include hp

theorem arriveReset_of_pulsing (h : s.pulsing = true) (k : Source) :
    arriveReset k s = { s with resets := { s.resets with held := s.resets.held ++ [k] } } :=
  (if_neg (ne_false_of_eq_true hp)).trans (if_pos h)

theorem arriveReset_of_idle (h : s.pulsing = false) (k : Source) : arriveReset k s = makeReset k s :=
  (if_neg (ne_false_of_eq_true hp)).trans (if_neg (ne_true_of_eq_false h))

end

theorem makeReset_of_absorbed {s : State} {k : Source} (h : s.absorbs k = true) : makeReset k s = sourceMarks k s := if_pos h

theorem pulseTaken_short {ns : Nat} (h : ns < 100) (s : State) : pulseTaken ns s = (false, s) := if_pos h

theorem pulseTaken_long {ns : Nat} (h : 1000 ≤ ns) (s : State) : pulseTaken ns s = (true, s) :=
  (if_neg (by omega)).trans (if_neg (by omega))

theorem pulseTaken_between {ns : Nat} (hlo : 100 ≤ ns) (hhi : ns < 1000) (s : State) :
    pulseTaken ns s = (Config.free 1 s.free == 1, { s with free := s.free + 1 }) :=
  (if_neg (by omega)).trans (if_pos hhi)

/-- A pulse of a reset pin, by its width. -/
def pinReset (k : Source) (ns : Nat) (s : State) : Host.Outcome State Fault Refusal :=
  .next (if (pulseTaken ns s).1 then arriveReset k (pulseTaken ns s).2 else (pulseTaken ns s).2)

theorem coldRstN_eq (ns : Nat) (s : State) : exec (.coldRstN ns) s = pinReset .coldPin ns s := rfl

theorem warmRstN_eq (ns : Nat) (s : State) : exec (.warmRstN ns) s = pinReset .warmPin ns s := rfl

theorem perstN_eq (ns : Nat) (s : State) : exec (.perstN ns) s = pinReset .perst ns s := rfl

theorem pinReset_short {ns : Nat} (h : ns < 100) (k : Source) (s : State) : pinReset k ns s = .next s := by
  unfold pinReset
  rw [pulseTaken_short h]
  rfl

theorem pinReset_long {ns : Nat} (h : 1000 ≤ ns) (k : Source) (s : State) : pinReset k ns s = .next (arriveReset k s) := by
  unfold pinReset
  rw [pulseTaken_long h]
  rfl

theorem pinReset_between {ns : Nat} (hlo : 100 ≤ ns) (hhi : ns < 1000) (k : Source) (s : State) :
    pinReset k ns s = .next { s with free := s.free + 1 } ∨ pinReset k ns s = pinReset k 1000 { s with free := s.free + 1 } := by
  rw [pinReset_long (Nat.le_refl 1000)]
  unfold pinReset
  rw [pulseTaken_between hlo hhi]
  dsimp only
  split
  · exact .inr rfl
  · exact .inl rfl

/-- The regions dropped, as the warm reset does it. -/
def unregioned (s : State) : State := allRegions.foldl (fun s r => dropRegion r s) (s.doneAll s.busyMail eState)

theorem unregioned_frame (s : State) : (unregioned s).frame = s.frame ∧ (unregioned s).resets = s.resets := by
  obtain ⟨hf, hr⟩ := dropRegions_frame allRegions (s.doneAll s.busyMail eState)
  have hbase := State.doneAll_base s s.busyMail eState
  exact ⟨hf.trans (congrArg (fun b => b.1.1) hbase), hr.trans (congrArg (fun b => b.1.2.1) hbase)⟩

theorem unregioned_mem {s : State} (h : ∀ r, (s.region r).drl.st ≠ .running) : (unregioned s).mem = s.mem := by
  have hbase := State.doneAll_base s s.busyMail eState
  have hdrl (r : RegionId) : ((s.doneAll s.busyMail eState).region r).drl = (s.region r).drl := congrFun (congrArg (fun b => b.2.2) hbase) r
  exact (dropRegions_mem allRegions fun r => by rw [hdrl]; exact h r).trans (congrArg (fun b => b.2.1) hbase)

theorem unregioned_st (s : State) (r : RegionId) : ((unregioned s).region r).st = .unconfigured :=
  dropRegions_st allRegions _ (.inr (mem_allRegions r))

/-- What is left of a warm reset once the regions are dropped. -/
def warmTail (k : Source) (s : State) : State :=
  let s := { s with
    tiles := [], undo := [], objs := [], tilesAt := none, hw := Tab.mapVals (fun (_ : Nat) (h : TileHw) => h.still) s.hw,
    parity := s.parity.filter (fun h => h.region.isNone), stopped := [],
    hub := { s.hub with bufs := Tab.mapVals (fun (_ : Nat) (t : Tab Buffer) => Tab.mapVals (fun (_ : Nat) (b : Buffer) => b.free) t) s.hub.bufs },
    frame := { s.frame with epoch := s.frame.epoch + 1, loading := none, store := s.frame.store.filter (fun q => q.1 == 1) } }
  beginOrder k [2, 8] { s with resets := { s.resets with warm := true } }

theorem doWarm_eq (k : Source) (s : State) : doWarm k s = warmTail k (unregioned s) := rfl

theorem State.fuses_of_held {s u : State} (h : u.held = s.held) : u.fuses = s.fuses := congrArg (fun x => x.2.2) h

/-- A cold reset from the pin, before the thermal hold is looked at. -/
def coldPinned (s : State) : State :=
  let s := beginOrder .coldPin [2, 3, 4, 5, 6, 7, 8] (coldClear (recordReset .coldPin s))
  { s with resets := { s.resets with thermPulsed := true } }

/-- Settles O44: a pin by its pulse, a reset by its kind, and a warm one by what dropping every region leaves. -/
theorem resetsAreTakenByTheirKind : Obligations.ResetsAreTakenByTheirKind := by
  unfold Obligations.ResetsAreTakenByTheirKind
  intro s hp
  refine ⟨fun ns h => ⟨pinReset_short h _ s, pinReset_short h _ s, pinReset_short h _ s⟩,
    fun ns hlo hhi => ⟨pinReset_between hlo hhi _ s, pinReset_between hlo hhi _ s, pinReset_between hlo hhi _ s⟩,
    fun hpulse ns h => ⟨?_, ?_, ?_⟩, fun hidle => ⟨fun ns h ha => ?_, fun ns h ha => ?_, fun ns h => ⟨fun ha => ?_,
    fun ha => ?_⟩, fun ha => ?_,
      fun hrun ha => ?_, fun ha => ?_⟩, fun k t rest hcmd => ⟨fun hdue => ?_, fun hearly => ?_⟩, fun hhold => if_pos hhold⟩
  · exact (pinReset_long h _ s).trans (congrArg Host.Outcome.next (arriveReset_of_pulsing hp hpulse _))
  · exact (pinReset_long h _ s).trans (congrArg Host.Outcome.next (arriveReset_of_pulsing hp hpulse _))
  · exact (pinReset_long h _ s).trans (congrArg Host.Outcome.next (arriveReset_of_pulsing hp hpulse _))
  · have hmade : makeReset .coldPin s = thermCheck (coldPinned s) := if_neg (ne_true_of_eq_false ha)
    have hexec : exec (.coldRstN ns) s = .next (thermCheck (coldPinned s)) :=
      (pinReset_long h _ s).trans (congrArg Host.Outcome.next ((arriveReset_of_idle hp hidle _).trans hmade))
    rcases thermCheck_cases (coldPinned s) with hc | hc
    · exact ⟨_, hexec.trans (congrArg Host.Outcome.next hc), rfl, rfl, rfl, rfl, rfl, fuses_of_idle hidle, rfl, rfl, rfl, rfl, rfl⟩
    · exact ⟨_, hexec.trans (congrArg Host.Outcome.next hc), rfl, rfl, rfl, rfl, rfl, fuses_of_idle hidle, rfl, rfl, rfl, rfl, rfl⟩
  · have hmade : makeReset .warmPin s = warmTail .warmPin (unregioned (recordReset .warmPin s)) := if_neg (ne_true_of_eq_false ha)
    have hfuses : (warmTail .warmPin (unregioned (recordReset .warmPin s))).fuses = s.fuses := by
      rw [← doWarm_eq]
      exact State.fuses_of_held (doWarm_held .warmPin (recordReset .warmPin s))
    obtain ⟨hframe, hres⟩ := unregioned_frame (recordReset .warmPin s)
    have hst := unregioned_st (recordReset .warmPin s)
    have hmem := unregioned_mem (s := recordReset .warmPin s)
    refine ⟨_, (pinReset_long h _ s).trans (congrArg Host.Outcome.next ((arriveReset_of_idle hp hidle _).trans hmade)), ?_⟩
    generalize unregioned (recordReset .warmPin s) = v at *
    exact ⟨rfl, rfl, hst, fun hdrl => hmem hdrl, hfuses, (congrArg Resets.count hres :), (congrArg Resets.cause hres :), rfl, rfl, rfl,
      (congrArg (fun f => f.epoch + 1) hframe :)⟩
  · exact (pinReset_long h _ s).trans (congrArg Host.Outcome.next ((arriveReset_of_idle hp hidle _).trans (if_neg (ne_true_of_eq_false ha))))
  · exact (pinReset_long h _ s).trans (congrArg Host.Outcome.next ((arriveReset_of_idle hp hidle _).trans (makeReset_of_absorbed ha)))
  · exact congrArg Host.Outcome.next ((arriveReset_of_idle hp hidle _).trans (makeReset_of_absorbed ha))
  · exact (if_pos hrun).trans (congrArg Host.Outcome.next ((arriveReset_of_idle hp hidle _).trans (if_neg (ne_true_of_eq_false ha))))
  · exact ⟨_, congrArg Host.Outcome.next ((arriveReset_of_idle hp hidle _).trans (if_neg (ne_true_of_eq_false ha))), rfl,
        rfl, rfl, rfl, rfl, rfl, rfl⟩
  · show execResetCommandStart s = _
    unfold execResetCommandStart
    rw [hcmd]
    exact if_pos hdue
  · show execResetCommandStart s = _
    unfold execResetCommandStart
    rw [hcmd]
    exact if_neg (Nat.not_le_of_lt hearly)

end Sys2Proof.Machine

namespace Sys2Proof.Machine
open Sys2Proof

/-! ### The release order and the ends of fuse pulses -/

section
variable {s : State} {k : Nat} {rest : List Nat} (hplan : s.resets.plan = k :: rest)
include hplan

theorem resetReleaseStep_waits {w : Bool} (h : s.stepEnds k w = false) (ok : BitVec 8) : exec (.resetReleaseStep w ok) s = .next s := by
  show execResetReleaseStep w ok s = _
  unfold execResetReleaseStep
  rw [hplan]
  exact if_pos h

theorem resetReleaseStep_die {w : Bool} (h : s.stepEnds k w = true) (hk : k = 5) (hd : s.resets.dies < 3) (ok : BitVec 8) :
    exec (.resetReleaseStep w ok) s = .next { s with resets := { s.resets with dies := s.resets.dies + 1 } } := by
  show execResetReleaseStep w ok s = _
  unfold execResetReleaseStep
  rw [hplan]
  exact (if_neg (ne_false_of_eq_true h)).trans (if_pos ⟨hk, hd⟩)

theorem resetReleaseStep_ends {w : Bool} (h : s.stepEnds k w = true) (hk : k ≠ 5) (ok : BitVec 8) : exec (.resetReleaseStep w ok) s =
    .next (if rest.isEmpty then
        { stepDone k ok s with resets := { (stepDone k ok s).resets with plan := rest, ready := true, warm := false, source := none } }
      else { stepDone k ok s with resets := { (stepDone k ok s).resets with plan := rest } }) := by
  show execResetReleaseStep w ok s = _
  unfold execResetReleaseStep
  rw [hplan]
  refine (if_neg (ne_false_of_eq_true h)).trans ((if_neg fun h => hk h.1).trans ?_)
  dsimp only
  rw [if_neg hk]

theorem resetReleaseStep_goes {w : Bool} (h : s.stepEnds k w = true) (hk : k ≠ 5) (hrest : rest ≠ []) (ok : BitVec 8) :
    exec (.resetReleaseStep w ok) s = .next { stepDone k ok s with resets := { (stepDone k ok s).resets with plan := rest } } := by
  rw [resetReleaseStep_ends hplan h hk, if_neg (by simp [hrest])]

end

theorem stepEnds_of_hold {s : State} {k : Nat} (hh : s.resets.thermHold = true) (hk : 2 ≤ k) (w : Bool) : s.stepEnds k w = false := by
  simp [State.stepEnds, hh, hk]

theorem stepEnds_of_unwaited {s : State} {k : Nat} (hk : k = 3 ∨ k = 4 ∨ k = 6 ∨ k = 8) : s.stepEnds k false = false := by
  rcases hk with rfl | rfl | rfl | rfl <;> simp [State.stepEnds]

theorem theReleaseOrderEndsInReady : Rules.TheReleaseOrderEndsInReady := by
  intro s k rest hplan
  refine ⟨fun hh hk w ok => resetReleaseStep_waits hplan (stepEnds_of_hold hh hk w) ok,
    fun hk ok => resetReleaseStep_waits hplan (stepEnds_of_unwaited hk) ok, fun hh => ⟨fun hk hs hrest ok => ?_, fun hk hs w ok => ?_,
      fun hk hd w ok => ?_, fun hk hrest ok => ?_, fun hk hrest ok => ?_, fun hk hrest w ok => ?_⟩⟩
  · subst hk
    have hread : s.resets.straps[3] = false := hs
    exact resetReleaseStep_goes hplan (by simp [State.stepEnds, hh, hread]) (by decide) hrest ok
  · subst hk
    exact resetReleaseStep_waits hplan (by simp [State.stepEnds, hs]) ok
  · subst hk
    exact resetReleaseStep_die hplan (by simp [State.stepEnds, hh]) rfl hd ok
  · subst hk hrest
    exact resetReleaseStep_ends hplan (by simp [State.stepEnds, hh]) (by decide) ok
  · subst hk
    exact resetReleaseStep_goes hplan (by simp [State.stepEnds, hh]) (by decide) hrest ok
  · rcases hk with rfl | rfl | rfl <;> exact resetReleaseStep_goes hplan (by simp [State.stepEnds, hh]) (by decide) hrest ok

theorem heldResets_of_none {s : State} (hk : s.resets.held = []) (hf : s.resets.heldFlr = []) : heldResets s = s := by
  have hsame : ({ s with resets := { s.resets with held := [], heldFlr := [] } } : State) = s := by
    rw [← hk, ← hf]
  unfold heldResets
  dsimp only
  rw [hk, hf]
  exact hsame

theorem fusePulsesEnd : Rules.FusePulsesEnd := by
  intro s
  refine ⟨fun fn col ok hp => ⟨?_, rfl⟩, fun fn k hp => ?_, heldResets_of_none⟩
  · show execRetireFusePulseEnd ok s = _
    unfold execRetireFusePulseEnd
    rw [hp]
  · show execRevokeFusePulseEnd s = _
    unfold execRevokeFusePulseEnd
    rw [hp]

/-- Settles O45: a step of the order by whether it ends, a pulse by its fuse. -/
theorem theReleaseOrderAndFusePulses : Obligations.TheReleaseOrderAndFusePulses := ⟨theReleaseOrderEndsInReady, fusePulsesEnd⟩

end Sys2Proof.Machine

namespace Sys2Proof.Machine
open Sys2Proof

/-! ### Commands accepted (17 R423 to R431) -/

/-- A doorbell that passes the shared checks is its command's own work. -/
theorem mailCommand_of_accepts {op : Nat} {scope : Scope} {named : List (Nat × Nat)} {fn : Fn} {rg : RegionId} {tag : BitVec 16}
    {a : ArgBlock} {s : State} (h : Accepts s scope named fn rg a) (body : Call → State → State) :
    mailCommand op scope named noHref fn rg tag a body s =
      body { fn := fn, f := fnNo fn, r := windowOf fn rg, a := a } (s.rung op fn rg tag a) :=
  (doorbellsAreCheckedInOrder s op scope named fn rg tag a body).2.2.2 h

theorem State.rung_busy (s : State) (op : Nat) (fn : Fn) (rg : RegionId) (tag : BitVec 16) (a : ArgBlock) :
    ((s.rung op fn rg tag a).mail (fnNo fn)).busy = true := by
  rw [State.rung, State.mail_modMail, if_pos rfl]

/-- What a command with a host reference does first: the reference is checked. -/
def afterHref (reach : State → Call → Option Nat) (body : Call → State → State) (c : Call) (s : State) : State :=
  match reach s c with
  | some n => match s.hrefCheck c n with
    | some e => s.done c.f e
    | none => body c s
  | none => body c s

theorem mailCommand_href (op : Nat) (scope : Scope) (named : List (Nat × Nat)) (reach : State → Call → Option Nat) (fn : Fn) (rg : RegionId)
    (tag : BitVec 16) (a : ArgBlock) (body : Call → State → State) (s : State) :
    mailCommand op scope named reach fn rg tag a body s = mailCommand op scope named noHref fn rg tag a (afterHref reach body) s := rfl

theorem afterHref_of_none {reach : State → Call → Option Nat} {c : Call} {s : State} (h : reach s c = none) (body : Call → State → State) :
    afterHref reach body c s = body c s := by
  unfold afterHref
  rw [h]

theorem afterHref_of_bad {reach : State → Call → Option Nat} {c : Call} {s : State} {n e : Nat} (h : reach s c = some n)
    (he : s.hrefCheck c n = some e) (body : Call → State → State) : afterHref reach body c s = s.done c.f e := by
  unfold afterHref
  rw [h]
  dsimp only
  rw [he]

theorem afterHref_of_good {reach : State → Call → Option Nat} {c : Call} {s : State} {n : Nat} (h : reach s c = some n)
    (he : s.hrefCheck c n = none) (body : Call → State → State) : afterHref reach body c s = body c s := by
  unfold afterHref
  rw [h]
  dsimp only
  rw [he]

section
variable {op n : Nat} {scope : Scope} {named : List (Nat × Nat)} {reach : State → Call → Option Nat} {fn : Fn} {rg : RegionId}
  {tag : BitVec 16} {a : ArgBlock} {s : State} (h : Accepts s scope named fn rg a)
  (hn : reach (s.rung op fn rg tag a) { fn := fn, f := fnNo fn, r := windowOf fn rg, a := a } = some n)
include h hn

theorem mailCommand_of_badHref {e : Nat}
    (he : (s.rung op fn rg tag a).hrefCheck { fn := fn, f := fnNo fn, r := windowOf fn rg, a := a }
      n = some e) (body : Call → State → State) :
    mailCommand op scope named reach fn rg tag a body s = (s.rung op fn rg tag a).done (fnNo fn) e := by
  rw [mailCommand_href, mailCommand_of_accepts h, afterHref_of_bad hn he]

theorem mailCommand_of_goodHref
    (he : (s.rung op fn rg tag a).hrefCheck { fn := fn, f := fnNo fn, r := windowOf fn rg, a := a }
      n = none) (body : Call → State → State) :
    mailCommand op scope named reach fn rg tag a body s =
      body { fn := fn, f := fnNo fn, r := windowOf fn rg, a := a } (s.rung op fn rg tag a) := by
  rw [mailCommand_href, mailCommand_of_accepts h, afterHref_of_good hn he]

end

/-! ### The frame, the fuses and the links -/

section
variable {op : Nat} {whole : Bool} {tag : BitVec 16} {a : ArgBlock} {s : State} (h : Accepts s .d [(0, 4), (8, 12)] .pf 0 a)
include h

theorem loadFrame_of_badHref {e : Nat}
    (he : (s.rung op .pf 0 tag a).hrefCheck { fn := .pf, f := 0, r := 0, a := a } (argAt a 16 4) = some e) :
    loadFrame op whole .pf 0 tag a s = (s.rung op .pf 0 tag a).done 0 e := mailCommand_of_badHref h rfl he _

theorem loadFrame_of_goodHref (he : (s.rung op .pf 0 tag a).hrefCheck { fn := .pf, f := 0, r := 0, a := a } (argAt a 16 4) = none)
    (hl : s.frame.loading = none) (hp : s.fuses.pulse = none) (hw : whole = true → s.anyGranted = false)
    (hr : whole = false → s.frame.loaded = true) : loadFrame op whole .pf 0 tag a s =
      { s.rung op .pf 0 tag a with frame := { (s.rung op .pf 0 tag a).frame with loading := some (.pf, whole, argAt a 16 4) } } := by
  have hbusy : ¬(s.frame.loading.isSome || s.fuses.pulse.isSome) = true := by simp [hl, hp]
  have hgranted : ¬(whole && s.anyGranted) = true := fun hall =>
    Bool.false_ne_true ((hw (Bool.and_eq_true_iff.1 hall).1).symm.trans (Bool.and_eq_true_iff.1 hall).2)
  have hloaded : ¬(!whole && !s.frame.loaded) = true := by
    cases whole with
    | true => exact Bool.false_ne_true
    | false => rw [hr rfl]; exact Bool.false_ne_true
  exact (mailCommand_of_goodHref h rfl he _).trans ((if_neg hbusy).trans ((if_neg hgranted).trans (if_neg hloaded)))

end

section
variable {s : State} {fn : Fn} {whole : Bool} {len : Nat} {image : List Byte} (h : s.frame.loading = some (fn, whole, len))
include h

theorem frameLoadComplete_short (hlen : image.length ≠ len) : exec (.frameLoadComplete image) s =
    .next (({ s with frame := { s.frame with loading := none } } : State).finish (fnNo fn) (if whole then 0x01 else 0x02)
      (shortCode { s with frame := { s.frame with loading := none } } whole len image)) := by
  show execFrameLoadComplete image s = _
  unfold execFrameLoadComplete
  rw [h]
  exact if_pos hlen

theorem frameLoadComplete_bad (hlen : image.length = len) {e : Nat}
    (he : frameCheck { s with frame := { s.frame with loading := none } } whole len image = some e) : exec (.frameLoadComplete image) s =
    .next (({ s with frame := { s.frame with loading := none } } : State).finish (fnNo fn) (if whole then 0x01 else 0x02) e) := by
  show execFrameLoadComplete image s = _
  unfold execFrameLoadComplete
  rw [h]
  refine (if_neg (not_not_intro hlen)).trans ?_
  rw [he]

theorem frameLoadComplete_good (hlen : image.length = len)
    (he : frameCheck { s with frame := { s.frame with loading := none } } whole len image = none) : exec (.frameLoadComplete image) s =
    .next ((if whole then applyWhole image { s with frame := { s.frame with loading := none } }
      else applyRegion image { s with frame := { s.frame with loading := none } }).finish (fnNo fn) (if whole then 0x01 else 0x02) eOk) := by
  show execFrameLoadComplete image s = _
  unfold execFrameLoadComplete
  rw [h]
  refine (if_neg (not_not_intro hlen)).trans ?_
  rw [he]

end

/-- A port that a LINK_RETRAIN names trains anew. -/
def Port.retrained (x : Port) (beats : Nat) : Port :=
  { ({ x with full := true } : Port).deskew with
    st := .training, trainAt := beats, resend := [], nakSeq := none, nakCount := 0, replayAt := none }

/-- LINK_RETRAIN's work at one port. -/
def retrain (ps : Nat) (s : State) (p : PortId) : State :=
  if ps.testBit p.toNat then startTraining p (s.modPort p (fun x => { x with full := true })) else s

theorem retrain_port (ps : Nat) (s : State) (p q : PortId) :
    (retrain ps s q).port p = if p = q ∧ ps.testBit p.toNat = true then (s.port p).retrained s.beats else s.port p := by
  unfold retrain
  by_cases hpq : p = q
  · subst hpq
    by_cases hb : ps.testBit p.toNat = true
    · rw [if_pos hb, if_pos ⟨rfl, hb⟩]
      refine (State.port_modPort _ p p _).trans ((if_pos rfl).trans ?_)
      rw [State.port_modPort, if_pos rfl]
      rfl
    · rw [if_neg hb, if_neg fun h : p = p ∧ _ => hb h.2]
  · rw [if_neg fun h : p = q ∧ _ => hpq h.1]
    split
    · refine (State.port_modPort _ q p _).trans ((if_neg hpq).trans ?_)
      rw [State.port_modPort, if_neg hpq]
    · rfl

/-- All but the ports. -/
def State.offPorts (s : State) : State := { s with ports := [] }

theorem retrain_offPorts (ps : Nat) (s : State) (q : PortId) : (retrain ps s q).offPorts = s.offPorts := by
  unfold retrain
  split <;> rfl

theorem retrains_offPorts (ps : Nat) (l : List PortId) (s : State) : (l.foldl (retrain ps) s).offPorts = s.offPorts :=
  foldl_inv (P := State.offPorts) (f := retrain ps) (fun u q => retrain_offPorts ps u q) l s

theorem retrains_port (ps : Nat) {l : List PortId} (hnodup : l.Nodup) (s : State) (p : PortId) :
    (l.foldl (retrain ps) s).port p = if p ∈ l ∧ ps.testBit p.toNat = true then (s.port p).retrained s.beats else s.port p := by
  induction l generalizing s with
  | nil => exact (if_neg fun h => List.not_mem_nil h.1).symm
  | cons q l ih =>
    obtain ⟨hq, hl⟩ := List.nodup_cons.1 hnodup
    have hbeats : (retrain ps s q).beats = s.beats := (congrArg State.beats (retrain_offPorts ps s q) :)
    rw [List.foldl_cons, ih hl, hbeats, retrain_port]
    by_cases hpq : p = q
    · subst hpq
      simp [hq]
    · simp [hpq]

theorem allPorts_nodup : allPorts.Nodup := by decide

theorem State.done_port (s : State) (f code : Nat) (p : PortId) : (s.done f code).port p = s.port p := by
  unfold State.done State.complete
  split
  · rfl
  · dsimp only
    split
    · exact State.msixSend_port _ _ _ _
    · exact State.msixSend_port _ _ _ _

section
variable {s : State} {tag : BitVec 16} {a : ArgBlock}

section
variable (h : Accepts s .d [(0, 2)] .pf 0 a)
include h

theorem retireColumn_eq (hl : s.frame.loading = none) (hp : s.fuses.pulse = none) : exec (.retireColumn .pf 0 tag a) s =
    .next (if s.columns ≤ argAt a 0 2 then (s.rung 0x03 .pf 0 tag a).done 0 eRange
      else if s.fuses.parked.contains (argAt a 0 2) then (s.rung 0x03 .pf 0 tag a).done 0 eState
      else if s.regions.any (fun e => (e.2.st == .granted || e.2.st == .granting || e.2.st == .revoking) && (match e.2.cfg with
          | some q => decide (q.col0 ≤ argAt a 0 2) && decide (argAt a 0 2 < q.col0 + q.ncols)
          | none => false)) then (s.rung 0x03 .pf 0 tag a).done 0 eNotidle
      else if 8 ≤ s.fuses.entries.length then (s.rung 0x03 .pf 0 tag a).done 0 eNores
      else { s.rung 0x03 .pf 0 tag a with fuses := { s.fuses with pulse := some (.pf, argAt a 0 2) } }) := by
  have hbusy : ¬(s.frame.loading.isSome || s.fuses.pulse.isSome) = true := by simp [hl, hp]
  exact congrArg Host.Outcome.next ((mailCommand_of_accepts h _).trans (if_neg hbusy))

theorem linkRetrain_eq : exec (.linkRetrain .pf 0 tag a) s =
    .next (if 4096 ≤ argAt a 0 2 ∨ allPorts.any (fun p => (argAt a 0 2).testBit p.toNat && !s.portEnabled p) then
        (s.rung 0x06 .pf 0 tag a).done 0 eBadarg
      else (allPorts.foldl (retrain (argAt a 0 2)) (s.rung 0x06 .pf 0 tag a)).done 0 eOk) :=
  congrArg Host.Outcome.next (mailCommand_of_accepts h _)

end

theorem revokeKey_eq (h : Accepts s .d [(0, 1)] .pf 0 a) : exec (.revokeKey .pf 0 tag a) s =
    .next (if 3 < argAt a 0 1 then (s.rung 0x04 .pf 0 tag a).done 0 eRange
      else if s.fuses.revoked.getLsbD (argAt a 0 1) then (s.rung 0x04 .pf 0 tag a).done 0 eOk
      else if popCount s.fuses.revoked.toNat 4 = 3 then (s.rung 0x04 .pf 0 tag a).done 0 eState
      else { s.rung 0x04 .pf 0 tag a with fuses := { s.fuses with revokePulse := some (.pf, BitVec.ofNat 2 (argAt a 0 1)) } }) :=
  congrArg Host.Outcome.next (mailCommand_of_accepts h _)

end

/-- No region is granted, on its way to it, or leaving it. -/
theorem idleRegions {s : State} {p : Nat × Region → Bool} (h : ∀ e ∈ s.regions, e.2.st = .unconfigured ∨ e.2.st = .configured) :
    ¬s.regions.any (fun e => (e.2.st == .granted || e.2.st == .granting || e.2.st == .revoking) && p e) = true := by
  intro hany
  obtain ⟨e, he, hst⟩ := List.any_eq_true.1 hany
  rcases h e he with h | h <;> simp [h] at hst

/-- Settles O47: an accepted command is its own work, and that is a table of cases. -/
theorem deviceSetupCommands : Obligations.DeviceSetupCommands := by
  unfold Obligations.DeviceSetupCommands
  intro s tag a
  refine ⟨fun op whole hop hacc => ⟨fun e he => ?_, fun he ⟨hl, hp⟩ hw hr => ?_⟩, fun fn whole len image hload =>
      ⟨fun hlen => ?_, fun hlen => ?_⟩, fun hacc => ⟨fun ⟨hl, hp⟩ hcol => ?_, fun ⟨hl,
      hp⟩ hcol hpark hidle => ⟨fun hlen => ?_, fun hlen => ?_⟩⟩,
    fun hacc => ⟨fun hkey => ?_, fun hkey hrev => ⟨fun hpop => ?_, fun hpop => ?_⟩⟩, fun hacc hg => ⟨fun hdev => ?_,
    fun hdev hx hxd hy hyd hz hzd => ?_⟩,
    fun hacc => ⟨fun hps => ?_, fun hps hen => ?_⟩⟩
  · rcases hop with ⟨rfl, rfl⟩ | ⟨rfl, rfl⟩
    · exact congrArg Host.Outcome.next (loadFrame_of_badHref hacc he)
    · exact congrArg Host.Outcome.next (loadFrame_of_badHref hacc he)
  · rcases hop with ⟨rfl, rfl⟩ | ⟨rfl, rfl⟩
    · exact congrArg Host.Outcome.next (loadFrame_of_goodHref hacc he hl hp hw hr)
    · exact congrArg Host.Outcome.next (loadFrame_of_goodHref hacc he hl hp hw hr)
  · rw [frameLoadComplete_short hload hlen]
    unfold shortCode
    have hiff : tableFetched len image = true ↔ 0x40 ≤ image.length ∧ min len (0x40 + 16 * frameCount image) ≤ image.length := by
      simp [tableFetched]
    simp only [hiff]
  · split
    · next e he => exact frameLoadComplete_bad hload hlen he
    · next he => exact frameLoadComplete_good hload hlen he
  · exact (retireColumn_eq hacc hl hp).trans (congrArg Host.Outcome.next (if_pos hcol))
  · rw [retireColumn_eq hacc hl hp, if_neg (Nat.not_le_of_lt hcol), if_neg (by simp [hpark]), if_neg (idleRegions hidle),
        if_neg (Nat.not_le_of_lt hlen)]
  · rw [retireColumn_eq hacc hl hp, if_neg (Nat.not_le_of_lt hcol), if_neg (by simp [hpark]), if_neg (idleRegions hidle), if_pos hlen]
  · rw [revokeKey_eq hacc, if_pos hkey]
  · rw [revokeKey_eq hacc, if_neg (Nat.not_lt_of_le hkey), if_neg (ne_true_of_eq_false hrev), if_pos hpop]
  · rw [revokeKey_eq hacc, if_neg (Nat.not_lt_of_le hkey), if_neg (ne_true_of_eq_false hrev), if_neg hpop]
  · exact congrArg Host.Outcome.next ((mailCommand_of_accepts hacc _).trans ((if_neg (ne_true_of_eq_false hg)).trans (if_pos hdev)))
  · refine congrArg Host.Outcome.next ((mailCommand_of_accepts hacc _).trans ((if_neg (ne_true_of_eq_false hg)).trans ((if_neg hdev).trans (if_neg ?_))))
    dsimp only
    omega
  · rw [linkRetrain_eq hacc, if_pos (.inl hps)]
  · have hnone : ¬(4096 ≤ argAt a 0 2 ∨ allPorts.any (fun p => (argAt a 0 2).testBit p.toNat && !s.portEnabled p) = true) := by
      rintro (h | h)
      · exact Nat.not_le_of_lt hps h
      · obtain ⟨p, hp, hbad⟩ := List.any_eq_true.1 h
        obtain ⟨hbit, hoff⟩ := Bool.and_eq_true_iff.1 hbad
        rw [hen p hp hbit] at hoff
        exact Bool.false_ne_true hoff
    refine ⟨_, by rw [linkRetrain_eq hacc, if_neg hnone], ?_⟩
    have hrest := retrains_offPorts (argAt a 0 2) allPorts (s.rung 0x06 .pf 0 tag a)
    have hport := retrains_port (argAt a 0 2) allPorts_nodup (s.rung 0x06 .pf 0 tag a)
    generalize allPorts.foldl (retrain (argAt a 0 2)) (s.rung 0x06 .pf 0 tag a) = v at *
    have hbusy : (v.mail 0).busy = true := by
      have hmail : v.mail 0 = (s.rung 0x06 .pf 0 tag a).mail 0 := (congrArg (fun u => State.mail u 0) hrest :)
      rw [hmail]
      exact State.rung_busy s 0x06 .pf 0 tag a
    obtain ⟨hidle, hcode, -, -, htiles, -, hmem, -, -, hpf, -⟩ := commandsComplete v 0 eOk hbusy
    refine ⟨hidle, hcode, (hpf rfl).2.trans (congrArg State.regions hrest :), htiles.trans (congrArg State.tiles hrest :),
      hmem.trans (congrArg State.mem hrest :), fun p hp => ?_⟩
    rw [State.done_port, hport]
    by_cases hbit : (argAt a 0 2).testBit p.toNat = true
    · rw [if_pos hbit, if_pos ⟨hp, hbit⟩]
      exact ⟨rfl, rfl, rfl, rfl⟩
    · rw [if_neg hbit, if_neg fun h : p ∈ allPorts ∧ _ => hbit h.2]
      rfl

end Sys2Proof.Machine

namespace Sys2Proof.Machine
open Sys2Proof

/-! ### Memory marked by its channels -/

theorem Cells.get_clear_of_mem {w : Nat} (m : Cells w) {p : Nat → Bool} {a : Nat} (h : p a = true) : (m.clear p).get a = 0 := by
  induction m with
  | nil => rfl
  | cons e m ih =>
    obtain ⟨k, b⟩ := e
    have hcons : Cells.clear ((k, b) :: m) p = if p k then Cells.clear m p else (k, b) :: Cells.clear m p := by
      simp only [Cells.clear, List.filter_cons]
      cases p k <;> simp
    rw [hcons]
    split
    · exact ih
    · next hk =>
      rw [Cells.get]
      split
      · rfl
      · split
        · next hak => exact absurd (hak ▸ h) hk
        · exact ih

theorem Tab.find_drop {α : Type} (m : Tab α) {p : Nat → Bool} {k : Nat} (h : p k = true) : (m.drop p).find k = none := by
  induction m with
  | nil => rfl
  | cons e m ih =>
    obtain ⟨a, b⟩ := e
    have hcons : Tab.drop ((a, b) :: m) p = if p a then Tab.drop m p else (a, b) :: Tab.drop m p := by
      simp only [Tab.drop, List.filter_cons]
      cases p a <;> simp
    rw [hcons]
    split
    · exact ih
    · next hk =>
      rw [Tab.find]
      split
      · rfl
      · split
        · next hak => exact absurd (hak ▸ h) hk
        · exact ih

theorem Tab.get_of_find_none {α : Type} (d : α) {m : Tab α} {k : Nat} (h : m.find k = none) : Tab.get d m k = d := by
  induction m with
  | nil => rfl
  | cons e m ih =>
    obtain ⟨a, b⟩ := e
    rw [Tab.find] at h
    rw [Tab.get]
    split at h
    · next hlt => exact if_pos hlt
    · next hlt =>
      rw [if_neg hlt]
      split at h
      · exact nomatch h
      · next hne => exact (if_neg hne).trans (ih h)

theorem Tab.get_drop {α : Type} (d : α) (m : Tab α) {p : Nat → Bool} {k : Nat} (h : p k = true) : Tab.get d (m.drop p) k = d :=
  Tab.get_of_find_none d (Tab.find_drop m h)

/-- Where a channel's contents are defined again by a mark: the frame store of channel 31 is not. -/
def MChan.markEnd (k : MChan) : Nat := if k = .hbm 31 then frameStoreBase else k.base + k.size

/-- Every channel. -/
def allChans : List MChan := (List.range 256).map MChan.hbm ++ (List.range 64).map MChan.lpddr

/-- One channel's undefined contents gone. -/
def unveilChan (p : MChan → Bool) (m : Mem) (k : MChan) : Mem := if p k then m.unveil k.base k.markEnd else m

theorem MChan.base_le_markEnd (k : MChan) : k.base ≤ k.markEnd := by
  unfold MChan.markEnd
  split
  · next h => rw [h]; decide
  · exact Nat.le_add_right _ _

theorem unveilChan_mask (p : MChan → Bool) (m : Mem) (k : MChan) (a : Nat) :
    (unveilChan p m k).mask a = if p k = true ∧ k.base ≤ a ∧ a < k.markEnd then 0 else m.mask a := by
  unfold unveilChan
  split
  · next h => rw [Mem.mask_unveil m k.base_le_markEnd]; simp [h]
  · next h => rw [if_neg fun hall => h hall.1]

theorem unveilChans_mask (p : MChan → Bool) (l : List MChan) {a : Nat} (m : Mem)
    (h : m.mask a = 0 ∨ ∃ k ∈ l, p k = true ∧ k.base ≤ a ∧ a < k.markEnd) : (l.foldl (unveilChan p) m).mask a = 0 := by
  induction l generalizing m with
  | nil => exact h.resolve_right fun ⟨k, hk, _⟩ => List.not_mem_nil hk
  | cons k l ih =>
    rw [List.foldl_cons]
    refine ih _ ?_
    rw [unveilChan_mask]
    split
    · exact .inl rfl
    · next hk =>
      refine h.imp_right fun ⟨j, hj, hcover⟩ => ⟨j, (List.mem_cons.1 hj).resolve_left fun hjk => hk (hjk ▸ hcover), hcover⟩

theorem markChannels_eq (m : Mem) (p : MChan → Bool) : m.markChannels p =
    { allChans.foldl (unveilChan p) m with
      bytes := (allChans.foldl (unveilChan p) m).bytes.clear (fun pa => (match chanOf pa with
        | some k => p k
        | none => false) && !inFrameStore pa)
      unmarked := (allChans.foldl (unveilChan p) m).unmarked.filter (fun q => !((match chanOf (q * 0x200000) with
        | some k => p k
        | none => false) && !inFrameStore (q * 0x200000)))
      poison := (allChans.foldl (unveilChan p) m).poison.filter (fun l => !((match chanOf (l * 64) with
        | some k => p k
        | none => false) && !inFrameStore (l * 64))) } := rfl

/-- An address of a channel, outside the frame store, lies in what a mark of the channel makes zero. -/
theorem chanOf_covers {a : Nat} {k : MChan} (h : chanOf a = some k) (hf : inFrameStore a = false) :
    k ∈ allChans ∧ k.base ≤ a ∧ a < k.markEnd := by
  have hframe : ¬(frameStoreBase ≤ a ∧ a < 0x0C00000000) := by simpa [inFrameStore] using hf
  unfold chanOf at h
  split at h
  · next hlt =>
    obtain rfl := Option.some.inj h
    have hidx : a / 0x60000000 < 256 := by omega
    refine ⟨List.mem_append_left _ (List.mem_map_of_mem (List.mem_range.2 hidx)), by unfold MChan.base; dsimp only; omega, ?_⟩
    unfold MChan.markEnd
    unfold frameStoreBase at hframe ⊢
    split
    · next heq =>
      have : a / 0x60000000 = 31 := MChan.hbm.inj heq
      omega
    · unfold MChan.base MChan.size
      dsimp only
      omega
  · split at h
    · next hrange =>
      obtain rfl := Option.some.inj h
      have hidx : (a - 0x8000000000) / 0x180000000 < 64 := by omega
      refine ⟨List.mem_append_right _ (List.mem_map_of_mem (List.mem_range.2 hidx)), by unfold MChan.base; dsimp only; omega, ?_⟩
      unfold MChan.markEnd
      rw [if_neg (by simp)]
      unfold MChan.base MChan.size
      dsimp only
      omega
    · exact nomatch h

/-- Marked channels read zero. -/
theorem Mem.byte_markChannels (m : Mem) {p : MChan → Bool} {a : Nat} {k : MChan} (hk : chanOf a = some k) (hp : p k = true)
    (hf : inFrameStore a = false) : (m.markChannels p).byte a = 0 := by
  obtain ⟨hmem, hlo, hhi⟩ := chanOf_covers hk hf
  have hmask : (allChans.foldl (unveilChan p) m).mask a = 0 := unveilChans_mask p allChans m (.inr ⟨k, hmem, hp, hlo, hhi⟩)
  rw [Mem.byte_eq, Mem.mask_congr (k := allChans.foldl (unveilChan p) m) (by rw [markChannels_eq]) a, hmask, markChannels_eq]
  have hsel : ((match chanOf a with
      | some k => p k
      | none => false) && !inFrameStore a) = true := by simp [hk, hp, hf]
  have hbyte := Cells.get_clear_of_mem (allChans.foldl (unveilChan p) m).bytes (p := fun pa => (match chanOf pa with
      | some k => p k
      | none => false) && !inFrameStore pa) hsel
  exact congrArg (fun b : Byte => b ^^^ 0) hbyte

/-! ### What a function-level reset leaves -/

/-- What of a region its window shows as its own. -/
def Region.core (g : Region) : Option RegionCfg × Word × BitVec 384 × Nat := (g.cfg, g.epoch, g.digest, g.cycle)

theorem Region.cfg_of_core {g h : Region} (e : g.core = h.core) : g.cfg = h.cfg := congrArg (fun x => x.1) e

theorem Region.epoch_of_core {g h : Region} (e : g.core = h.core) : g.epoch = h.epoch := congrArg (fun x => x.2.1) e

theorem Region.digest_of_core {g h : Region} (e : g.core = h.core) : g.digest = h.digest := congrArg (fun x => x.2.2.1) e

theorem Region.cycle_of_core {g h : Region} (e : g.core = h.core) : g.cycle = h.cycle := congrArg (fun x => x.2.2.2) e

theorem State.st_of_base {s u : State} (h : u.base = s.base) (q : RegionId) : (u.region q).st = (s.region q).st :=
  congrFun (congrArg (fun b => b.1.2.2) h) q

theorem State.mem_of_base {s u : State} (h : u.base = s.base) : u.mem = s.mem := congrArg (fun b => b.2.1) h

/-- The tiles, the objects and each region's own. -/
def State.own (s : State) : Tab Tile × Tab SyncObj × (RegionId → Option RegionCfg × Word × BitVec 384 × Nat) :=
  (s.tiles, s.objs, fun q => (s.region q).core)

theorem State.tiles_of_own {s u : State} (h : u.own = s.own) : u.tiles = s.tiles := congrArg (fun x => x.1) h

theorem State.objs_of_own {s u : State} (h : u.own = s.own) : u.objs = s.objs := congrArg (fun x => x.2.1) h

theorem State.core_of_own {s u : State} (h : u.own = s.own) (q : RegionId) : (u.region q).core = (s.region q).core :=
  congrFun (congrArg (fun x => x.2.2) h) q

theorem State.own_of_parts {s u : State} (ht : u.tiles = s.tiles) (ho : u.objs = s.objs) (hg : ∀ q, (u.region q).core = (s.region q).core) :
    u.own = s.own := by
  unfold State.own
  rw [ht, ho, funext hg]

theorem State.core_modRegion {r : RegionId} {f : Region → Region} (h : ∀ g, (f g).core = g.core) (s : State) (q : RegionId) :
    ((s.modRegion r f).region q).core = (s.region q).core := by
  rw [State.region_modRegion]
  split
  · next hq => rw [hq]; exact h _
  · rfl

theorem State.own_modRegion {r : RegionId} {f : Region → Region} (h : ∀ g, (f g).core = g.core) (s : State) :
    (s.modRegion r f).own = s.own := State.own_of_parts rfl rfl (State.core_modRegion h s)

@[simp] theorem State.msixSend_own (s : State) (a b : Nat) : (s.msixSend a b).own = s.own :=
  State.own_of_parts (by simp) (by simp) (fun q => by simp)

@[simp] theorem State.fwEvent_own (s : State) (r : RegionId) (b : Nat) : (s.fwEvent r b).own = s.own := by
  unfold State.fwEvent
  rw [State.msixSend_own, State.msixSend_own, State.own_modRegion (by intro; rfl)]

@[simp] theorem State.done_own (s : State) (f code : Nat) : (s.done f code).own = s.own := by
  unfold State.done State.complete
  split
  · rfl
  · dsimp only
    split
    · exact (State.msixSend_own _ _ _).trans rfl
    · unfold State.mbxDoneVf
      rw [State.msixSend_own, State.own_modRegion (by intro; rfl)]
      rfl

@[simp] theorem State.finish_own (s : State) (f op code : Nat) : (s.finish f op code).own = s.own := by
  unfold State.finish
  split
  · exact State.done_own _ _ _
  · rfl

@[simp] theorem State.doneAll_own (s : State) (fs : List Nat) (code : Nat) : (s.doneAll fs code).own = s.own :=
  foldl_inv (P := State.own) (f := fun s f => s.done f code) (fun u f => u.done_own f code) _ _

@[simp] theorem endExport_own (r : RegionId) (s : State) : (endExport r s).own = s.own := by
  unfold endExport
  split
  · rw [State.fwEvent_own, State.own_modRegion (by intro; rfl)]
  · rfl

@[simp] theorem fwFinish_own (r : RegionId) (code : Nat) (s : State) : (fwFinish r code s).own = s.own := by
  unfold fwFinish
  split
  · rfl
  · exact (State.finish_own _ _ _ _).trans (State.own_modRegion (by intro; rfl) s)

theorem veilBank_own (r : RegionId) (bank : Nat) (s : State) : (veilBank r bank s).own = s.own :=
  foldl_inv (P := State.own) (f := fun s c => s.veil (quarterBase c bank) (quarterBase c (bank + 1))) (fun _ _ => rfl) _ _

@[simp] theorem drlEnd_own (r : RegionId) (code : Nat) (s : State) : (drlEnd r code s).own = s.own := by
  have hmark : (s.modRegion r (fun g => { g with drl := { g.drl with
      st := if code = eOk then .done else .failed, released := false, arrived := false } })).own = s.own :=
    State.own_modRegion (by intro; rfl) s
  unfold drlEnd
  dsimp only
  split
  · rfl
  · generalize s.modRegion r _ = v at hmark
    have hveil : (if code = eOk then v else veilBank r ((s.region r).upd.step.toNat % 2) v).own = s.own := by
      split
      · exact hmark
      · exact (veilBank_own _ _ _).trans hmark
    generalize (if code = eOk then v else veilBank r ((s.region r).upd.step.toNat % 2) v) = w at hveil ⊢
    split
    · exact (State.finish_own _ _ _ _).trans hveil
    · exact hveil

/-- The command in progress undone, before it completes. -/
def undoneCommand (op : Nat) (r : RegionId) (s : State) : State := match op with
  | 0x01 => { s with frame := { s.frame with loading := none } }
  | 0x02 => { s with frame := { s.frame with loading := none } }
  | 0x08 => s.modRegion r (fun g => if g.st = RState.granting then { g with st := RState.configured, by_ := none } else g)
  | 0x10 => s.modRegion r (fun g => { g with loading := none })
  | 0x16 => drlEnd r eState s
  | 0x19 => fwFinish r eState s
  | 0x1A => fwFinish r eState s
  | _ => s

theorem cancelCommand_eq (f : Nat) (s : State) : cancelCommand f s =
    if (s.mail f).busy = false then s else (undoneCommand (s.mail f).curOp.toNat (s.mail f).curRegion s).done f eState := rfl

theorem undoneCommand_own (op : Nat) (r : RegionId) (s : State) : (undoneCommand op r s).own = s.own := by
  unfold undoneCommand
  split
  · rfl
  · rfl
  · refine State.own_modRegion (fun g => ?_) s
    split <;> rfl
  · exact State.own_modRegion (by intro; rfl) s
  · exact drlEnd_own _ _ _
  · exact fwFinish_own _ _ _
  · exact fwFinish_own _ _ _
  · rfl

/-- A region not being granted stands where it stood. -/
theorem undoneCommand_st (op : Nat) (r : RegionId) {q : RegionId} {s : State} (h : (s.region q).st ≠ .granting) :
    ((undoneCommand op r s).region q).st = (s.region q).st := by
  have hshell {u : State} (hu : u.shell = s.shell) : (u.region q).st = (s.region q).st := congrFun (congrArg (fun x => x.2.2) hu) q
  unfold undoneCommand
  split
  · rfl
  · rfl
  · rw [State.region_modRegion]
    split
    · next hq => rw [← hq, if_neg h]
    · rfl
  · exact hshell (State.shell_modRegion (by intro; rfl) s)
  · exact hshell (drlEnd_shell _ _ _)
  · exact hshell (State.shell_of_base (fwFinish_base _ _ _))
  · exact hshell (State.shell_of_base (fwFinish_base _ _ _))
  · rfl

/-- The exports of a function ended. -/
def endExports (fn : Fn) (s : State) : State :=
  s.regions.foldl (fun s e => if e.2.exp.active && e.2.exp.fn == fn then endExport (BitVec.ofNat 6 e.1) s else s) s

theorem functionReset_eq (fn : Fn) (s : State) : functionReset fn s =
    { (endExports fn s).freeHandles (fnNo fn) with hub := { ((endExports fn s).freeHandles (fnNo fn)).hub with
      msix := ((endExports fn s).freeHandles (fnNo fn)).hub.msix.filter (fun m => m.1 ≠ fnNo fn) } } := rfl

theorem endExports_inv {β : Type} {P : State → β} (h : ∀ r u, P (endExport r u) = P u) (fn : Fn) (s : State) :
    P (endExports fn s) = P s := by
  unfold endExports
  refine foldl_inv (P := P) (fun u e => ?_) _ _
  split
  · exact h _ _
  · rfl

theorem functionReset_own (fn : Fn) (s : State) : (functionReset fn s).own = s.own := by
  rw [functionReset_eq]
  exact endExports_inv (P := State.own) (fun r u => endExport_own r u) fn s

theorem functionReset_base (fn : Fn) (s : State) : (functionReset fn s).base = s.base := by
  rw [functionReset_eq]
  exact endExports_inv (P := State.base) (fun r u => endExport_base r u) fn s

theorem flr_own (fn : Fn) (s : State) : (flr fn s).own = s.own := by
  unfold flr
  rw [functionReset_own, cancelCommand_eq]
  split
  · rfl
  · rw [State.done_own, undoneCommand_own]

theorem flr_st {fn : Fn} {q : RegionId} {s : State} (h : (s.region q).st ≠ .granting) : ((flr fn s).region q).st = (s.region q).st := by
  have hst {u v : State} (hu : u.base = v.base) : (u.region q).st = (v.region q).st := congrFun (congrArg (fun b => b.1.2.2) hu) q
  unfold flr
  rw [hst (functionReset_base fn _), cancelCommand_eq]
  split
  · rfl
  · rw [hst (State.done_base _ _ _), undoneCommand_st _ _ h]

/-- With no command in progress nothing is undone. -/
theorem flr_base_of_idle {fn : Fn} {s : State} (h : (s.mail (fnNo fn)).busy = false) : (flr fn s).base = s.base := by
  unfold flr
  rw [functionReset_base, cancelCommand_eq, if_pos h]

/-! ### Grant and revoke complete -/

/-- The region's lanes flushed on every port. -/
def State.flushed (s : State) (r : RegionId) : State := allPorts.foldl (fun s p => flushLane r p s) s

/-- The tile of number `k` lies in the region. -/
def Region.holds (g : Region) (k : Nat) : Bool := match g.cfg with
  | some c => c.has (BitVec.ofNat 13 k)
  | none => false

/-- The tiles and objects of region `r`, which is as in `g`, at their reset values, and its gates empty. -/
def State.vacated (s : State) (r : RegionId) (g : Region) : State :=
  { s with tiles := s.tiles.drop g.holds, undo := s.undo.drop g.holds, objs := s.objs.drop g.ownsObj }.modRegion r
    (fun g => { g with gateOut := [], inRows := [] })

theorem clearUnits_eq (r : RegionId) (s : State) : clearUnits r s = (s.flushed r).vacated r (s.region r) := rfl

theorem State.vacated_tile (s : State) (r : RegionId) {g : Region} {c : RegionCfg} {t : TileId} (hc : g.cfg = some c)
    (ht : c.has t = true) :
    (s.vacated r g).tile t = Tile.reset := by
  refine Tab.get_drop _ _ ?_
  unfold Region.holds
  rw [hc]
  show c.has (BitVec.ofNat 13 t.toNat) = true
  rw [BitVec.ofNat_toNat, BitVec.setWidth_eq]
  exact ht

theorem State.vacated_obj (s : State) (r : RegionId) {g : Region} {o : BitVec 16} (ho : g.ownsObj o.toNat = true) :
    (s.vacated r g).obj o = SyncObj.reset := Tab.get_drop _ _ ho

theorem State.vacated_core (s : State) (r : RegionId) (g : Region) (q : RegionId) : ((s.vacated r g).region q).core = (s.region q).core :=
  State.core_modRegion (by intro; rfl) _ q

theorem State.vacated_hub (s : State) (r : RegionId) (g : Region) : (s.vacated r g).hub = s.hub := rfl

/-- What the queues of a lane do not hold. -/
def State.offLanes (s : State) : Tab Region × Hub := (s.regions, s.hub)

theorem flushLane_offLanes (r : RegionId) (p : PortId) (s : State) : (flushLane r p s).offLanes = s.offLanes := by
  have hempty : (emptyInbound r p s).offLanes = s.offLanes := by
    unfold emptyInbound
    dsimp only
    split
    · rfl
    · split <;> rfl
  unfold flushLane
  dsimp only
  split
  · exact hempty
  · split
    · exact hempty
    · exact hempty

theorem State.flushed_regions (s : State) (r : RegionId) : (s.flushed r).regions = s.regions :=
  foldl_inv (P := State.regions) (f := fun s p => flushLane r p s) (fun u p => congrArg Prod.fst (flushLane_offLanes r p u)) _ _

theorem State.flushed_hub (s : State) (r : RegionId) : (s.flushed r).hub = s.hub :=
  foldl_inv (P := State.hub) (f := fun s p => flushLane r p s) (fun u p => congrArg Prod.snd (flushLane_offLanes r p u)) _ _

theorem clearUnits_core (r q : RegionId) (s : State) : ((clearUnits r s).region q).core = (s.region q).core := by
  rw [clearUnits_eq, State.vacated_core, State.region_of_regions (s.flushed_regions r) q]

theorem clearUnits_hub (r : RegionId) (s : State) : (clearUnits r s).hub = s.hub := by
  rw [clearUnits_eq, State.vacated_hub, State.flushed_hub]

theorem markMemory_parts (r : RegionId) (s : State) : (markMemory r s).tiles = s.tiles ∧ (markMemory r s).objs = s.objs ∧
    (markMemory r s).regions = s.regions ∧ (markMemory r s).hub = s.hub := by
  unfold markMemory
  split
  · exact ⟨rfl, rfl, rfl, rfl⟩
  · exact ⟨rfl, rfl, rfl, rfl⟩

theorem markMemory_byte {r : RegionId} {s : State} {c : RegionCfg} {n : Nat} {k : MChan} (hc : (s.region r).cfg = some c)
    (hk : chanOf n = some k) (ho : c.ownsChan k = true) (hf : inFrameStore n = false) : (markMemory r s).mem.byte n = 0 := by
  unfold markMemory
  rw [hc]
  exact Mem.byte_markChannels _ hk ho hf

/-- The region's units cleared and its memory marked. -/
@[irreducible] def wiped (r : RegionId) (s : State) : State := markMemory r (clearUnits r s)

section
variable {r : RegionId} {s : State}

theorem wiped_parts : (wiped r s).tiles = (clearUnits r s).tiles ∧ (wiped r s).objs = (clearUnits r s).objs ∧
    (wiped r s).regions = (clearUnits r s).regions ∧ (wiped r s).hub = (clearUnits r s).hub := by
  unfold wiped
  exact markMemory_parts r _

theorem wiped_region (q : RegionId) : (wiped r s).region q = (clearUnits r s).region q :=
  State.region_of_regions wiped_parts.2.2.1 q

theorem wiped_core (q : RegionId) : ((wiped r s).region q).core = (s.region q).core := by
  rw [wiped_region, clearUnits_core]

theorem wiped_st (q : RegionId) : ((wiped r s).region q).st = (s.region q).st := by
  rw [wiped_region]
  exact State.st_of_base (clearUnits_base r s) q

theorem wiped_hub : (wiped r s).hub = s.hub := wiped_parts.2.2.2.trans (clearUnits_hub r s)

theorem wiped_obj {o : BitVec 16} (ho : (s.region r).ownsObj o.toNat = true) : (wiped r s).obj o = SyncObj.reset := by
  have hobjs : (wiped r s).obj o = (clearUnits r s).obj o := State.obj_of_objs wiped_parts.2.1 o
  rw [hobjs, clearUnits_eq, State.vacated_obj _ r ho]

variable {c : RegionCfg} (hc : (s.region r).cfg = some c)
include hc

theorem wiped_tile {t : TileId} (ht : c.has t = true) : (wiped r s).tile t = Tile.reset := by
  have htiles : (wiped r s).tile t = (clearUnits r s).tile t := State.tile_of_tiles wiped_parts.1 t
  rw [htiles, clearUnits_eq, State.vacated_tile _ r hc ht]

theorem wiped_byte {n : Nat} (hn : (s.region r).ownsAddr n = true) : (wiped r s).mem.byte n = 0 := by
  have hcfg : ((clearUnits r s).region r).cfg = some c := (Region.cfg_of_core (clearUnits_core r r s)).trans hc
  unfold Region.ownsAddr at hn
  rw [hc] at hn
  cases hk : chanOf n with
  | none => rw [hk] at hn; exact nomatch hn
  | some k =>
    rw [hk] at hn
    obtain ⟨howns, hframe⟩ := Bool.and_eq_true_iff.1 hn
    unfold wiped
    exact markMemory_byte hcfg hk howns (by simpa using hframe)

end

/-! #### Grant -/

/-- The region granted, before the reset of its function and its window. -/
def grantBegun (r : RegionId) (s : State) : State :=
  ((wiped r s).modRegion r Region.granted).parityClean (fun h => h.region == some r && h.loc.toNat / 2 ^ 24 != 2)

/-- The units and the brake of a region granted, and the commands that asked for it. -/
def grantEnded (r : RegionId) (s : State) : State := (relimit r (recordUnits r s)).doneAll (s.inFlightOf 0x08 r) eOk

theorem grantComplete_goes {r : RegionId} {s : State} (hst : (s.region r).st = .granting) (hw : s.unitsWait r = false)
    (hcr : s.creditsWhole r = true) :
    exec (.grantComplete r) s = .next (grantEnded r (resetWindow r (flr (.vf r) (grantBegun r s)))) := by
  unfold grantBegun wiped
  exact if_neg (by simp [hst, hw, hcr])

theorem recordUnits_parts (r : RegionId) (s : State) : (recordUnits r s).own = s.own ∧ (recordUnits r s).base = s.base ∧
    (recordUnits r s).hub = s.hub := by
  unfold recordUnits
  dsimp only
  split
  · exact ⟨rfl, rfl, rfl⟩
  · exact ⟨rfl, rfl, rfl⟩

theorem relimit_parts (r : RegionId) (s : State) : (relimit r s).own = s.own ∧ (relimit r s).base = s.base ∧ (relimit r s).hub = s.hub := by
  unfold relimit
  refine ⟨State.own_modRegion (fun g => ?_) s, State.base_modRegion (fun g => ?_) s, rfl⟩
  · dsimp only
    split <;> rfl
  · dsimp only
    split <;> exact ⟨rfl, rfl⟩

theorem State.msixSend_latches (s : State) (a b : Nat) : (s.msixSend a b).hub.latches = s.hub.latches := by
  unfold State.msixSend
  split <;> rfl

theorem State.done_latches (s : State) (f code : Nat) : (s.done f code).hub.latches = s.hub.latches := by
  unfold State.done State.complete
  split
  · rfl
  · dsimp only
    split
    · exact State.msixSend_latches _ _ _
    · exact State.msixSend_latches _ _ _

theorem grantEnded_own (r : RegionId) (s : State) : (grantEnded r s).own = s.own := by
  unfold grantEnded
  rw [State.doneAll_own, (relimit_parts _ _).1, (recordUnits_parts _ _).1]

theorem grantEnded_base (r : RegionId) (s : State) : (grantEnded r s).base = s.base := by
  unfold grantEnded
  rw [State.doneAll_base, (relimit_parts _ _).2.1, (recordUnits_parts _ _).2.1]

theorem grantEnded_latches (r : RegionId) (s : State) : (grantEnded r s).hub.latches = s.hub.latches := by
  unfold grantEnded
  refine (foldl_inv (P := fun u : State => u.hub.latches) (f := fun s f => s.done f eOk) (fun u f => State.done_latches u f eOk) _ _).trans ?_
  rw [(relimit_parts _ _).2.2, (recordUnits_parts _ _).2.2]

/-- The latched halves of the region are gone from every window. -/
theorem resetWindow_latch (r : RegionId) (s : State) (f : Nat) : ∃ l : Latches, (resetWindow r s).latch f = l.forget r :=
  ⟨_, Tab.get_mapVals (f := fun (_ : Nat) (l : Latches) => l.forget r) (d := Latches.reset) (fun _ => rfl) _ f⟩

theorem Latches.forget_find (l : Latches) (r : RegionId) :
    (l.forget r).updHi.find r.toNat = none ∧ (l.forget r).commitHi.find r.toNat = none ∧
    (l.forget r).commitBeat.find r.toNat = none ∧ (l.forget r).expHi.find r.toNat = none := by
  have hgone : (fun k : Nat => k == r.toNat) r.toNat = true := beq_self_eq_true r.toNat
  exact ⟨Tab.find_drop (p := fun k => k == r.toNat) _ hgone, Tab.find_drop (p := fun k => k == r.toNat) _ hgone,
    Tab.find_drop (p := fun k => k == r.toNat) _ hgone, Tab.find_drop (p := fun k => k == r.toNat) _ hgone⟩

theorem grantBegun_region (r q : RegionId) (s : State) :
    (grantBegun r s).region q = if q = r then ((wiped r s).region r).granted else (wiped r s).region q := by
  unfold grantBegun
  rw [State.parityClean_region, State.region_modRegion]

theorem grantBegun_st (r q : RegionId) (s : State) :
    ((grantBegun r s).region q).st = if q = r then .granted else (s.region q).st := by
  rw [grantBegun_region]
  split
  · rfl
  · exact wiped_st q

theorem grantBegun_parts (r : RegionId) (s : State) :
    (grantBegun r s).tiles = (wiped r s).tiles ∧ (grantBegun r s).objs = (wiped r s).objs ∧
    (grantBegun r s).mem = (wiped r s).mem ∧ (grantBegun r s).hub = (wiped r s).hub := ⟨rfl, rfl, rfl, rfl⟩

/-- The state after a grant. -/
def granted (r : RegionId) (s : State) : State := grantEnded r (resetWindow r (flr (.vf r) (grantBegun r s)))

theorem granted_own (r : RegionId) (s : State) : (granted r s).own = (grantBegun r s).own :=
  (grantEnded_own r _).trans (flr_own (.vf r) (grantBegun r s))

theorem granted_st (r : RegionId) (s : State) : ((granted r s).region r).st = .granted := by
  have hbegun : ((grantBegun r s).region r).st = .granted := (grantBegun_st r r s).trans (if_pos rfl)
  exact (State.st_of_base (grantEnded_base r _) r).trans ((flr_st (by rw [hbegun]; decide)).trans hbegun)

theorem granted_core (r : RegionId) (s : State) :
    ((granted r s).region r).core = ((s.region r).cfg, (s.region r).epoch, (s.region r).digest, 0) := by
  have hwiped : ((wiped r s).region r).core = (s.region r).core := wiped_core r
  rw [State.core_of_own (granted_own r s) r, grantBegun_region, if_pos rfl, ← Region.cfg_of_core hwiped, ← Region.epoch_of_core hwiped,
    ← Region.digest_of_core hwiped]
  rfl

theorem granted_latch (r : RegionId) (s : State) (f : Nat) : ∃ l : Latches, (granted r s).latch f = l.forget r := by
  obtain ⟨l, hl⟩ := resetWindow_latch r (flr (.vf r) (grantBegun r s)) f
  refine ⟨l, Eq.trans ?_ hl⟩
  unfold State.latch granted
  rw [grantEnded_latches]

theorem granted_base {r : RegionId} {s : State} (h : (s.mail (1 + r.toNat)).busy = false) : (granted r s).base = (grantBegun r s).base := by
  have hmail : (grantBegun r s).mail (1 + r.toNat) = s.mail (1 + r.toNat) :=
    State.mail_of_hub_mail (congrArg Hub.mail ((grantBegun_parts r s).2.2.2.trans wiped_hub)) _
  exact (grantEnded_base r _).trans (flr_base_of_idle (fn := .vf r) (by show ((grantBegun r s).mail (1 + r.toNat)).busy = false; rw [hmail]; exact h))

theorem revokeComplete_goes {r : RegionId} {s : State} (hst : (s.region r).st = .revoking) (hcr : s.creditsWhole r = true) :
    exec (.revokeComplete r) s = .next (((wiped r s).modRegion r Region.revoked).doneAll
      (((wiped r s).modRegion r Region.revoked).inFlightOf 0x09 r) eOk) := by
  unfold wiped
  exact if_neg (by simp [hst, hcr])

section
variable {s : State} {r : RegionId} {tag : BitVec 16} {a : ArgBlock} {c : RegionCfg}

section
variable (hacc : Accepts s .p [] .pf r a) (hl : s.frame.loading = none)
include hacc hl

theorem regionGrant_of_configured (hc : (s.region r).cfg = some c) (hp : s.fuses.pulse = none) (hst : (s.region r).st = .configured)
    (hpark : s.hasParked c = false) : exec (.regionGrant .pf r tag a) s =
      .next ((s.rung 0x08 .pf r tag a).setRegion r { s.region r with st := .granting, by_ := some .pf }) := by
  have hbusy : ¬(s.frame.loading.isSome || s.fuses.pulse.isSome) = true := by simp [hl, hp]
  refine congrArg Host.Outcome.next ((mailCommand_of_accepts hacc _).trans ((if_neg hbusy).trans ?_))
  show (match (s.region r).st, (s.region r).cfg with
    | .configured, some q => _
    | _, _ => _) = _
  rw [hst, hc]
  exact if_neg (ne_true_of_eq_false hpark)

theorem regionGrant_of_other (hp : s.fuses.pulse = none) (hst : (s.region r).st ≠ .configured) :
    exec (.regionGrant .pf r tag a) s = .next ((s.rung 0x08 .pf r tag a).done 0 eState) := by
  have hbusy : ¬(s.frame.loading.isSome || s.fuses.pulse.isSome) = true := by simp [hl, hp]
  refine congrArg Host.Outcome.next ((mailCommand_of_accepts hacc _).trans ((if_neg hbusy).trans ?_))
  split
  · next hconf _ => exact absurd hconf hst
  · rfl

theorem regionRevoke_eq : exec (.regionRevoke .pf r tag a) s =
    .next (if (s.region r).st = .granting then (s.rung 0x09 .pf r tag a).done 0 eBusy
      else if (s.region r).st ≠ .granted then (s.rung 0x09 .pf r tag a).done 0 eState
      else stopRegion r ((s.rung 0x09 .pf r tag a).setRegion r { s.region r with st := .revoking })) := by
  have hload : (s.frame.loading.isSome = true ∨ (s.region r).st = .granting) ↔ (s.region r).st = .granting := by simp [hl]
  refine congrArg Host.Outcome.next ((mailCommand_of_accepts hacc _).trans ?_)
  exact ite_congr (propext hload) (fun _ => rfl) (fun _ => rfl)

end

theorem mmuRoot_eq (hacc : Accepts s .p [(0, 8)] .pf r a) (hc : (s.region r).cfg = some c) (hst : (s.region r).st = .configured) :
    exec (.mmuRoot .pf r tag a) s =
      .next (if argAt a 0 8 % 1024 ≠ 0 ∨ c.inPool (argAt a 0 8) = false then (s.rung 0x0A .pf r tag a).done 0 eRange
        else ((((s.rung 0x0A .pf r tag a).setRegion r { s.region r with mem := { (s.region r).mem with
          root := BitVec.ofNat 40 (argAt a 0 8), tlb := [] } }).regionClean r 3 0x0A).done 0 eOk)) := by
  refine congrArg Host.Outcome.next ((mailCommand_of_accepts hacc _).trans ?_)
  show (match (s.region r).st, (s.region r).cfg with
    | .configured, some q => _
    | _, _ => _) = _
  rw [hst, hc] <;> rfl

end

theorem regionCommands : Rules.RegionCommands := by
  intro s r tag a c hc
  refine ⟨fun hacc hl => ⟨fun hp hst hpark => regionGrant_of_configured hacc hl hc hp hst hpark,
      fun hp hst => regionGrant_of_other hacc hl hp hst,
      fun hst => ?_, fun hst hst' => ?_⟩, fun hst hw hcr => ⟨granted r s, grantComplete_goes hst hw hcr, ?_⟩,
    fun hst hw => if_pos (.inr (.inl hw)), fun hst hcr => ⟨_, revokeComplete_goes hst hcr, ?_⟩,
    fun hacc hst => ⟨fun hal hpool => ?_, fun hbad => ?_⟩,
    fun hacc => congrArg Host.Outcome.next (mailCommand_of_accepts hacc _)⟩
  · rw [regionRevoke_eq hacc hl, hst, if_neg (by decide), if_neg (by decide)]
  · rw [regionRevoke_eq hacc hl, if_neg hst', if_pos hst]
  · have hcore := granted_core r s
    refine ⟨granted_st r s, (congrArg (fun x => x.1) hcore).trans hc, congrArg (fun x => x.2.1) hcore, congrArg (fun x => x.2.2.1) hcore,
      congrArg (fun x => x.2.2.2) hcore, fun t ht => ?_, fun o ho => ?_, fun f => ?_, fun hidle => ⟨fun n hn => ?_, fun q hq => ?_⟩⟩
    · exact (State.tile_of_tiles (State.tiles_of_own (granted_own r s)) t).trans (wiped_tile hc ht)
    · exact (State.obj_of_objs (State.objs_of_own (granted_own r s)) o).trans (wiped_obj ho)
    · obtain ⟨l, hl⟩ := granted_latch r s f
      rw [hl]
      exact l.forget_find r
    · rw [State.mem_of_base (granted_base hidle)]
      exact wiped_byte hc hn
    · exact (State.st_of_base (granted_base hidle) q).trans ((grantBegun_st r q s).trans (if_neg hq))
  · have hown := State.doneAll_own ((wiped r s).modRegion r Region.revoked) (((wiped r s).modRegion r Region.revoked).inFlightOf 0x09 r) eOk
    have hbase := State.doneAll_base ((wiped r s).modRegion r Region.revoked) (((wiped r s).modRegion r Region.revoked).inFlightOf 0x09 r) eOk
    generalize ((wiped r s).modRegion r Region.revoked).doneAll (((wiped r s).modRegion r Region.revoked).inFlightOf 0x09 r) eOk = u at *
    have hregion : ((wiped r s).modRegion r Region.revoked).region r = ((wiped r s).region r).revoked :=
      (State.region_modRegion _ _ _ _).trans (if_pos rfl)
    have hst' := State.st_of_base hbase r
    have hcore := State.core_of_own hown r
    rw [hregion] at hst' hcore
    have hwiped : ((wiped r s).region r).core = (s.region r).core := wiped_core r
    refine ⟨hst', (Region.cfg_of_core hcore).trans ((Region.cfg_of_core hwiped).trans hc),
        (Region.epoch_of_core hcore).trans ?_, fun t ht => ?_, fun n hn => ?_⟩
    · exact congrArg (· + 1) (Region.epoch_of_core hwiped)
    · exact (State.tile_of_tiles (State.tiles_of_own hown) t).trans (wiped_tile hc ht)
    · rw [State.mem_of_base hbase]
      exact wiped_byte hc hn
  · rw [mmuRoot_eq hacc hc hst, if_neg (by simp [hal, hpool])]
  · rw [mmuRoot_eq hacc hc hst, if_pos hbad]

/-! ### Program loads -/

/-- A region but for the registers of its memory. -/
def Region.offMem (g : Region) : Region := { g with mem := MemRegs.reset }

/-- What a translated read leaves alone. -/
def State.unread (s : State) : Tab Tile × Mem × (RegionId → Region) := (s.tiles, s.mem, fun q => (s.region q).offMem)

theorem State.unread_modRegion {r : RegionId} {f : Region → Region} (h : ∀ g, (f g).offMem = g.offMem) (s : State) :
    (s.modRegion r f).unread = s.unread := by
  have hregion (q : RegionId) : ((s.modRegion r f).region q).offMem = (s.region q).offMem := by
    rw [State.region_modRegion]
    split
    · next hq => rw [hq, h]
    · rfl
  exact Prod.ext rfl (Prod.ext rfl (funext hregion))

theorem State.translate_unread (s : State) (r : RegionId) (va kind : Nat) : (s.translate r va kind).2.unread = s.unread := by
  have hmiss := State.unread_modRegion (r := r) (f := fun g => { g with mem := { g.mem with miss := Word.satAdd g.mem.miss 1 } })
    (by intro; rfl) s
  unfold State.translate
  dsimp only
  split
  · rfl
  · split
    · exact (State.unread_modRegion (by intro; rfl) _).trans hmiss
    · exact hmiss

theorem readPieces_unread (r : RegionId) (l : List (Nat × Nat)) (s : State) : (readPieces r l s).2.unread = s.unread := by
  induction l generalizing s with
  | nil => rfl
  | cons p l ih =>
    obtain ⟨va, n⟩ := p
    have htr := s.translate_unread r va kRead
    unfold readPieces
    split
    · next htrans => rw [htrans] at htr; exact htr
    · next v htrans =>
      rw [htrans] at htr
      split
      · exact htr
      · have hrest := ih v
        split
        · next heq => rw [heq] at hrest; exact hrest.trans htr
        · next heq => rw [heq] at hrest; exact hrest.trans htr

theorem State.readVa_unread (s : State) (r : RegionId) (va n : Nat) : (s.readVa r va n).2.unread = s.unread := readPieces_unread r _ s

theorem State.tiles_of_unread {s u : State} (h : u.unread = s.unread) : u.tiles = s.tiles := congrArg (fun x => x.1) h

theorem State.region_of_unread {s u : State} (h : u.unread = s.unread) (q : RegionId) : (u.region q).offMem = (s.region q).offMem :=
  congrFun (congrArg (fun x => x.2.2) h) q

theorem State.cfg_of_unread {s u : State} (h : u.unread = s.unread) (q : RegionId) : (u.region q).cfg = (s.region q).cfg :=
  (congrArg Region.cfg (State.region_of_unread h q) :)

theorem State.upd_of_unread {s u : State} (h : u.unread = s.unread) (q : RegionId) : (u.region q).upd = (s.region q).upd :=
  (congrArg Region.upd (State.region_of_unread h q) :)

theorem State.brake_of_unread {s u : State} (h : u.unread = s.unread) (q : RegionId) : (u.region q).brake = (s.region q).brake :=
  (congrArg Region.brake (State.region_of_unread h q) :)

/-- What a restart leaves of a region, with the tiles and the memory. -/
def State.standing (s : State) : Tab Tile × Mem × (RegionId → Option RegionCfg × Upd) :=
  (s.tiles, s.mem, fun q => ((s.region q).cfg, (s.region q).upd))

theorem State.standing_modRegion {r : RegionId} {f : Region → Region} (h : ∀ g, (f g).cfg = g.cfg ∧ (f g).upd = g.upd) (s : State) :
    (s.modRegion r f).standing = s.standing := by
  have hregion (q : RegionId) : (((s.modRegion r f).region q).cfg, ((s.modRegion r f).region q).upd) = ((s.region q).cfg,
      (s.region q).upd) := by
    rw [State.region_modRegion]
    split
    · next hq => rw [hq, (h _).1, (h _).2]
    · rfl
  exact Prod.ext rfl (Prod.ext rfl (funext hregion))

theorem State.tiles_of_standing {s u : State} (h : u.standing = s.standing) : u.tiles = s.tiles := congrArg (fun x => x.1) h

theorem State.cfg_of_standing {s u : State} (h : u.standing = s.standing) (q : RegionId) : (u.region q).cfg = (s.region q).cfg :=
  congrFun (congrArg (fun x q => (x.2.2 q).1) h) q

theorem State.upd_of_standing {s u : State} (h : u.standing = s.standing) (q : RegionId) : (u.region q).upd = (s.region q).upd :=
  congrFun (congrArg (fun x q => (x.2.2 q).2) h) q

/-- All but the tiles. -/
def State.offTiles (s : State) : State := { s with tiles := [] }

theorem State.mapTiles_offTiles (s : State) (r : RegionId) (f : TileId → Tile → Tile) : (s.mapTiles r f).offTiles = s.offTiles :=
  foldl_inv (P := State.offTiles) (f := fun s t => s.modTile t (f t)) (fun _ _ => rfl) _ _

theorem foldl_modTile_of_not_mem (f : TileId → Tile → Tile) (l : List TileId) {t : TileId} (h : t ∉ l) (s : State) :
    (l.foldl (fun s t => s.modTile t (f t)) s).tile t = s.tile t := by
  induction l generalizing s with
  | nil => rfl
  | cons q l ih =>
    obtain ⟨hne, hl⟩ := not_or.1 (fun hor => h (List.mem_cons.2 hor))
    rw [List.foldl_cons, ih hl, State.tile_modTile, if_neg hne]

theorem State.mapTiles_tile {s : State} {r : RegionId} {t : TileId} (h : t ∉ (s.region r).tiles) (f : TileId → Tile → Tile) :
    (s.mapTiles r f).tile t = s.tile t := foldl_modTile_of_not_mem f _ h s

theorem emptyInbound_standing (r : RegionId) (p : PortId) (s : State) : (emptyInbound r p s).standing = s.standing := by
  unfold emptyInbound
  dsimp only
  split
  · rfl
  · split <;> rfl

theorem emptyGates_standing (r : RegionId) (s : State) : (emptyGates r s).standing = s.standing := by
  unfold emptyGates
  refine (State.standing_modRegion (by intro; exact ⟨rfl, rfl⟩) _).trans ?_
  exact foldl_inv (P := State.standing) (f := fun s p => emptyInbound r p s) (fun u p => emptyInbound_standing r p u) _ _

theorem wakeWaiter_mem (r : RegionId) (w : Waiter) (s : State) : (wakeWaiter r w s).mem = s.mem := by
  unfold wakeWaiter
  dsimp only
  split <;> rfl

theorem serveWaits_mem (r : RegionId) (o : BitVec 16) (n : Nat) (s : State) : (serveWaits r o n s).mem = s.mem := by
  induction n generalizing s with
  | zero => rfl
  | succ n ih =>
    unfold serveWaits
    dsimp only
    split
    · rfl
    · split
      · rw [ih, wakeWaiter_mem]
        rfl
      · rfl

theorem chargeSync_mem (r : RegionId) (src : SigSrc) (code detail : Nat) (s : State) : (chargeSync r src code detail s).mem = s.mem := by
  cases src <;> exact State.raise_mem _ _ _ _ _ _

theorem appendWait_mem (r : RegionId) (o : BitVec 16) (src : SigSrc) (who : Option TileId) (n : Nat) (s : State) :
    (appendWait r o src who n s).mem = s.mem := by
  unfold appendWait
  dsimp only
  split
  · exact chargeSync_mem _ _ _ _ _
  · split
    · exact chargeSync_mem _ _ _ _ _
    · rfl

theorem serve_mem (r : RegionId) (o : BitVec 16) (s : State) : (serve r o s).mem = s.mem := by
  unfold serve
  split
  · rfl
  · exact serveWaits_mem _ _ _ _

theorem reach_mem {r : RegionId} {o : BitVec 16} {src : SigSrc} {k : State → State} (hk : ∀ u, (k u).mem = u.mem) (s : State) :
    (reach r o src k s).mem = s.mem := by
  unfold reach
  split
  · exact chargeSync_mem _ _ _ _ _
  · exact hk _

theorem updStep1_mem (r : RegionId) (s : State) : (updStep1 r s).mem = s.mem := by
  unfold updStep1
  dsimp only
  split
  · rfl
  · exact (reach_mem (fun u => (serve_mem _ _ _).trans (appendWait_mem _ _ _ _ _ _)) _).trans rfl

/-- A region restarted, before its update unit waits again. -/
@[irreducible] def restarted (r : RegionId) (roll : Bool) (s : State) : State :=
  emptyGates r (((s.mapTiles r (fun _ x => x.restart roll)).mapObjs r SyncObj.restart).modRegion r Region.quiet)

theorem restartRegion_eq (r : RegionId) (roll : Bool) (s : State) : restartRegion r roll s =
    if ((restarted r roll s).region r).upd.phase = .waitStart ∧ ((restarted r roll s).region r).upd.startMet = false then
      updStep1 r (restarted r roll s) else restarted r roll s := by
  unfold restarted
  rfl

theorem restarted_standing (r : RegionId) (roll : Bool) (s : State) :
    (restarted r roll s).standing = (s.mapTiles r (fun _ x => x.restart roll)).standing := by
  unfold restarted
  exact (emptyGates_standing r _).trans (State.standing_modRegion (by intro; exact ⟨rfl, rfl⟩) _)

theorem State.mapTiles_rest (s : State) (r : RegionId) (f : TileId → Tile → Tile) : (s.mapTiles r f).mem = s.mem ∧
    (s.mapTiles r f).regions = s.regions := by
  have h := s.mapTiles_offTiles r f
  exact ⟨(congrArg State.mem h :), (congrArg State.regions h :)⟩

theorem restartRegion_mem (r : RegionId) (roll : Bool) (s : State) : (restartRegion r roll s).mem = s.mem := by
  have hmem : (restarted r roll s).mem = s.mem :=
    (congrArg (fun x => x.2.1) (restarted_standing r roll s)).trans (State.mapTiles_rest s r _).1
  rw [restartRegion_eq]
  split
  · rw [updStep1_mem, hmem]
  · exact hmem

/-- An update unit that waits for nothing is not started again. -/
theorem restartRegion_tile {r : RegionId} {s : State} (hph : (s.region r).upd.phase ≠ .waitStart) (roll : Bool) {t : TileId}
    (ht : t ∉ (s.region r).tiles) :
    (restartRegion r roll s).tile t = s.tile t ∧ ((restartRegion r roll s).region r).cfg = (s.region r).cfg := by
  have hregions := (State.mapTiles_rest s r (fun _ x => x.restart roll)).2
  have hstanding := restarted_standing r roll s
  have hupd : ((restarted r roll s).region r).upd = (s.region r).upd :=
    (State.upd_of_standing hstanding r).trans (congrArg Region.upd (State.region_of_regions hregions r))
  have hcfg : ((restarted r roll s).region r).cfg = (s.region r).cfg :=
    (State.cfg_of_standing hstanding r).trans (congrArg Region.cfg (State.region_of_regions hregions r))
  have htile : (restarted r roll s).tile t = s.tile t :=
    (State.tile_of_tiles (State.tiles_of_standing hstanding) t).trans (State.mapTiles_tile ht _)
  rw [restartRegion_eq, if_neg (by rw [hupd]; exact fun h => hph h.1)]
  exact ⟨htile, hcfg⟩

/-- The marks a load leaves in its region. -/
def Region.programmed (g : Region) (c : RegionCfg) (img : List Byte) : Region :=
  { g with
    loading := none, prog := true, progDigest := BitVec.ofNat 384 (leNat (sha384 img))
    ranks := (List.range (c.ncols * c.nrows)).map (fun k => BitVec.ofNat 16 (leAt img (leAt img 0x14 4 + 2 * k) 2)) }

theorem applyProgram_eq (r : RegionId) (c : RegionCfg) (img : List Byte) (s : State) : applyProgram r c img s =
    ((restartRegion r false s).mapTiles r (fun t x => progTile img (colOf t - c.col0) (rowOf t - c.row0) x)).modRegion r
      (fun g => g.programmed c img) := rfl

theorem applyProgram_region (r : RegionId) (c : RegionCfg) (img : List Byte) (s : State) :
    ∃ g : Region, (applyProgram r c img s).region r = g.programmed c img := by
  rw [applyProgram_eq, State.region_modRegion, if_pos rfl]
  exact ⟨_, rfl⟩

theorem State.mapTiles_marked_mem (s : State) (r : RegionId) (f : TileId → Tile → Tile) (g : Region → Region) :
    ((s.mapTiles r f).modRegion r g).mem = s.mem := (State.mapTiles_rest s r f).1

theorem State.mapTiles_marked_tile {s : State} {r : RegionId} {t : TileId} (h : t ∉ (s.region r).tiles) (f : TileId → Tile → Tile)
    (g : Region → Region) : ((s.mapTiles r f).modRegion r g).tile t = s.tile t := State.mapTiles_tile h f

theorem applyProgram_mem (r : RegionId) (c : RegionCfg) (img : List Byte) (s : State) : (applyProgram r c img s).mem = s.mem := by
  rw [applyProgram_eq, State.mapTiles_marked_mem, restartRegion_mem]

theorem applyProgram_tile {r : RegionId} {s : State} (hph : (s.region r).upd.phase ≠ .waitStart) {t : TileId}
    (ht : t ∉ (s.region r).tiles) (c : RegionCfg) (img : List Byte) : (applyProgram r c img s).tile t = s.tile t := by
  obtain ⟨htile, hcfg⟩ := restartRegion_tile hph false ht
  have hnot : t ∉ ((restartRegion r false s).region r).tiles := by
    unfold Region.tiles at ht ⊢
    rw [hcfg]
    exact ht
  rw [applyProgram_eq, State.mapTiles_marked_tile hnot, htile]

section
variable {s : State} {fn : Fn} {rg : RegionId} {tag : BitVec 16} {a : ArgBlock} (hacc : Accepts s .r [(0, 12)] fn rg a)
  (hl : (s.region (windowOf fn rg)).loading = none) (hr : (s.region (windowOf fn rg)).fw.restore = none)
include hacc hl hr

theorem loadProgram_of_busyTiles (hi : s.loadIdle (windowOf fn rg) = false) :
    exec (.loadProgram fn rg tag a) s = .next ((s.rung 0x10 fn rg tag a).done (fnNo fn) eNotidle) := by
  have hbusy : ¬((s.region (windowOf fn rg)).loading.isSome || (s.region (windowOf fn rg)).fw.restore.isSome) = true := by simp [hl, hr]
  exact congrArg Host.Outcome.next ((mailCommand_of_accepts hacc _).trans ((if_neg hbusy).trans (if_pos hi)))

section
variable {h img : List Byte} {u1 u2 : State} {c : RegionCfg} (hi : s.loadIdle (windowOf fn rg) = true)
  (hargs : ¬(argAt a 0 8 % 512 ≠ 0 ∨ 2 ^ 48 ≤ argAt a 0 8 ∨ argAt a 8 4 % 16 ≠ 0 ∨ argAt a 8 4 < 64 ∨ 0x10000000 < argAt a 8 4))
  (hhead : (s.rung 0x10 fn rg tag a).readVa (windowOf fn rg) (argAt a 0 8) 64 = (.ok h, u1)) (hlen : leAt h 8 4 = argAt a 8 4)
  (himg : u1.readVa (windowOf fn rg) (argAt a 0 8) (argAt a 8 4) = (.ok img, u2)) (hc : (s.region (windowOf fn rg)).cfg = some c)
include hi hargs hhead hlen himg hc

theorem loadProgram_of_bad {e : Nat} (he : progCheck c img = some e) :
    exec (.loadProgram fn rg tag a) s = .next (u2.done (fnNo fn) e) := by
  have hbusy : ¬((s.region (windowOf fn rg)).loading.isSome || (s.region (windowOf fn rg)).fw.restore.isSome) = true := by simp [hl, hr]
  refine congrArg Host.Outcome.next ((mailCommand_of_accepts hacc _).trans ((if_neg hbusy).trans
    ((if_neg (ne_false_of_eq_true hi)).trans ((if_neg hargs).trans ?_))))
  rw [hhead]
  refine (if_neg (not_not_intro hlen)).trans ?_
  rw [himg, show ((s.rung 0x10 fn rg tag a).region (windowOf fn rg)).cfg = some c from hc]
  dsimp only
  rw [he]

theorem loadProgram_of_good (he : progCheck c img = none) : exec (.loadProgram fn rg tag a) s =
    .next (u2.modRegion (windowOf fn rg) (fun h => { h with
      loading := some { fn := fn, va := argAt a 0 8, image := img, halted := h.brake.halted } })) := by
  have hbusy : ¬((s.region (windowOf fn rg)).loading.isSome || (s.region (windowOf fn rg)).fw.restore.isSome) = true := by simp [hl, hr]
  refine congrArg Host.Outcome.next ((mailCommand_of_accepts hacc _).trans ((if_neg hbusy).trans
    ((if_neg (ne_false_of_eq_true hi)).trans ((if_neg hargs).trans ?_))))
  rw [hhead]
  refine (if_neg (not_not_intro hlen)).trans ?_
  rw [himg, show ((s.rung 0x10 fn rg tag a).region (windowOf fn rg)).cfg = some c from hc]
  dsimp only
  rw [he]

end

end

section
variable {s u : State} {r : RegionId} {q : ProgLoad} {c : RegionCfg} (hq : (s.region r).loading = some q) (hc : (s.region r).cfg = some c)
include hq hc

theorem programLoadComplete_fault {e : Trouble} (hread : s.readVa r q.va q.image.length = (.error e, u)) : exec (.programLoadComplete r) s =
    .next (((engineFault r e u).modRegion r (fun h => { h with loading := none })).finish (fnNo q.fn) 0x10 eBadarg) := by
  show execProgramLoadComplete r s = _
  unfold execProgramLoadComplete
  rw [hq, hc]
  dsimp only
  rw [hread]

theorem programLoadComplete_applies {now : List Byte} (hread : s.readVa r q.va q.image.length = (.ok now, u)) :
    exec (.programLoadComplete r) s = .next ((if q.halted then resumeHalted r (applyProgram r c (q.asRead c now) u)
      else applyProgram r c (q.asRead c now) u).finish (fnNo q.fn) 0x10 eOk) := by
  show execProgramLoadComplete r s = _
  unfold execProgramLoadComplete
  rw [hq, hc]
  dsimp only
  rw [hread]

end

section
variable {s : State} {fn : Fn} {rg : RegionId} {tag : BitVec 16} {a : ArgBlock} {c : RegionCfg} (hacc : Accepts s .r [(0, 18)] fn rg a)
  (hc : (s.region (windowOf fn rg)).cfg = some c)
include hacc hc

theorem loadDesc_of_bad {e : Nat} (he : descCheck (s.region (windowOf fn rg)) c a = some e) :
    exec (.loadDesc fn rg tag a) s = .next ((s.rung 0x11 fn rg tag a).done (fnNo fn) e) := by
  have hregion : (s.rung 0x11 fn rg tag a).region (windowOf fn rg) = s.region (windowOf fn rg) := rfl
  refine congrArg Host.Outcome.next ((mailCommand_of_accepts hacc _).trans ?_)
  dsimp only
  rw [hregion, hc]
  dsimp only
  rw [he]

theorem loadDesc_of_good (he : descCheck (s.region (windowOf fn rg)) c a = none) : exec (.loadDesc fn rg tag a) s =
    .next ((if Word.bit a 137 then startDesc (windowOf fn rg) (argAt a 16 1) ((s.rung 0x11 fn rg tag a).setRegion (windowOf fn rg)
        { s.region (windowOf fn rg) with descs := (s.region (windowOf fn rg)).descs.put (argAt a 16 1) (descOf a) })
      else (s.rung 0x11 fn rg tag a).setRegion (windowOf fn rg)
        { s.region (windowOf fn rg) with descs := (s.region (windowOf fn rg)).descs.put (argAt a 16 1) (descOf a) }).done (fnNo fn) eOk) := by
  have hregion : (s.rung 0x11 fn rg tag a).region (windowOf fn rg) = s.region (windowOf fn rg) := rfl
  refine congrArg Host.Outcome.next ((mailCommand_of_accepts hacc _).trans ?_)
  dsimp only
  rw [hregion, hc]
  dsimp only
  rw [he]

end

theorem programLoads : Rules.ProgramLoads := by
  intro s fn rg tag a r g f c hc
  refine ⟨fun hacc hl hr => ⟨fun hi => loadProgram_of_busyTiles hacc hl hr hi, fun hi hva hva' hlen hlo hhi h u1 img u2 hhead hsame himg =>
      ⟨fun e he => ?_, fun he => ?_⟩⟩, fun q hq => ⟨fun e u hread => programLoadComplete_fault hq hc hread, fun now u hread =>
        ⟨programLoadComplete_applies hq hc hread, ?_⟩⟩, fun hacc => ⟨fun e he => loadDesc_of_bad hacc hc he,
        fun he => loadDesc_of_good hacc hc he⟩⟩
  · exact loadProgram_of_bad hacc hl hr hi (by omega) hhead hsame himg hc he
  · exact loadProgram_of_good hacc hl hr hi (by omega) hhead hsame himg hc he
  · have hunread : u.unread = s.unread := by
      have h := s.readVa_unread r q.va q.image.length
      rw [hread] at h
      exact h
    have hheld : u.held = s.held := by
      have h := State.readVa_held r q.va q.image.length s
      rw [hread] at h
      exact h
    obtain ⟨x, hx⟩ := applyProgram_region r c (q.asRead c now) u
    have hw : (applyProgram r c (q.asRead c now) u).held = u.held := applyProgram_held r c (q.asRead c now) u
    refine ⟨by rw [hx]; rfl, by rw [hx]; rfl, by rw [hx]; rfl, applyProgram_mem _ _ _ _,
        (State.fuses_of_held hw).trans (State.fuses_of_held hheld),
      fun hph t ht => ?_⟩
    have htiles : (u.region r).tiles = g.tiles := by
      unfold Region.tiles
      rw [State.cfg_of_unread hunread r]
    have hphase : (u.region r).upd.phase ≠ .waitStart := by rw [State.upd_of_unread hunread r]; exact hph
    exact (applyProgram_tile hphase (by rw [htiles]; exact ht) _ _).trans (State.tile_of_tiles (State.tiles_of_unread hunread) t)

/-- Settles O48: each command by its table, a grant and a revoke by what wiping the region leaves. -/
theorem regionAndProgramCommands : Obligations.RegionAndProgramCommands := ⟨regionCommands, programLoads⟩

end Sys2Proof.Machine

namespace Sys2Proof.Machine
open Sys2Proof

/-! ### Buffers and sync objects -/

section
variable {s : State} {fn : Fn} {tag : BitVec 16} {a : ArgBlock}

section
variable (hacc : Accepts s .f [(0, 16)] fn 0 a)
  (hargs : ¬(argAt a 0 8 % 4096 ≠ 0 ∨ argAt a 8 8 % 4096 ≠ 0 ∨ argAt a 8 8 < 4096 ∨ argAt a 8 8 > 2 ^ 40))
include hacc hargs

theorem bufReg_of_free {k : Nat} (hk : (List.range 256).find? (fun k => !(s.buffer (fnNo fn) k).used) = some k) :
    exec (.bufReg fn 0 tag a) s = .next (((s.rung 0x0C fn 0 tag a).setBuffer (fnNo fn) k { s.buffer (fnNo fn) k with
      used := true, iova := BitVec.ofNat 64 (argAt a 0 8), len := BitVec.ofNat 64 (argAt a 8 8) }).complete (fnNo fn) eOk
      (some (BitVec.ofNat 32 (fnOwner fn * 2 ^ 24 + (s.buffer (fnNo fn) k).gen.toNat * 256 + k)))) := by
  have hfind : (List.range 256).find? (fun k => !((s.rung 0x0C fn 0 tag a).buffer (fnNo fn) k).used) = some k := hk
  refine congrArg Host.Outcome.next ((mailCommand_of_accepts hacc _).trans ((if_neg hargs).trans ?_))
  dsimp only
  rw [hfind] <;> rfl

theorem bufReg_of_full (hk : (List.range 256).find? (fun k => !(s.buffer (fnNo fn) k).used) = none) :
    exec (.bufReg fn 0 tag a) s = .next ((s.rung 0x0C fn 0 tag a).done (fnNo fn) eNores) := by
  have hfind : (List.range 256).find? (fun k => !((s.rung 0x0C fn 0 tag a).buffer (fnNo fn) k).used) = none := hk
  refine congrArg Host.Outcome.next ((mailCommand_of_accepts hacc _).trans ((if_neg hargs).trans ?_))
  dsimp only
  rw [hfind]

end

section
variable (hacc : Accepts s .f [(0, 4)] fn 0 a)
include hacc

theorem bufFree_of_bad {e : Nat} (he : s.handleCheck fn (argAt a 0 4) = some e) :
    exec (.bufFree fn 0 tag a) s = .next ((s.rung 0x0D fn 0 tag a).done (fnNo fn) e) := by
  have hcheck : (s.rung 0x0D fn 0 tag a).handleCheck fn (argAt a 0 4) = some e := he
  refine congrArg Host.Outcome.next ((mailCommand_of_accepts hacc _).trans ?_)
  dsimp only
  rw [hcheck]

theorem bufFree_of_good (he : s.handleCheck fn (argAt a 0 4) = none) : exec (.bufFree fn 0 tag a) s =
    .next (if s.exportUses fn (argAt a 0 1) then (s.rung 0x0D fn 0 tag a).done (fnNo fn) eBusy
      else ((s.rung 0x0D fn 0 tag a).setBuffer (fnNo fn) (argAt a 0 1) (s.buffer (fnNo fn) (argAt a 0 1)).free).done (fnNo fn) eOk) := by
  have hcheck : (s.rung 0x0D fn 0 tag a).handleCheck fn (argAt a 0 4) = none := he
  refine congrArg Host.Outcome.next ((mailCommand_of_accepts hacc _).trans ?_)
  dsimp only
  rw [hcheck] <;> rfl

end

theorem syncSet_eq {rg : RegionId} (hacc : Accepts s .r [(0, 2), (4, 4), (8, 6)] fn rg a) : exec (.syncSet fn rg tag a) s =
    .next (if (s.region (windowOf fn rg)).ownsObj (setObjArg a).toNat = false then (s.rung 0x0E fn rg tag a).done (fnNo fn) eOwner
      else if argAt a 8 1 > 1 then (s.rung 0x0E fn rg tag a).done (fnNo fn) eBadarg
      else if argAt a 8 1 = 1 ∧ (s.rung 0x0E fn rg tag a).badParent (windowOf fn rg) a = true then (s.rung 0x0E fn rg tag a).done (fnNo fn) eBadarg
      else s.rung 0x0E fn rg tag a) :=
  congrArg Host.Outcome.next (mailCommand_of_accepts hacc _)

end

/-! ### Function-level resets -/

theorem undoneCommand_mem {op : Nat} (h : op ≠ 0x16) (r : RegionId) (s : State) : (undoneCommand op r s).mem = s.mem := by
  unfold undoneCommand
  split
  · rfl
  · rfl
  · rfl
  · rfl
  · exact absurd rfl h
  · exact State.mem_of_base (fwFinish_base _ _ _)
  · exact State.mem_of_base (fwFinish_base _ _ _)
  · rfl

/-- Mailbox `f` still holds its command, or it completed with E_STATE. -/
def State.endsInState (s : State) (f : Nat) : Prop := (s.mail f).busy = true ∨ ((s.mail f).busy = false ∧ (s.mail f).code = BitVec.ofNat 8 eState)

theorem State.endsInState_of_mail {s u : State} {f : Nat} (h : u.mail f = s.mail f) (hs : s.endsInState f) : u.endsInState f := by
  unfold State.endsInState
  rw [h]
  exact hs

theorem State.done_of_idle {s : State} {f : Nat} (h : (s.mail f).busy = false) (code : Nat) : s.done f code = s := if_pos h

theorem State.done_endsInState {s : State} {f : Nat} (hs : s.endsInState f) (k : Nat) : (s.done k eState).endsInState f := by
  cases hk : (s.mail k).busy with
  | false => rw [State.done_of_idle hk]; exact hs
  | true =>
    obtain ⟨hbusy, hcode, -, -, -, -, -, -, hother, -⟩ := commandsComplete s k eState hk
    by_cases hf : f = k
    · subst hf
      exact .inr ⟨hbusy, hcode⟩
    · exact State.endsInState_of_mail (hother f hf) hs

theorem State.finish_endsInState {s : State} {f : Nat} (hs : s.endsInState f) (k op : Nat) : (s.finish k op eState).endsInState f := by
  unfold State.finish
  split
  · exact State.done_endsInState hs k
  · exact hs

theorem veilBank_mail (r : RegionId) (bank : Nat) (s : State) (f : Nat) : (veilBank r bank s).mail f = s.mail f :=
  foldl_inv (P := fun u : State => u.mail f) (f := fun s c => s.veil (quarterBase c bank) (quarterBase c (bank + 1))) (fun _ _ => rfl) _ _

theorem drlEnd_endsInState {s : State} {f : Nat} (hs : s.endsInState f) (r : RegionId) : (drlEnd r eState s).endsInState f := by
  unfold drlEnd
  dsimp only
  split
  · exact hs
  · rw [if_neg (by decide)]
    have hveil : (veilBank r ((s.region r).upd.step.toNat % 2) (s.modRegion r (fun g => { g with drl := { g.drl with
        st := if eState = eOk then .done else .failed, released := false, arrived := false } }))).endsInState f :=
      State.endsInState_of_mail (veilBank_mail _ _ _ f) hs
    generalize veilBank r ((s.region r).upd.step.toNat % 2) _ = w at hveil ⊢
    split
    · exact State.finish_endsInState hveil _ _
    · exact hveil

theorem fwFinish_endsInState {s : State} {f : Nat} (hs : s.endsInState f) (r : RegionId) : (fwFinish r eState s).endsInState f := by
  unfold fwFinish
  split
  · exact hs
  · exact State.finish_endsInState (s := s.modRegion r _) hs _ _

theorem undoneCommand_endsInState {s : State} {f : Nat} (hs : s.endsInState f) (op : Nat) (r : RegionId) :
    (undoneCommand op r s).endsInState f := by
  unfold undoneCommand
  split
  · exact hs
  · exact hs
  · exact hs
  · exact hs
  · exact drlEnd_endsInState hs r
  · exact fwFinish_endsInState hs r
  · exact fwFinish_endsInState hs r
  · exact hs

theorem State.done_idle (s : State) (f code : Nat) : ((s.done f code).mail f).busy = false := by
  cases hf : (s.mail f).busy with
  | false => rw [State.done_of_idle hf]; exact hf
  | true => exact (commandsComplete s f code hf).1

theorem State.fwEvent_mail (s : State) (r : RegionId) (b f : Nat) : (s.fwEvent r b).mail f = s.mail f := by
  unfold State.fwEvent
  rw [State.msixSend_mail, State.msixSend_mail]
  rfl

theorem endExport_mail (r : RegionId) (s : State) (f : Nat) : (endExport r s).mail f = s.mail f := by
  unfold endExport
  split
  · exact State.fwEvent_mail _ _ _ _
  · rfl

theorem functionReset_mail (fn : Fn) (s : State) (f : Nat) : (functionReset fn s).mail f = s.mail f := by
  rw [functionReset_eq]
  exact endExports_inv (P := fun u : State => u.mail f) (fun r u => endExport_mail r u f) fn s

theorem functionReset_buffer (fn : Fn) (s : State) (k : Nat) : ((functionReset fn s).buffer (fnNo fn) k).used = false := by
  rw [functionReset_eq]
  generalize endExports fn s = u
  have hbuf : (u.freeHandles (fnNo fn)).buffer (fnNo fn) k = (u.buffer (fnNo fn) k).free := by
    unfold State.buffer State.freeHandles
    dsimp only
    rw [Tab.get_put, if_pos rfl]
    exact Tab.get_mapVals (f := fun (_ : Nat) (b : Buffer) => b.free) (d := Buffer.reset) (fun _ => rfl) _ k
  refine (congrArg Buffer.used hbuf).trans ?_
  unfold Buffer.free
  split
  · rfl
  · next h => exact eq_false_of_ne_true h

theorem functionReset_msix (fn : Fn) (s : State) (n : Nat) : (fnNo fn, n) ∉ (functionReset fn s).hub.msix := by
  rw [functionReset_eq]
  simp

theorem flr_mail (fn : Fn) (s : State) : (flr fn s).mail (fnNo fn) = (cancelCommand (fnNo fn) s).mail (fnNo fn) := functionReset_mail fn _ _

theorem cancelCommand_mail (f : Nat) (s : State) : ((cancelCommand f s).mail f).busy = false ∧
    ((s.mail f).busy = true → ((cancelCommand f s).mail f).code = BitVec.ofNat 8 eState) := by
  rw [cancelCommand_eq]
  cases hf : (s.mail f).busy with
  | false => exact ⟨hf, nofun⟩
  | true =>
    have hidle := State.done_idle (undoneCommand (s.mail f).curOp.toNat (s.mail f).curRegion s) f eState
    have hends := State.done_endsInState (undoneCommand_endsInState (f := f) (.inl hf) (s.mail f).curOp.toNat (s.mail f).curRegion) f
    rw [if_neg (by simp)]
    refine ⟨hidle, fun _ => ?_⟩
    rcases hends with h | h
    · exact absurd (hidle.symm.trans h) Bool.false_ne_true
    · exact h.2

theorem flr_mem {fn : Fn} {s : State} (h : (s.mail (fnNo fn)).busy = false ∨ (s.mail (fnNo fn)).curOp ≠ 0x16) : (flr fn s).mem = s.mem := by
  unfold flr
  rw [State.mem_of_base (functionReset_base fn _), cancelCommand_eq]
  split
  · rfl
  · next hbusy =>
    have hop : (s.mail (fnNo fn)).curOp.toNat ≠ 0x16 := fun heq => (h.resolve_left hbusy) (BitVec.eq_of_toNat_eq heq)
    rw [State.mem_of_base (State.done_base _ _ _), undoneCommand_mem hop]

/-- Settles O49: a command by its table; a reset of a function ends its command and frees what it holds. -/
theorem hostAndSyncCommands : Obligations.HostAndSyncCommands := by
  unfold Obligations.HostAndSyncCommands
  intro s fn rg tag a
  refine ⟨fun hacc h0 h1 h2 h3 => ⟨fun k hk hfree hused => ?_, fun hused => ?_⟩, fun hacc => ⟨fun e he => bufFree_of_bad hacc he, fun he =>
      ⟨fun hx => ?_, fun hx => ?_⟩⟩, fun hacc => ⟨fun ho => ?_, fun ho hz => ?_⟩, fun hb hop => ⟨fun hw => ?_,
      fun hw ho => ⟨fun hr => ?_, fun hr => ?_⟩,
        fun hlate => if_pos ⟨hb, hop, hlate⟩, fun hearly => if_neg fun h => Nat.not_le_of_lt hearly h.2.2⟩,
    fun hacc => ⟨fun he => ?_, fun e he => ?_⟩, fun hb hop => if_neg (by simp [hb, hop]), fun hp hr => ⟨flr fn s, ?_⟩, fun hpulse => ?_⟩
  · refine bufReg_of_free hacc (by omega) ?_
    rw [List.find?_range_eq_some]
    exact ⟨by simp [hfree], List.mem_range.2 hk, fun j hj => by simp [hused j hj]⟩
  · refine bufReg_of_full hacc (by omega) ?_
    rw [List.find?_eq_none]
    exact fun k hk => by simp [hused k (List.mem_range.1 hk)]
  · rw [bufFree_of_good hacc he, if_pos hx]
  · rw [bufFree_of_good hacc he, if_neg (ne_true_of_eq_false hx)]
  · rw [syncSet_eq hacc, if_pos ho]
  · rw [syncSet_eq hacc, if_neg (ne_false_of_eq_true ho), if_neg (by omega), if_neg fun h => by omega]
  · exact if_pos (.inr (.inr hw))
  · exact (if_neg (by simp [hb, hop, hw, ho])).trans (if_pos hr)
  · exact (if_neg (by simp [hb, hop, hw, ho])).trans (if_neg (ne_true_of_eq_false hr))
  · exact congrArg Host.Outcome.next (mailCommand_of_goodHref hacc rfl he _)
  · exact congrArg Host.Outcome.next (mailCommand_of_badHref hacc rfl he _)
  · obtain ⟨hidle, hcode⟩ := cancelCommand_mail (fnNo fn) s
    have hown := flr_own fn s
    refine ⟨congrArg Host.Outcome.next (if_neg (by simp [hp, hr])), functionReset_buffer fn _, functionReset_msix fn _, ?_, fun hbusy => ?_,
      State.tiles_of_own hown, State.objs_of_own hown, flr_mem⟩
    · rw [flr_mail]; exact hidle
    · rw [flr_mail, hcode hbusy]; rfl
  · refine congrArg Host.Outcome.next (if_pos ?_)
    rcases hpulse with h | h <;> simp [h]

end Sys2Proof.Machine

namespace Sys2Proof.Machine
open Sys2Proof

/-! ### Commands of the training units -/

theorem State.readArg_of_ok {s u : State} {r : RegionId} {va n : Nat} {b : List Byte} (hh : (s.region r).brake.halted = false)
    (h : s.readVa r va n = (.ok b, u)) : s.readArg r va n = (some b, u) := by
  unfold State.readArg
  rw [h]
  simp [hh]

theorem State.readVa_halted {s u : State} {r : RegionId} {va n : Nat} {b : List Byte} (h : s.readVa r va n = (.ok b, u)) :
    (u.region r).brake.halted = (s.region r).brake.halted := by
  have hunread := s.readVa_unread r va n
  rw [h] at hunread
  exact congrArg Brake.halted (State.brake_of_unread hunread r)

/-- No element of a list fails a check that all pass. -/
theorem any_not_of_all {α : Type} {l : List α} {p : α → Bool} (h : ∀ x ∈ l, p x = true) : ¬l.any (fun x => !p x) = true := by
  intro hany
  obtain ⟨x, hx, hp⟩ := List.any_eq_true.1 hany
  rw [h x hx] at hp
  exact Bool.false_ne_true hp

section
variable {s : State} {fn : Fn} {rg : RegionId} {tag : BitVec 16} {a : ArgBlock}

theorem notBusy_of_idle {g : Region} (h : g.upd.busy = false ∧ g.drl.st ≠ .running) : ¬(g.upd.busy = true ∨ g.drl.st = .running) := by
  rintro (hb | hd)
  · exact Bool.false_ne_true (h.1.symm.trans hb)
  · exact h.2 hd

section
variable {u : State} {b : List Byte} (hacc : Accepts s .r [(0, 16)] fn rg a)
  (hidle : (s.region (windowOf fn rg)).upd.busy = false ∧ (s.region (windowOf fn rg)).drl.st ≠ .running)
  (hh : (s.region (windowOf fn rg)).brake.halted = false)
  (hargs : ¬(argAt a 0 8 % 128 ≠ 0 ∨ 2 ^ 48 ≤ argAt a 0 8 ∨ argAt a 8 2 = 0 ∨ 8192 < argAt a 8 2 ∨ argAt a 0x0C 2 = 0))
  (hread : (s.rung 0x12 fn rg tag a).readVa (windowOf fn rg) (argAt a 0 8) (128 * argAt a 8 2) = (.ok b, u))
include hacc hidle hh hargs hread

theorem updList_eq : exec (.updList fn rg tag a) s =
    .next (if (s.region (windowOf fn rg)).ownsObj (argAt a 0x0A 2) = false ∨ (s.region (windowOf fn rg)).ownsObj (argAt a 0x0E 2) = false
          ∨ (cutBlocks (argAt a 8 2) b).any (fun b => !(s.region (windowOf fn rg)).lpChans.contains (blkChan b)) = true then u.done (fnNo fn) eOwner
      else if (cutBlocks (argAt a 8 2) b).any (fun b => !blkLegal b) then u.done (fnNo fn) eBadarg
      else if (cutBlocks (argAt a 8 2) b).any (fun b => decide (0x60000000 < blkEnd b)) then u.done (fnNo fn) eRange
      else if anyOverlap (cutBlocks (argAt a 8 2) b) then u.done (fnNo fn) eBadarg
      else ((armList (windowOf fn rg) (argAt a 0 8) (argAt a 0x0A 2) (argAt a 0x0C 2) (argAt a 0x0E 2) (cutBlocks (argAt a 8 2) b) u).regionClean
        (windowOf fn rg) 3 0x12).done (fnNo fn) eOk) := by
  refine congrArg Host.Outcome.next ((mailCommand_of_accepts hacc _).trans ((if_neg (notBusy_of_idle hidle)).trans ((if_neg hargs).trans ?_)))
  dsimp only
  rw [State.readArg_of_ok (s := s.rung 0x12 fn rg tag a) hh hread] <;> rfl

end

section
variable {u u2 : State} {h b : List Byte} (hacc : Accepts s .r [(0, 8)] fn rg a)
  (hidle : (s.region (windowOf fn rg)).upd.busy = false ∧ (s.region (windowOf fn rg)).drl.st ≠ .running)
include hacc hidle

theorem updSetStep_eq : exec (.updSetStep fn rg tag a) s = .next
    ((fwForget (windowOf fn rg) ((s.rung 0x13 fn rg tag a).setRegion (windowOf fn rg)
    { s.region (windowOf fn rg) with upd := { (s.region (windowOf fn rg)).upd with step := BitVec.ofNat 64 (argAt a 0 8) } })).done (fnNo fn) eOk) :=
  congrArg Host.Outcome.next ((mailCommand_of_accepts hacc _).trans (if_neg (notBusy_of_idle hidle)))

/-- The region as a derailleur run of the table read begins. -/
def drlBegun (r : RegionId) (fn : Fn) (h : List Byte) (es : List (BitVec 256)) (s : State) : State :=
  s.modRegion r (fun x => { x with drl := { x.drl with
    st := .running, round := 0, rounds := leAt h 6 2, tid := BitVec.ofNat 16 (leAt h 0x0C 2),
    obj := BitVec.ofNat 16 (leAt h 0x0E 2), scrBase := leAt h 0x10 8, scrSize := leAt h 0x18 8, entries := es,
    dones := [], arrived := false, released := false, since := s.beats, fn := some fn } })

variable (hh : (s.region (windowOf fn rg)).brake.halted = false) (hva : argAt a 0 8 % 64 = 0) (hva' : argAt a 0 8 < 2 ^ 48)
  (hhead : (s.rung 0x16 fn rg tag a).readVa (windowOf fn rg) (argAt a 0 8) 64 = (.ok h, u)) (hleg : drlHeader h = true)
  (htab : u.readVa (windowOf fn rg) (argAt a 0 8 + 64) (32 * leAt h 8 4) = (.ok b, u2))
include hh hva hva' hhead hleg htab

theorem drlRun_eq : exec (.drlRun fn rg tag a) s =
    .next (if drlCheck u2 (windowOf fn rg) h ((List.range (leAt h 8 4)).map (fun k => BitVec.ofNat 256 (leAt b (32 * k) 32))) ≠ eOk then
        u2.done (fnNo fn) (drlCheck u2 (windowOf fn rg) h ((List.range (leAt h 8 4)).map (fun k => BitVec.ofNat 256 (leAt b (32 * k) 32))))
      else drlRound (windowOf fn rg) (drlBegun (windowOf fn rg) fn h ((List.range (leAt h 8 4)).map (fun k => BitVec.ofNat 256 (leAt b (32 * k) 32)))
        (fwForget (windowOf fn rg) (fwAbandon (windowOf fn rg) true u2)))) := by
  have hhalt : (u.region (windowOf fn rg)).brake.halted = false := (State.readVa_halted hhead).trans hh
  refine congrArg Host.Outcome.next ((mailCommand_of_accepts hacc _).trans ((if_neg (notBusy_of_idle hidle)).trans ((if_neg ?_).trans ?_)))
  · exact fun hor => hor.elim (fun h => h hva) (Nat.not_le_of_lt hva')
  · dsimp only
    rw [State.readArg_of_ok (s := s.rung 0x16 fn rg tag a) hh hhead]
    refine (if_neg (ne_false_of_eq_true hleg)).trans ?_
    rw [State.readArg_of_ok hhalt htab] <;> rfl

end

section
variable (hacc : Accepts s .r [] fn rg a)
include hacc

theorem updDisarm_eq (harm : (s.region (windowOf fn rg)).upd.armed = true) : exec (.updDisarm fn rg tag a) s =
    .next ((if (s.region (windowOf fn rg)).atStep1 then
        updStep1 (windowOf fn rg) (dropUpdWait (windowOf fn rg) (s.region (windowOf fn rg)).upd.startObj ((s.rung 0x14 fn rg tag a).setRegion
          (windowOf fn rg) { s.region (windowOf fn rg) with upd := { (s.region (windowOf fn rg)).upd with disarm := true } }))
      else (s.rung 0x14 fn rg tag a).setRegion (windowOf fn rg)
        { s.region (windowOf fn rg) with upd := { (s.region (windowOf fn rg)).upd with disarm := true } }).done (fnNo fn) eOk) :=
  congrArg Host.Outcome.next ((mailCommand_of_accepts hacc _).trans (if_neg (ne_false_of_eq_true harm)))

theorem updDisarm_of_idle (harm : (s.region (windowOf fn rg)).upd.armed = false) :
    exec (.updDisarm fn rg tag a) s = .next ((s.rung 0x14 fn rg tag a).done (fnNo fn) eState) :=
  congrArg Host.Outcome.next ((mailCommand_of_accepts hacc _).trans (if_pos harm))

theorem updEmit_of_stopped (h : (s.region (windowOf fn rg)).upd.armed = false ∨ (s.region (windowOf fn rg)).brake.halted = true) :
    exec (.updEmit fn rg tag a) s = .next ((s.rung 0x15 fn rg tag a).done (fnNo fn) eState) :=
  congrArg Host.Outcome.next ((mailCommand_of_accepts hacc _).trans (if_pos h))

theorem updEmit_of_emitted {u : State} (harm : (s.region (windowOf fn rg)).upd.armed = true)
    (hh : (s.region (windowOf fn rg)).brake.halted = false)
    (hidle : (s.region (windowOf fn rg)).upd.busy = false ∧ (s.region (windowOf fn rg)).drl.st ≠ .running)
    (he : emitAll (windowOf fn rg) ((s.region (windowOf fn rg)).upd.step.toNat % 2) ((s.region (windowOf fn rg)).upd.step - 1).toNat
      (s.rung 0x15 fn rg tag a) = (none, u)) : exec (.updEmit fn rg tag a) s =
    .next ((landSignal (windowOf fn rg) (s.region (windowOf fn rg)).upd.doneObj .engine u).done (fnNo fn) eOk) := by
  have hgo : ¬((s.region (windowOf fn rg)).upd.armed = false ∨ (s.region (windowOf fn rg)).brake.halted = true) := by simp [harm, hh]
  refine congrArg Host.Outcome.next ((mailCommand_of_accepts hacc _).trans ((if_neg hgo).trans ((if_neg (notBusy_of_idle hidle)).trans ?_)))
  have hsame : (s.rung 0x15 fn rg tag a).region (windowOf fn rg) = s.region (windowOf fn rg) := rfl
  dsimp only
  rw [hsame, he]

end

theorem fwExport_eq {u : State} {b : List Byte} {n : RegionId} (hfn : fn = .vf n)
    (hacc : Accepts s .r [(0, 4), (8, 8), (0x10, 13), (0x20, 8)] fn rg a) (hx : (s.region n).exp.active = false)
    (hh : (s.region n).brake.halted = false)
    (hhref : (s.rung 0x18 fn rg tag a).hrefCheck { fn := fn, f := fnNo fn, r := windowOf fn rg, a := a } (argAt a 0x10 8) = none)
    (hargs : ¬(argAt a 8 8 % 64 ≠ 0 ∨ argAt a 0x10 8 % 64 ≠ 0 ∨ argAt a 0x10 8 < 0x100000 ∨ 2 ^ 32 < argAt a 0x10 8
      ∨ argAt a 0x1C 1 = 0 ∨ 16 < argAt a 0x1C 1))
    (hva : ¬(argAt a 0x20 8 % 128 ≠ 0 ∨ 2 ^ 48 ≤ argAt a 0x20 8))
    (hread : (s.rung 0x18 fn rg tag a).readVa n (argAt a 0x20 8) (128 * (s.region n).upd.blocks.length) = (.ok b, u)) :
    exec (.fwExport fn rg tag a) s = .next ((u.modRegion n (fun h => { h with exp := { h.exp with
      fn := fn, slot := argAt a 0 1, gen := BitVec.ofNat 16 (argAt a 1 2),
      base := u.hrefAddr { fn := fn, f := fnNo fn, r := windowOf fn rg, a := a }, size := argAt a 0x10 8,
      every := argAt a 0x18 4, share := argAt a 0x1C 1, mapVa := BitVec.ofNat 48 (argAt a 0x20 8), want := [], head := 0,
      tail := 0 } })).done
        (fnNo fn) eOk) := by
  subst hfn
  refine congrArg Host.Outcome.next ((mailCommand_of_goodHref hacc rfl hhref _).trans ((if_neg (ne_true_of_eq_false hx)).trans
    ((if_neg ?_).trans ((if_neg hva).trans ?_))))
  · exact fun hor => hor.elim (fun h => h rfl) hargs
  · have hsame : (s.rung 0x18 (.vf n) rg tag a).region (windowOf (.vf n) rg) = s.region n := rfl
    dsimp only
    rw [hsame, show windowOf (.vf n) rg = n from rfl, State.readArg_of_ok (s := s.rung 0x18 (.vf n) rg tag a) hh hread]

section
variable (hr : (s.region (windowOf fn rg)).fw.restore = none) (hl : (s.region (windowOf fn rg)).loading = none)
include hr hl

theorem rollback_eq (hacc : Accepts s .r [(0, 9)] fn rg a) (h1 : argAt a 8 1 ≤ 1) : exec (.rollback fn rg tag a) s =
    .next (if !(((s.region (windowOf fn rg)).fw.commitValid && BitVec.ofNat 64 (argAt a 0 8) == (s.region (windowOf fn rg)).fw.commitStep)
          || ((s.region (windowOf fn rg)).fw.mirrorAcked && BitVec.ofNat 64 (argAt a 0 8) == (s.region (windowOf fn rg)).fw.commitStep + 1)) then
        (s.rung 0x19 fn rg tag a).done (fnNo fn) eState
      else restoreStart (windowOf fn rg) fn (BitVec.ofNat 64 (argAt a 0 8)) (argAt a 8 1 == 1) false (s.rung 0x19 fn rg tag a)) := by
  have hbusy : ¬((s.region (windowOf fn rg)).fw.restore.isSome || (s.region (windowOf fn rg)).loading.isSome) = true := by simp [hl, hr]
  have harg : ¬2 ≤ argAt a 8 1 := by omega
  exact congrArg Host.Outcome.next ((mailCommand_of_accepts hacc _).trans ((if_neg harg).trans (if_neg hbusy)))

theorem adopt_eq (hacc : Accepts s .r [(0, 8)] fn rg a) : exec (.adopt fn rg tag a) s =
    .next (if (s.region (windowOf fn rg)).upd.armed = false ∨ (s.region (windowOf fn rg)).fw.conf = false then
        (s.rung 0x1A fn rg tag a).done (fnNo fn) eState
      else restoreStart (windowOf fn rg) fn (BitVec.ofNat 64 (argAt a 0 8)) false true (s.rung 0x1A fn rg tag a)) := by
  have hbusy : ¬((s.region (windowOf fn rg)).fw.restore.isSome || (s.region (windowOf fn rg)).loading.isSome) = true := by simp [hl, hr]
  exact congrArg Host.Outcome.next ((mailCommand_of_accepts hacc _).trans (if_neg hbusy))

end

/-- The ports a mask of FW_CONFIG names. -/
def maskPorts (mask : BitVec 16) : List PortId := allPorts.filter (fun p => mask.getLsbD p.toNat)

theorem fwConfig_eq (hacc : Accepts s .r [(0, 20)] fn rg a)
    (hidle : (s.region (windowOf fn rg)).upd.busy = false ∧ (s.region (windowOf fn rg)).drl.st ≠ .running)
    (hm : (s.region (windowOf fn rg)).fw.mirrors = false) (hr : (s.region (windowOf fn rg)).fw.restore = none)
    (hmask : ¬(4096 ≤ (BitVec.ofNat 16 (argAt a 2 2)).toNat ∨ (maskPorts (BitVec.ofNat 16 (argAt a 2 2))).length = 0
      ∨ 2 < (maskPorts (BitVec.ofNat 16 (argAt a 2 2))).length
      ∨ (maskPorts (BitVec.ofNat 16 (argAt a 2 2))).any (fun p => !s.portEnabled p || ((s.region (windowOf fn rg)).lane p).isNone
          || (s.port p).nbrDev.toNat != argAt a 0 2) = true))
    (hobj : ¬((s.region (windowOf fn rg)).ownsObj (argAt a 4 2) = false ∨ (s.obj (BitVec.ofNat 16 (argAt a 4 2))).bar = false))
    (hshare : ¬(argAt a 6 1 = 0 ∨ 16 < argAt a 6 1)) (hchan : (s.region (windowOf fn rg)).lpChans.contains (argAt a 7 1) = true)
    (hlim : ¬(argAt a 8 8 % 64 ≠ 0 ∨ 0x60000000 < argAt a 8 8 + 32 * (s.region (windowOf fn rg)).tiles.length ∨ argAt a 0x10 4 < 125000
      ∨ 16777215 < argAt a 0x10 4)) :
    exec (.fwConfig fn rg tag a) s = .next ((((s.rung 0x17 fn rg tag a).regionClean (windowOf fn rg) 3 0x17).setRegion (windowOf fn rg)
      { s.region (windowOf fn rg) with fw := { (s.region (windowOf fn rg)).fw with
        conf := true, tandem := BitVec.ofNat 16 (argAt a 0 2), ports := BitVec.ofNat 16 (argAt a 2 2), obj := BitVec.ofNat 16 (argAt a 4 2),
        share := argAt a 6 1, ctxChan := BitVec.ofNat 6 (argAt a 7 1), ctxOff := argAt a 8 8, limit := argAt a 0x10 4, st := .idle,
        commitValid := false, mirrorAcked := false, remirror := true, sole := false, startBeat := none,
        stalled := false } }).done (fnNo fn) eOk) := by
  have hbusy : ¬((s.region (windowOf fn rg)).upd.busy || (s.region (windowOf fn rg)).drl.st == .running || (s.region (windowOf fn rg)).fw.mirrors
      || (s.region (windowOf fn rg)).fw.restore.isSome) = true := by
    simp [hidle.1, hidle.2, hm, hr]
  exact congrArg Host.Outcome.next ((mailCommand_of_accepts hacc _).trans ((if_neg hbusy).trans ((if_neg hmask).trans ((if_neg hobj).trans
    ((if_neg hshare).trans ((if_neg (ne_false_of_eq_true hchan)).trans (if_neg hlim)))))))

end

/-- Settles O50: each command's checks pass in turn. -/
theorem trainingCommands : Obligations.TrainingCommands := by
  unfold Obligations.TrainingCommands
  intro s fn rg tag a
  refine ⟨fun hacc hidle hh hva hva' hn hn' hsc b u hread hso hd hown hleg hend hover => ?_, fun hacc hidle => ⟨updSetStep_eq hacc hidle,
      fun va h u b u2 hh hva hal hlt hhead hleg htab => ⟨fun hbad => ?_, fun hgood => ?_⟩⟩,
    fun hacc => ⟨updDisarm_of_idle hacc, fun harm hph => ?_, fun harm hph hwait => ?_, updEmit_of_stopped hacc,
      fun harm hh hidle u he => updEmit_of_emitted hacc harm hh hidle he⟩,
    fun hacc hidle hm hr hmask hlo hhi hports hobj hbar hs hs' hchan hoff hoff' hlim hlim' => ?_,
    fun size va hacc hfn hx hh hhref hsize hva hoff hal hlo hhi hsh hsh' hva1 hva2 b u hread => ?_,
    fun hr hl => ⟨fun hacc h1 => ⟨fun hor => ?_, fun hcv hma => ?_⟩, fun hacc => ⟨fun harm hconf => ?_, fun harm => ?_⟩⟩⟩
  · rw [updList_eq hacc hidle hh (by omega) hread, if_neg, if_neg (any_not_of_all hleg), if_neg, if_neg (ne_true_of_eq_false hover)]
    · simpa using hend
    · rintro (h | h | h)
      · exact Bool.false_ne_true (h.symm.trans hso)
      · exact Bool.false_ne_true (h.symm.trans hd)
      · exact any_not_of_all hown h
  · subst hva
    rw [drlRun_eq hacc hidle hh hal hlt hhead hleg htab, if_pos hbad]
  · subst hva
    rw [drlRun_eq hacc hidle hh hal hlt hhead hleg htab, if_neg (not_not_intro hgood)]
    rfl
  · have hat : ¬(s.region (windowOf fn rg)).atStep1 = true := by simp [Region.atStep1, hph]
    rw [updDisarm_eq hacc harm, if_neg hat]
  · have hat : (s.region (windowOf fn rg)).atStep1 = true := by
      rcases hwait with h | h <;> simp [Region.atStep1, hph, h]
    rw [updDisarm_eq hacc harm, if_pos hat]
  · refine fwConfig_eq hacc hidle hm hr ?_ ?_ (by omega) hchan (by omega)
    · rintro (h | h | h | h)
      · exact Nat.not_le_of_lt hmask h
      · exact absurd h (Nat.ne_of_gt hlo)
      · exact Nat.not_lt_of_le hhi h
      · obtain ⟨p, hp, hbad⟩ := List.any_eq_true.1 h
        obtain ⟨hen, hlane, hdev⟩ := hports p hp
        simp [hen, Option.isSome_iff_ne_none.1 hlane, hdev] at hbad
    · rintro (h | h)
      · exact Bool.false_ne_true (h.symm.trans hobj)
      · exact Bool.false_ne_true (h.symm.trans hbar)
  · subst hsize hva
    exact fwExport_eq hfn hacc hx hh hhref (by omega) (by omega) hread
  · rw [rollback_eq hr hl hacc h1, if_neg]
    rcases hor with ⟨h, h'⟩ | ⟨h, h'⟩
    · simp [h, ← h']
    · rw [h, h', beq_self_eq_true]
      simp
  · rw [rollback_eq hr hl hacc h1, if_pos (by simp [hcv, hma])]
  · rw [adopt_eq hr hl hacc, if_neg (by simp [harm, hconf])]
  · rw [adopt_eq hr hl hacc, if_pos (.inl harm)]

end Sys2Proof.Machine

namespace Sys2Proof.Machine
open Sys2Proof

/-! ### Commands of the clock, power and reset -/

section
variable {s : State} {tag : BitVec 16} {a : ArgBlock}

theorem cadenceSet_eq (hacc : Accepts s .d [(0, 10)] .pf 0 a) (hz : argAt a 6 2 = 0) : exec (.cadenceSet .pf 0 tag a) s =
    .next (if s.frame.source = 1 ∨ s.cad.locked = true then (s.rung 0x07 .pf 0 tag a).done 0 eState
      else ({ s.rung 0x07 .pf 0 tag a with
        cad := s.cad.setPending (BitVec.ofNat 48 (argAt a 0 6)) (BitVec.ofNat 16 (argAt a 8 2)) s.beats } : State).done 0 eOk) :=
  congrArg Host.Outcome.next ((mailCommand_of_accepts hacc _).trans (if_neg (not_not_intro hz)))

section
variable (hacc : Accepts s .d [(0, 1), (8, 10)] .pf 0 a) (hstep : argAt a 0 1 ≤ 3) (hz : argAt a 14 2 = 0) (hp : s.power.pend = none)
include hacc hstep hz hp

theorem setClock_of_bad {e : Nat} (he : s.cad.eventCheck (BitVec.ofNat 48 (argAt a 8 6)) (BitVec.ofNat 16 (argAt a 16 2)) = some e) :
    exec (.setClock .pf 0 tag a) s = .next ((s.rung 0x1B .pf 0 tag a).done 0 e) := by
  have hargs : ¬(argAt a 0 1 > 3 ∨ argAt a 14 2 ≠ 0) := by omega
  have hcad : (s.rung 0x1B .pf 0 tag a).cad = s.cad := rfl
  refine congrArg Host.Outcome.next ((mailCommand_of_accepts hacc _).trans ((if_neg hargs).trans ((if_neg (by simp [State.rung, State.modMail, hp])).trans ?_)))
  dsimp only
  rw [hcad, he] <;> rfl

theorem setClock_of_good (he : s.cad.eventCheck (BitVec.ofNat 48 (argAt a 8 6)) (BitVec.ofNat 16 (argAt a 16 2)) = none) :
    exec (.setClock .pf 0 tag a) s = .next (({ s.rung 0x1B .pf 0 tag a with power := { s.power with
      pend := some (BitVec.ofNat 2 (argAt a 0 1), BitVec.ofNat 48 (argAt a 8 6),
      BitVec.ofNat 16 (argAt a 16 2)) } } : State).done 0 eOk) := by
  have hargs : ¬(argAt a 0 1 > 3 ∨ argAt a 14 2 ≠ 0) := by omega
  have hcad : (s.rung 0x1B .pf 0 tag a).cad = s.cad := rfl
  refine congrArg Host.Outcome.next ((mailCommand_of_accepts hacc _).trans ((if_neg hargs).trans ((if_neg (by simp [State.rung, State.modMail, hp])).trans ?_)))
  dsimp only
  rw [hcad, he] <;> rfl

end

theorem setPowerCap_eq (hacc : Accepts s .d [(0, 2)] .pf 0 a) : exec (.setPowerCap .pf 0 tag a) s =
    .next (if argAt a 0 2 < 1200 ∨ 2400 < argAt a 0 2 then (s.rung 0x1C .pf 0 tag a).done 0 eRange
      else ({ s.rung 0x1C .pf 0 tag a with power := { s.power with capNext := some (BitVec.ofNat 12 (argAt a 0 2)) } } : State).done 0 eOk) :=
  congrArg Host.Outcome.next (mailCommand_of_accepts hacc _)

section
variable (hacc : Accepts s .d [(0, 2), (4, 4)] .pf 0 a)
include hacc

theorem setCal_of_none (hn : calLimit (argAt a 0 2) = none) :
    exec (.setCal .pf 0 tag a) s = .next ((s.rung 0x1D .pf 0 tag a).done 0 eBadarg) := by
  refine congrArg Host.Outcome.next ((mailCommand_of_accepts hacc _).trans ?_)
  dsimp only
  rw [hn] <;> rfl

theorem setCal_of_some {n : Nat} (hn : calLimit (argAt a 0 2) = some n) : exec (.setCal .pf 0 tag a) s =
    .next (if n < (BitVec.ofNat 32 (argAt a 4 4) : Word).toInt.natAbs then (s.rung 0x1D .pf 0 tag a).done 0 eRange
      else if s.calAccepted (argAt a 0 2) = false then (s.rung 0x1D .pf 0 tag a).done 0 eState
      else if argAt a 0 2 < 4 then
        if badSetpoint (s.power.userNext.put (argAt a 0 2) (BitVec.ofNat 32 (argAt a 4 4))) (argAt a 0 2) then
          (s.rung 0x1D .pf 0 tag a).done 0 eRange
        else ({ s.rung 0x1D .pf 0 tag a with power := { s.power with
          userNext := s.power.userNext.put (argAt a 0 2) (BitVec.ofNat 32 (argAt a 4 4)) } } : State).done 0 eOk
      else ({ s.rung 0x1D .pf 0 tag a with power := { s.power with
        user := s.power.user.put (argAt a 0 2) (BitVec.ofNat 32 (argAt a 4 4)) } } : State).done 0 eOk) := by
  refine congrArg Host.Outcome.next ((mailCommand_of_accepts hacc _).trans ?_)
  dsimp only
  rw [hn] <;> rfl

end

end

/-- The calibration of a VCORE setpoint is always accepted. -/
theorem calAccepted_of_lt {i : Nat} (h : i < 4) (s : State) : s.calAccepted i = true := by
  unfold State.calAccepted
  rw [if_neg (by omega), if_neg (by omega)]

theorem argAt_withKind (a : ArgBlock) {k : Nat} (h : k < 256) : argAt (withKind a k) 0 1 = k := by
  unfold argAt withKind Word.put Word.bits
  rw [BitVec.toNat_ofNat, Nat.mul_zero, Nat.shiftRight_zero, Nat.shiftRight_zero, Nat.shiftLeft_zero, Nat.shiftLeft_zero,
    Nat.mod_mod_of_dvd _ (Nat.pow_dvd_pow 2 (by decide : 8 * 1 ≤ _))]
  omega

theorem resetCommand_of_kind {s : State} {tag : BitVec 16} {a : ArgBlock} {k : Nat}
    (hacc : Accepts s .d [(0, 1)] .pf 0 (withKind a k)) (h : k < 256) :
    resetCommand .pf 0 tag (withKind a k) s =
      resetKind k { fn := .pf, f := 0, r := 0, a := withKind a k } (s.rung 0x1E .pf 0 tag (withKind a k)) := by
  refine (mailCommand_of_accepts hacc _).trans ?_
  dsimp only
  rw [argAt_withKind a h] <;> rfl

/-- Settles O51: each command by its table. -/
theorem clockPowerAndResetCommands : Obligations.ClockPowerAndResetCommands := by
  unfold Obligations.ClockPowerAndResetCommands
  intro s tag a
  refine ⟨fun hacc hz => ⟨fun hs hl => ?_, fun hor => ?_⟩, fun hacc hstep hz hp => ⟨fun e he => setClock_of_bad hacc hstep hz hp he,
      fun he => setClock_of_good hacc hstep hz hp he⟩, fun hacc => ⟨fun hlo hhi => ?_, fun hor => ?_⟩,
      fun hacc => ⟨fun hn => setCal_of_none hacc hn,
        fun n hn => ⟨fun hbig => ?_, fun hle hacc' hi => ?_, fun hle hi => ?_⟩⟩, fun k hacc => ⟨fun hk => ?_, fun hk => ?_,
        fun hk => ?_, fun hk => ?_,
          fun hk => ?_, fun hk hg => ?_, fun hk hg => ?_⟩⟩
  · rw [cadenceSet_eq hacc hz, if_neg (fun h => h.elim hs (ne_true_of_eq_false hl))]
  · rw [cadenceSet_eq hacc hz, if_pos hor]
  · rw [setPowerCap_eq hacc, if_neg (by omega)]
  · rw [setPowerCap_eq hacc, if_pos hor]
  · rw [setCal_of_some hacc hn, if_pos hbig]
  · rw [setCal_of_some hacc hn, if_neg (Nat.not_lt_of_le hle), if_neg (ne_false_of_eq_true hacc'), if_neg (Nat.not_lt_of_le hi)]
  · rw [setCal_of_some hacc hn, if_neg (Nat.not_lt_of_le hle), if_neg (ne_false_of_eq_true (calAccepted_of_lt hi s)), if_pos hi]
  · subst hk
    exact congrArg Host.Outcome.next (resetCommand_of_kind hacc (by decide))
  · subst hk
    exact congrArg Host.Outcome.next (resetCommand_of_kind hacc (by decide))
  · subst hk
    exact congrArg Host.Outcome.next (resetCommand_of_kind hacc (by decide))
  · subst hk
    exact congrArg Host.Outcome.next (resetCommand_of_kind hacc (by decide))
  · subst hk
    exact congrArg Host.Outcome.next (resetCommand_of_kind hacc (by decide))
  · subst hk
    exact congrArg Host.Outcome.next ((resetCommand_of_kind hacc (by decide)).trans (if_pos hg))
  · subst hk
    exact congrArg Host.Outcome.next ((resetCommand_of_kind hacc (by decide)).trans (if_neg (ne_true_of_eq_false hg)))

end Sys2Proof.Machine


namespace Sys2Proof.Machine
open Sys2Proof

/-! ### Block resets -/

/-- What a block reset answers with code `n`, in the words of the statement. -/
theorem blkResult_eq (n : Nat) (s : State) :
    blkResult n s = { s with resets := { s.resets with blkResult := BitVec.ofNat 2 n, blk := none } } := rfl

theorem blockReset_of_busy {s : State} (h : s.resets.blk.isSome = true) (cls idx : Nat) (idle : Bool) : blockReset cls idx idle s = s :=
  if_pos (.inr h)

theorem blockReset_of_closed {s : State} (h : s.opens .pf = false) (cls idx : Nat) (idle : Bool) : blockReset cls idx idle s = s :=
  if_pos (.inl h)

section
variable {s : State} {cls count idx : Nat} {idle : Bool} (hopen : s.opens .pf = true) (hfree : s.resets.blk = none)
  {x : Nat} (hcount : blkUnits s cls = some (x, count))
include hopen hfree hcount

/-- A block reset of a unit of its class: refused while a running region owns the unit, else its idle request goes out. -/
theorem blockReset_of_lt (h : idx < count) : blockReset cls idx idle s =
    if s.ownerRuns (blkMembers cls idx) then blkResult 2 s
    else { s with resets := { s.resets with blk := some (cls, idx, idle, s.beats) } } := by
  unfold blockReset
  rw [if_neg (by simp [hopen, hfree]), hcount]
  exact if_neg (Nat.not_le_of_lt h)

theorem blockReset_of_le (h : count ≤ idx) : blockReset cls idx idle s = blkResult 3 s := by
  unfold blockReset
  rw [if_neg (by simp [hopen, hfree]), hcount]
  exact if_pos h

end

section
variable {s : State} {cls idx since : Nat}

theorem blockCycle_of_idle (h : s.resets.blk = some (cls, idx, true, since)) :
    blockCycle s = blkResult 0 ((blkMembers cls idx).foldl (fun u m => quarantine m u) (clearUnit cls idx s)) := by
  unfold blockCycle
  rw [h] <;> rfl

theorem blockCycle_of_active (h : s.resets.blk = some (cls, idx, false, since)) :
    blockCycle s = if since + 12500 ≤ s.beats then blkResult 1 s else s := by
  unfold blockCycle
  rw [h] <;> rfl

end

theorem blockResetsClearTheirUnit : Rules.BlockResetsClearTheirUnit := by
  unfold Rules.BlockResetsClearTheirUnit
  intro s idx idle
  refine ⟨fun h => ?_, fun cls n since h => ⟨fun hi => ?_, fun hi => ⟨fun hl => ?_, fun hl => ?_⟩⟩, fun ho hf => ?_, fun h => ?_⟩
  · exact ⟨congrArg Host.Outcome.next (blockReset_of_busy h _ _ _), congrArg Host.Outcome.next (blockReset_of_busy h _ _ _),
      congrArg Host.Outcome.next (blockReset_of_busy h _ _ _), congrArg Host.Outcome.next (blockReset_of_busy h _ _ _),
      congrArg Host.Outcome.next (blockReset_of_busy h _ _ _)⟩
  · subst hi
    exact blockCycle_of_idle h
  · subst hi
    exact (blockCycle_of_active h).trans (if_pos hl)
  · subst hi
    exact (blockCycle_of_active h).trans (if_neg (Nat.not_le_of_lt hl))
  · have taken (cls x count : Nat) (hc : blkUnits s cls = some (x, count)) (h : idx.toNat < count) :=
      congrArg (Host.Outcome.next (φ := Fault) (ρ := Refusal)) (blockReset_of_lt (idle := idle) ho hf hc h)
    have missing (cls x count : Nat) (hc : blkUnits s cls = some (x, count)) (h : count ≤ idx.toNat) :=
      congrArg (Host.Outcome.next (φ := Fault) (ρ := Refusal)) (blockReset_of_le (idle := idle) ho hf hc h)
    exact ⟨taken 0 _ _ rfl, missing 0 _ _ rfl, taken 1 _ _ rfl, missing 1 _ _ rfl, taken 2 _ _ rfl, missing 2 _ _ rfl,
      fun h => ⟨taken 3 _ _ rfl h, taken 4 _ _ rfl h⟩, fun h => ⟨missing 3 _ _ rfl h, missing 4 _ _ rfl h⟩⟩
  · exact congrArg Host.Outcome.next (blockReset_of_closed h _ _ _)

/-! ### The hub's firmware -/

theorem fwGo_of_ignored {s : State} (h : s.hub.fwState = 1 ∨ s.hub.fwState = 2 ∨ s.loaderStopped = true) : fwGo s = s := if_pos (.inr h)

section
variable {s : State} (hopen : s.opens .pf = true) (hidle : s.hub.fwState = 0 ∨ s.hub.fwState = 3) (hloader : s.loaderStopped = false)
include hopen hidle hloader

/-- A started fetch, or the code of a length or address the rules do not allow. -/
theorem fwGo_of_idle : fwGo s =
    if s.hub.fwLen.toNat % 16 ≠ 0 ∨ s.hub.fwLen.toNat < 192 ∨ 0x400000 < s.hub.fwLen.toNat ∨ s.hub.fwAddr.toNat % 4096 ≠ 0 then
      { s with hub := { s.hub with fwState := 3, fwResult := BitVec.ofNat 8 eRange } }
    else { s with hub := { s.hub with fwState := 1 } } := by
  refine if_neg ?_
  rcases hidle with h | h <;> simp [hopen, hloader, h]

end

theorem hubFirmwareLoads : Rules.HubFirmwareLoads := by
  unfold Rules.HubFirmwareLoads
  intro s
  refine ⟨fun h => congrArg Host.Outcome.next (fwGo_of_ignored (.inr (.inr h))), fun ho hi hl => ⟨fun h16 hlo hhi ha => ?_, fun hbad => ?_⟩,
    fun h => congrArg Host.Outcome.next (fwGo_of_ignored (h.imp_right .inl)), fun h => ⟨if_neg (not_not_intro h), fun img => ?_⟩⟩
  · exact congrArg Host.Outcome.next ((fwGo_of_idle ho hi hl).trans (if_neg (by omega)))
  · exact congrArg Host.Outcome.next ((fwGo_of_idle ho hi hl).trans (if_pos hbad))
  · refine (if_neg (not_not_intro h)).trans ?_
    exact (apply_ite Host.Outcome.next _ _ _).symm

/-! ### The SMBus target and JTAG -/

theorem State.smbAnswers_iff {s : State} {m : SmbusCall} {code : Nat} : s.smbAnswers m code = true ↔
    (s.resets.pwrgood = true ∧ m.addr.toNat = 0x60 + s.resets.straps.toNat % 4) ∧ m.code.toNat = code ∧ (s.resets.ready = true ∨ code = 3) := by
  simp [State.smbAnswers, and_assoc]

/-- What the packet error code of a write must be, if the call carries one. -/
def SmbChecked (m : SmbusCall) (sent : List Byte) : Prop := ∀ c, m.pec = some c → c = pecOf sent

/-- The bytes an answer carries: with its packet error code if the call asks for one. -/
def smbClosed (m : SmbusCall) (sent out : List Byte) : List Byte := if m.pec = none then out else out ++ [pecOf (sent ++ out)]

theorem smbAnswer_eq (m : SmbusCall) (sent out : List Byte) (s : State) :
    smbAnswer m sent out s = { s with hub := { s.hub with smbAck := true, smbOut := smbClosed m sent out } } := by
  unfold smbAnswer smbClosed
  cases m.pec <;> simp

section
variable {s : State} {m : SmbusCall} {b : List Byte}

theorem smbusSetPointer_of_good (ha : s.smbAnswers m 1 = true) (hl : b.length = 3)
    (hp : SmbChecked m ([smbAddrByte m false, m.code, BitVec.ofNat 8 b.length] ++ b)) :
    exec (.smbusSetPointer b m) s =
      .next { s with hub := { s.hub with smbAck := true, smbOut := [], smbPtr := BitVec.ofNat 24 (leNat b) } } := by
  refine if_pos ?_
  unfold SmbChecked at hp
  cases hm : m.pec with
  | none => simp [ha, hl]
  | some c => simpa [ha, hl] using hp c hm

theorem smbusSetPointer_of_bad (h : s.smbAnswers m 1 = false ∨ b.length ≠ 3 ∨
      ∃ c, m.pec = some c ∧ c ≠ pecOf ([smbAddrByte m false, m.code, BitVec.ofNat 8 b.length] ++ b)) :
    exec (.smbusSetPointer b m) s = .next (smbNack s) := by
  refine if_neg ?_
  rcases h with h | h | ⟨c, hc, hne⟩
  · simp [h]
  · simp [h]
  · rw [hc]
    simpa using fun _ _ => hne

end

/-- The three bytes of a pointer, least significant first. -/
theorem leNat_three (x y z : Byte) : BitVec.ofNat 24 (leNat [x, y, z]) = z ++ y ++ x := by
  apply BitVec.eq_of_toNat_eq
  simp only [leNat, BitVec.toNat_append, BitVec.toNat_ofNat]
  rw [← Nat.shiftLeft_add_eq_or_of_lt x.isLt, ← Nat.shiftLeft_add_eq_or_of_lt y.isLt, Nat.shiftLeft_eq, Nat.shiftLeft_eq]
  omega

theorem State.smbAnswers_eq_false {s : State} {m : SmbusCall} {code : Nat} (h : ¬ (s.resets.pwrgood = true ∧
    m.addr.toNat = 0x60 + s.resets.straps.toNat % 4) ∨ m.code.toNat ≠ code ∨ (s.resets.ready = false ∧ code ≠ 3)) :
    s.smbAnswers m code = false := by
  rw [Bool.eq_false_iff, ne_eq, State.smbAnswers_iff]
  rintro ⟨hmine, hcode, hready⟩
  rcases h with h | h | ⟨h, h3⟩
  · exact h hmine
  · exact h hcode
  · exact hready.elim (ne_true_of_eq_false h) h3

/-- A block read that is answered: the register at the pointer, whose latched half is kept, and the pointer moves on. -/
theorem smbusBlockRead_of_answers {s : State} {m : SmbusCall} (h : s.smbAnswers m 2 = true) :
    exec (.smbusBlockRead m) s = .next
      (let u := smbAnswer m [smbAddrByte m false, m.code, smbAddrByte m true, 4]
        (leBytes 4 (if smbReadable s.hub.smbPtr.toNat then s.regRead .pf smbReader s.hub.smbPtr.toNat else 0).toNat)
        (if smbReadable s.hub.smbPtr.toNat then takeLatch .pf smbReader s.hub.smbPtr.toNat s else s)
      { u with hub := { u.hub with smbPtr := s.hub.smbPtr + 4 } }) := by
  refine (if_neg (ne_false_of_eq_true h)).trans ?_
  dsimp only
  rw [smbAnswer_eq]
  split <;> rfl

theorem jtagCapture_idcode {s : State} (h : s.hub.jtag = .idcode) : s.jtagCapture = some 0x061804F3 := by
  unfold State.jtagCapture
  rw [h]

/-- A JTAG instruction by what its TRST_N pulse is taken for. -/
theorem jtagInstruction_eq (ir : JtagIr) (t : Nat) (s : State) : exec (.jtagInstruction ir t) s =
    .next { (pulseTaken t s).2 with hub := { (pulseTaken t s).2.hub with
      jtag := if (pulseTaken t s).1 then .idcode else if ir = .extest then .bypass else ir } } := rfl

theorem jtagInstruction_of_short (ir : JtagIr) {t : Nat} (h : t < 100) (s : State) :
    exec (.jtagInstruction ir t) s = .next { s with hub := { s.hub with jtag := if ir = .extest then .bypass else ir } } := by
  rw [jtagInstruction_eq, pulseTaken_short h] <;> rfl

theorem jtagInstruction_of_long (ir : JtagIr) {t : Nat} (h : 1000 ≤ t) (s : State) :
    exec (.jtagInstruction ir t) s = .next { s with hub := { s.hub with jtag := .idcode } } := by
  rw [jtagInstruction_eq, pulseTaken_long h] <;> rfl

/-- A pulse of a length that may or may not be taken is a free choice of the two. -/
theorem jtagInstruction_between (ir : JtagIr) {t : Nat} (hlo : 100 ≤ t) (hhi : t < 1000) (s : State) :
    exec (.jtagInstruction ir t) s = exec (.jtagInstruction ir 0) { s with free := s.free + 1 } ∨
      exec (.jtagInstruction ir t) s = exec (.jtagInstruction ir 1000) { s with free := s.free + 1 } := by
  rw [jtagInstruction_of_short ir (by decide : 0 < 100), jtagInstruction_of_long ir (Nat.le_refl 1000), jtagInstruction_eq ir t,
    pulseTaken_between hlo hhi]
  cases Config.free 1 s.free == 1
  · exact .inl rfl
  · exact .inr rfl

theorem theSidePortsAnswer : Rules.TheSidePortsAnswer := by
  unfold Rules.TheSidePortsAnswer
  intro s m
  refine ⟨fun hm hr => ⟨fun x y z hc hp => ?_, fun v hc hv => ?_⟩, fun b c hbad => ?_, fun hbad => ?_, fun hbad => ?_, fun hm hc => ?_,
    fun ir t ht hi => ?_, fun t ht => ?_, fun ir t ht => jtagInstruction_of_long ir ht s,
    fun ir t hlo hhi => jtagInstruction_between ir hlo hhi s, jtagCapture_idcode⟩
  · rw [smbusSetPointer_of_good (State.smbAnswers_iff.2 ⟨hm, congrArg BitVec.toNat hc, .inl hr⟩) rfl (by rw [hc]; exact hp), leNat_three]
  · have ha : s.smbAnswers m 2 = true := State.smbAnswers_iff.2 ⟨hm, congrArg BitVec.toNat hc, .inl hr⟩
    refine ⟨_, smbusBlockRead_of_answers ha, ?_⟩
    subst hv
    dsimp only
    rw [smbAnswer_eq, hc]
    refine ⟨rfl, rfl, rfl, ?_⟩
    split <;> exact ⟨rfl, rfl, rfl⟩
  · refine smbusSetPointer_of_bad ?_
    rcases hbad with h | h | h | h | h
    · exact .inr (.inl h)
    · exact .inl (State.smbAnswers_eq_false (.inr (.inl (fun e => h (BitVec.eq_of_toNat_eq e)))))
    · exact .inl (State.smbAnswers_eq_false (.inr (.inr ⟨h, by decide⟩)))
    · exact .inl (State.smbAnswers_eq_false (.inl h))
    · exact .inr (.inr ⟨c, h⟩)
  · refine if_pos (State.smbAnswers_eq_false ?_)
    rcases hbad with h | h | h
    · exact .inr (.inl (fun e => h (BitVec.eq_of_toNat_eq e)))
    · exact .inr (.inr ⟨h, by decide⟩)
    · exact .inl h
  · refine congrArg Host.Outcome.next (if_neg (ne_true_of_eq_false (State.smbAnswers_eq_false ?_)))
    rcases hbad with h | h
    · exact .inr (.inl (fun e => h (BitVec.eq_of_toNat_eq e)))
    · exact .inl h
  · refine congrArg Host.Outcome.next ((if_pos (State.smbAnswers_iff.2 ⟨hm, congrArg BitVec.toNat hc, .inr rfl⟩)).trans ?_)
    rw [smbAnswer_eq, hc] <;> rfl
  · rw [jtagInstruction_of_short ir ht, if_neg hi]
  · rw [jtagInstruction_of_short .extest ht, if_pos rfl]

/-- Settles O53: each part by the equations of its operations. -/
theorem blockResetsFirmwareAndSidePorts : Obligations.BlockResetsFirmwareAndSidePorts :=
  ⟨blockResetsClearTheirUnit, hubFirmwareLoads, theSidePortsAnswer⟩

end Sys2Proof.Machine


namespace Sys2Proof.Machine
open Sys2Proof

/-! ### The state before the supplies are good -/

/-- Every table of the reset state is empty, so what stands under a key is the reset value of its kind. -/
theorem State.region_reset (r : RegionId) : State.reset.region r = Region.reset := rfl

theorem State.tile_reset (t : TileId) : State.reset.tile t = Tile.reset := rfl

theorem State.port_reset (p : PortId) : State.reset.port p = Port.reset := rfl

theorem State.mail_reset (f : Nat) : State.reset.mail f = Mailbox.reset := rfl

theorem State.obj_reset (o : BitVec 16) : State.reset.obj o = SyncObj.reset := rfl

/-- No region is configured, so none owns a tile. -/
theorem State.regionOf_reset (t : TileId) : State.reset.regionOf t = none := rfl

/-- Settles O56: table by table, from the reset value of each kind. -/
theorem resetLeavesTheStatedValues : Obligations.ResetLeavesTheStatedValues := by
  unfold Obligations.ResetLeavesTheStatedValues
  refine ⟨rfl, rfl, rfl, rfl, rfl, rfl, rfl, rfl, rfl, rfl, rfl, rfl, rfl, rfl, rfl, rfl, rfl, rfl, fun r => ?_, fun t => ?_, fun p => ?_,
    fun f => ?_, State.obj_reset⟩
  · rw [State.region_reset, State.regionOf_reset]
    exact ⟨rfl, rfl, rfl, rfl, rfl, rfl, rfl, rfl, Option.some_ne_none r |>.symm⟩
  · rw [State.tile_reset]
    exact ⟨rfl, rfl, fun k => ite_self _, rfl, rfl, rfl, rfl, fun _ => rfl⟩
  · rw [State.port_reset]
    exact ⟨rfl, rfl, rfl⟩
  · rw [State.mail_reset]
    exact ⟨rfl, rfl, rfl⟩

end Sys2Proof.Machine


namespace Sys2Proof.Machine
open Sys2Proof

/-! ### Accesses through a function -/

theorem State.answers_of_opens {s : State} {fn : Fn} (h : s.opens fn = true) : s.answers fn = true := (Bool.and_eq_true_iff.1 h).2

theorem State.ready_of_opens {s : State} {fn : Fn} (h : s.opens fn = true) : s.resets.ready = true := (Bool.and_eq_true_iff.1 h).1

/-- The physical function answers whenever it is ready. -/
theorem State.opens_pf_of_opens {s : State} {fn : Fn} (h : s.opens fn = true) : s.opens .pf = true := by
  unfold State.opens
  rw [State.ready_of_opens h] <;> rfl

section
variable {s : State} {fn : Fn} {off : Nat} {act : State → Host.Outcome State Fault Refusal}

theorem accessed_of_unsupported (h : s.answers fn = false ∨ off % 4 ≠ 0) : accessed fn off act s = .next (noteUr true s) := by
  refine if_pos ?_
  rcases h with h | h <;> simp [State.unsupported, h]

theorem accessed_of_supported (ha : s.answers fn = true) (ho : off % 4 = 0) : accessed fn off act s = act (noteUr false s) :=
  if_neg (by simp [State.unsupported, ha, ho])

end

/-- How an access completed changes nothing a function's windows depend on. -/
theorem State.opens_noteUr (b : Bool) (s : State) (fn : Fn) : (noteUr b s).opens fn = s.opens fn := by cases fn <;> rfl

theorem regRead_noteUr (b : Bool) (s : State) (fn : Fn) (who off : Nat) : (noteUr b s).regRead fn who off = s.regRead fn who off := rfl

section
variable {s : State} {fn : Fn} {off : BitVec 24} (h : s.answers fn = false ∨ off.toNat % 4 ≠ 0)
include h

theorem latchingRead_of_unsupported : exec (.latchingRead fn off) s = .next (noteUr true s) := by
  show execLatchingRead fn off s = _
  exact accessed_of_unsupported h

theorem eventAck_of_unsupported (seq : BitVec 16) : exec (.eventAck fn off seq) s = .next (noteUr true s) := by
  show execEventAck fn off seq s = _
  exact accessed_of_unsupported h

theorem registerWrite_of_unsupported (v : Word) : exec (.registerWrite fn off v) s = .next (noteUr true s) := by
  show execRegisterWrite fn off v s = _
  unfold execRegisterWrite
  exact accessed_of_unsupported h

end

/-! ### Register rows -/

section
variable {s : State} {fn : Fn} (hopen : s.opens fn = true)
include hopen

theorem eventAck_of_opens (seq : BitVec 16) {off : BitVec 24} (ho : off.toNat % 4 = 0) :
    exec (.eventAck fn off seq) s = .next (ackWrite fn off.toNat seq (noteUr false s)) := by
  show execEventAck fn off seq s = _
  unfold execEventAck
  rw [accessed_of_supported (State.answers_of_opens hopen) ho]
  exact congrArg Host.Outcome.next (if_pos ((State.opens_noteUr false s fn).trans hopen))

theorem latchingRead_of_opens {off : BitVec 24} (ho : off.toNat % 4 = 0) :
    exec (.latchingRead fn off) s =
      .next (let u := takeLatch fn (fnNo fn) off.toNat (endPending fn (evtVector fn off.toNat) (noteUr false s))
        { u with hub := { u.hub with readData := s.regRead fn (fnNo fn) off.toNat } }) := by
  show execLatchingRead fn off s = _
  unfold execLatchingRead
  rw [accessed_of_supported (State.answers_of_opens hopen) ho]
  dsimp only
  rw [if_pos (State.ready_of_opens hopen : (noteUr false s).resets.ready = true), regRead_noteUr]

theorem xwinWrite_of_opens (rg : RegionId) (win : BitVec 8) (v : Word) :
    exec (.xwinWrite fn rg win v) s = .next (xwinWrite (windowOf fn rg) win.toNat v s) := congrArg Host.Outcome.next (if_pos hopen)

theorem expTailWrite_of_opens (rg : RegionId) (v : Word) :
    exec (.expTailWrite fn rg v) s = .next (tailWrite (windowOf fn rg) v s) := congrArg Host.Outcome.next (if_pos hopen)

theorem hazTailWrite_of_opens (rg : RegionId) (v : Word) :
    exec (.hazTailWrite fn rg v) s = .next (hazWrite (windowOf fn rg) v s) := congrArg Host.Outcome.next (if_pos hopen)

end

/-- The end of a pending message changes the list of pending messages only. -/
theorem endPending_eq (fn : Fn) (v : Option Nat) (s : State) :
    ∃ msix, endPending fn v s = { s with hub := { s.hub with msix := msix } } := by
  cases v with
  | none => exact ⟨s.hub.msix, rfl⟩
  | some n => exact ⟨_, rfl⟩

theorem EvtReg.ack_of_eq {e : EvtReg} {seq : BitVec 16} (h : seq = e.seq) : e.ack seq = { e with bits := 0 } := if_pos h

theorem EvtReg.ack_of_ne {e : EvtReg} {seq : BitVec 16} (h : seq ≠ e.seq) : e.ack seq = e := if_neg h

/-- An acknowledgement of EVT, by whether its sequence is the current one. -/
theorem ackWrite_evt (seq : BitVec 16) (s : State) : ackWrite .pf 0x104 seq s = { s with hub := { s.hub with
    evt := s.hub.evt.ack seq, msix := s.hub.msix.filter (fun m => m != (0, 0)) } } := rfl

theorem registerRowsAct : Rules.RegisterRowsAct := by
  unfold Rules.RegisterRowsAct
  intro s fn rg
  refine ⟨fun off seq v h => ⟨latchingRead_of_unsupported h, eventAck_of_unsupported h seq, registerWrite_of_unsupported h v⟩,
    fun ho => ⟨fun seq => ⟨fun h => ?_, fun h => ?_⟩, fun off hoff => ?_, ⟨rfl, rfl⟩, fun v => if_neg (ne_false_of_eq_true ho),
      fun win v => ⟨fun h => ?_, fun h => ?_⟩, fun v => expTailWrite_of_opens ho rg v, fun v => ⟨fun h => ?_, fun h => ?_⟩⟩⟩
  · refine (eventAck_of_opens (State.opens_pf_of_opens ho) seq (by decide)).trans ?_
    refine congrArg Host.Outcome.next ((ackWrite_evt seq _).trans ?_)
    rw [EvtReg.ack_of_eq (show seq = (noteUr false s).hub.evt.seq from h)] <;> rfl
  · refine (eventAck_of_opens (State.opens_pf_of_opens ho) seq (by decide)).trans ?_
    refine congrArg Host.Outcome.next ((ackWrite_evt seq _).trans ?_)
    rw [EvtReg.ack_of_ne (show seq ≠ (noteUr false s).hub.evt.seq from h)] <;> rfl
  · refine ⟨_, latchingRead_of_opens ho hoff, ?_⟩
    obtain ⟨msix, he⟩ := endPending_eq fn (evtVector fn off.toNat) (noteUr false s)
    rw [he]
    exact ⟨rfl, rfl, (Tab.get_put _ _ _ _ _).trans (if_pos rfl), rfl, rfl, rfl, rfl⟩
  · exact (xwinWrite_of_opens ho rg win v).trans (congrArg Host.Outcome.next (if_pos h))
  · exact (xwinWrite_of_opens ho rg win v).trans (congrArg Host.Outcome.next (if_neg (Nat.not_lt_of_le h)))
  · exact (hazTailWrite_of_opens ho rg v).trans (congrArg Host.Outcome.next (if_pos h))
  · exact (hazTailWrite_of_opens ho rg v).trans (congrArg Host.Outcome.next (if_neg (Nat.not_lt_of_le h)))

/-! ### Register writes -/

/-- A write of a register beyond the doorbell and the argument words goes to its window. -/
def windowWrite (fn : Fn) (off : Nat) (v : Word) (s : State) : Host.Outcome State Fault Refusal :=
  match windowAt fn off with
  | (some r, w) => winWrite fn r off w v s
  | (none, w) => .next (provWrite w v s)

section
variable {s : State} {fn : Fn} {off : BitVec 24} {v : Word}

theorem registerWrite_of_closed (ha : s.answers fn = true) (ho : off.toNat % 4 = 0) (hr : s.resets.ready = false) :
    exec (.registerWrite fn off v) s = .next (noteUr false s) := by
  show execRegisterWrite fn off v s = _
  unfold execRegisterWrite
  dsimp only
  refine (accessed_of_supported ha ho).trans (if_pos ?_)
  rw [State.opens_noteUr, State.opens, hr] <;> rfl

variable (hopen : s.opens fn = true)
include hopen

/-- A write through a function that answers, by its offset. -/
theorem registerWrite_of_opens (ho : off.toNat % 4 = 0) : exec (.registerWrite fn off v) s =
    if off.toNat = 0 then
      doorbell (Word.bits v 0 8) fn (v.extractLsb' 8 6) (v.extractLsb' 16 16) (s.mail (fnNo fn)).args (noteUr false s)
    else if 0x10 ≤ off.toNat ∧ off.toNat < 0x50 then .next (argWrite (fnNo fn) off.toNat v (noteUr false s))
    else windowWrite fn off.toNat v (noteUr false s) := by
  show execRegisterWrite fn off v s = _
  unfold execRegisterWrite
  dsimp only
  refine (accessed_of_supported (State.answers_of_opens hopen) ho).trans (if_neg ?_)
  rw [State.opens_noteUr, hopen]
  exact Bool.noConfusion

theorem registerWrite_window (ho : off.toNat % 4 = 0) (hbig : 0x50 ≤ off.toNat) :
    exec (.registerWrite fn off v) s = windowWrite fn off.toNat v (noteUr false s) := by
  rw [registerWrite_of_opens hopen ho, if_neg (by omega), if_neg (by omega)]

end

theorem doorbell_of_reserved {op : Nat} (h : op = 0 ∨ 0x1E < op) (fn : Fn) (rg : RegionId) (tag : BitVec 16) (a : ArgBlock) (s : State) :
    doorbell op fn rg tag a s = .next (badCommand op fn tag a s) := by
  rcases h with rfl | h
  · rfl
  · obtain ⟨k, rfl⟩ := Nat.exists_eq_add_of_le' (show 31 ≤ op from h)
    rfl

theorem registerWritesReachTheirRegister : Rules.RegisterWritesReachTheirRegister := by
  unfold Rules.RegisterWritesReachTheirRegister
  intro s fn v
  refine ⟨fun ha hr off ho => registerWrite_of_closed ha ho hr, fun ho => ⟨?_, fun off hlo hhi h4 => ?_, fun n hn => ?_, fun hp => ?_⟩,
    fun op rg tag a hop _ hacc => ?_⟩
  · exact (registerWrite_of_opens ho rfl).trans (if_pos rfl)
  · rw [registerWrite_of_opens ho h4, if_neg (by omega), if_pos ⟨hlo, hhi⟩] <;> rfl
  · subst hn
    have at110 := registerWrite_window (v := v) ho (off := 0x110) (by decide) (by decide)
    refine ⟨fun h => at110.trans (congrArg Host.Outcome.next (if_pos h)),
      fun h => at110.trans (congrArg Host.Outcome.next (if_neg (Nat.not_lt_of_le h))),
      registerWrite_window ho (by decide) (by decide), registerWrite_window ho (by decide) (by decide)⟩
  · subst hp
    exact ⟨registerWrite_window ho (by decide) (by decide), registerWrite_window ho (by decide) (by decide),
      registerWrite_window ho (by decide) (by decide), registerWrite_window ho (by decide) (by decide)⟩
  · refine (doorbell_of_reserved hop fn rg tag a s).trans (congrArg Host.Outcome.next ?_)
    exact mailCommand_of_accepts hacc _

/-- Settles O52: each row by the equation of its access. -/
theorem registersActAndAreWritten : Obligations.RegistersActAndAreWritten := ⟨registerRowsAct, registerWritesReachTheirRegister⟩

end Sys2Proof.Machine
